-- ==== Sys2Proof/Word.lean ====
section
/-!
DEFINITION. Word.lean: the word types of the YL7260 and the one container the whole model uses.
Registers are 32 bits wide and little-endian (00_scope.md, Notation).
-/
namespace Sys2Proof

/-- One 32-bit register, descriptor dword or entry dword. -/
abbrev Word := BitVec 32

/-- One byte of a frame, of the NVM or of a buffer. -/
abbrev Byte := BitVec 8

/-- Sparse data by key, in one canonical form: keys strictly rising (see `Sys2Proof.Machine.AMap.wf`).
An absent key means the content an unlisted place has (a register's reset value, an empty entry). -/
abbrev AMap (α : Type) := List (Nat × α)

end Sys2Proof
end

