-- ==== Sys2Proof/Syntax.lean ====
section
/-!
DEFINITION. Syntax.lean: the commands of the block, one constructor per row of the table of operations and events.
A command is a register access of a master, an event at a pin or a line, or an instant at which the device itself
acts; its operands are what the outside supplies (who accesses, the value written, the measured quantity). An operand of type Unit carries nothing: what
the command needs stands in the state.
-/
namespace Sys2Proof

/-- The masters of 02_register_model.md: the host, the four management cores, and the cue engine (BLK_ERR.MASTER).
`sup` says that a management core accesses at supervisor level (R762). -/
inductive Master where
  | host
  | core (c : Fin 4) (sup : Bool)
  | cue
  deriving DecidableEq, Repr

/-- BLK_ERR.MASTER: 0 host, 1 to 4 management cores 0 to 3, 5 cue engine. -/
def Master.num : Master → Nat
  | .host => 0
  | .core c _ => c.val + 1
  | .cue => 5

/-- What a write of BAR0 carries besides its first dword: whether register parity finds an error in it (check 8 of R89), and the dwords of a wider
access in ascending address order, each with its byte enables (R48). -/
structure WriteRest where
  parityErr : Bool := false
  more : List (BitVec 4 × Word) := []
  deriving DecidableEq, Repr

/-- The byte enables of a read of BAR0: those of its first dword, and of each further dword of a wider access (R48). -/
structure Enables where
  first : BitVec 4
  more : List (BitVec 4) := []
  deriving DecidableEq, Repr

/-- What a DPLL measures in one millisecond (R112, R129, R134): its phase error in ps, its frequency in ppt of raw OSCIN, and
the phase of each of the eight slots against its output in ps. -/
structure LoopMeas where
  pherr : Int
  freq : Int
  offs : List Int
  deriving DecidableEq, Repr

/-- What a tick of the Sundial brings from outside: the Pavilions whose replica differs on it (R777); the single-bit errors in control state that ECC
corrects with it, each in a cell's program memory or elsewhere (R27); the error in ps of the phase detector's
cycle that ends with it, if one does (R152); the levels of balls GNS_FEn_I and GNS_FEn_Q at each sample of inputs 0 and 1 since the tick before (R280);
balls that it gives no levels for stand low. -/
structure TickIn where
  mismatch : List (Fin 8) := []
  corrected : List (Option (Fin 128)) := []
  pdErr : Option Nat := none
  fe0 : List (Byte × Byte) := []
  fe1 : List (Byte × Byte) := []
  deriving DecidableEq, Repr

/-- What a lane's receiver sees of a superblock (R339): its bits at an NRZ rate, or its symbols' levels at a PAM4 rate. -/
inductive LineSig where
  | nrz (bits : List Bool)
  | pam4 (levels : List (Fin 4))
  deriving DecidableEq, Repr

/-- A superblock that starts on a port: its first bit crosses `sub` (in 2^-40 ns) after the last tick of the Sundial (R196, R209). -/
structure SbStart where
  port : Fin 128
  sub : Nat := 0
  deriving DecidableEq, Repr

/-- What arrives on a reference slot (R101, R824): a clock edge; a PPS pulse, `interval` ps of raw OSCIN after the last valid
pulse and `sub` units of 2^-40 ns after the last Sundial tick; a PTP Sync with the offset of its servo in 2^-40 ns (positive:
the domain is behind); a trunk time word. -/
inductive Arrival where
  | edge
  | pps (interval sub : Nat)
  | ptp (ofs : Int)
  | word
  deriving DecidableEq, Repr

/-- A narrowband line of an input's spectrum (R287): its offset from the LO in Hz, its level in dB on the scale of the noise floor. -/
structure Line where
  freq : Int
  db : Int
  deriving DecidableEq, Repr

/-- What the firmware's time solution rests on in a second (R303, R304, R308): the channels that it judges in lock, the elevation in degrees of the
satellites that channels track, whether it solves at all, and its accuracy estimate in ns. -/
structure Solution where
  lock : List (Fin 64)
  elev : List (Fin 64 × Int) := []
  fix : Bool
  tacc : Word
  deriving DecidableEq, Repr


/-- What a PCIe configuration request does to the function (R607, R639, R662): a read of a dword, a write of Bus Master Enable, of the power state
(D0 or D3hot) with PME_Status cleared or not, of the MSI-X enable and function mask, of FLR. -/
inductive CfgReq where
  | read (off : BitVec 12)
  | command (bme : Bool)
  | power (d0 clearPme : Bool)
  | msix (enable mask : Bool)
  | flr
  deriving DecidableEq, Repr

/-- What a job did in the processing period that ends (R561, R587): the cycles that its block took, and whether the block is still unfinished. -/
structure JobRun where
  job : BitVec 16
  cycles : Nat
  late : Bool
  deriving DecidableEq, Repr

/-- What a compute cell reports (R599, R752): the time of a block in ns, and how many of the issue slots since its last report were retired, wasted
and front-starved. -/
structure CellWork where
  cell : Fin 128
  ns : Nat
  ret : Nat
  waste : Nat
  front : Nat
  deriving DecidableEq, Repr

/-- A load of firmware from the boot flash (R32, R813): the ranges that management core 0 reads, each with the bytes that the flash answers, and whether the
image is correctly signed. -/
structure FlashLoad where
  reads : List (BitVec 24 × List Byte) := []
  good : Bool
  deriving DecidableEq, Repr

/-- Which control state an uncorrectable ECC error has hit (R27, R773, R777, R779): a frame in a parse FIFO, by its place from the head; a
copy that waits in an egress queue; the next descriptor of a ring; an entry of the L2 (0), stream (1) or group (2) table in one Pavilion's replica; the pointers of a queue in a buffer bank, with the
queues that hold frames in that bank; an action of a staged cue; the time state of a domain; a cell's program memory; a Pavilion's crossbar
attachment; the shared control state of a Pavilion's block (PAV, LAN, MAC, TRK, QUE, LRN, BST, MON); the crossbar, the table engine or the cue
engine. -/
inductive EccWhere where
  | header (ing : Fin 137) (e : Fin 9) (l : Fin 3) (i : Nat)
  | copy (p : Fin 137) (t : Fin 8) (i : Nat)
  | descriptor (n : Fin 256)
  | tableEntry (r : Fin 8) (tab : Fin 3) (i : BitVec 20)
  | queuePtr (p : Fin 137) (t : Fin 8) (bank : Fin 16) (others : List (Fin 137 × Fin 8))
  | cueAction (k : Fin 64) (i : Fin 4096)
  | timeState (d : Fin 2)
  | cellProgram (c : Fin 128)
  | attachment (r : Fin 8)
  | shared (b : Fin 8) (r : Fin 8)
  | engine
  deriving DecidableEq, Repr


/-- The commands. Each constructor is one row of the table, named after its mnemonic. -/
inductive Instr where
  | registerWrite (m : Master) (be : BitVec 4) (a : BitVec 25) (v : Word) (rest : WriteRest)
  | reservedRangeAccess (m : Master) (wr : Bool) (be : BitVec 4) (a : BitVec 25)
  | bar2ReservedWrite (a : BitVec 20) (x : Option (BitVec 4 × Word))
  | blkErrRead (m : Master) (be : BitVec 4) (a : BitVec 25)
  | registerReadParityError (m : Master) (be : BitVec 4) (a : BitVec 25)
  | counterRead (m : Master) (be : Enables) (a : BitVec 25)
  | counterLowHalfRead (m : Master) (be : Enables) (a : BitVec 25)
  | blkLockWrite (m : Master) (be : BitVec 4) (a : BitVec 25) (v : Word)
  | snapshotPort (m : Master) (be : BitVec 4) (a : BitVec 25) (target : Byte)
  | snapshotPavilion (m : Master) (be : BitVec 4) (a : BitVec 25) (target : Byte)
  | snapshotChip (m : Master) (be : BitVec 4) (a : BitVec 25) (target : Byte)
  | dwFirstWrite (m : Master) (be : BitVec 4) (a : BitVec 25) (v : Word)
  | dwComplementWrite (m : Master) (be : BitVec 4) (a : BitVec 25) (v : Word)
  | dwWindowExpiry (m : Master) (a : BitVec 25)
  | modeKeyWrite (m : Master) (be : BitVec 4) (v : Word)
  | modeKeyExpiry (m : Master)
  | modeChange (m : Master) (be : BitVec 4) (v : Word)
  | refConfigWrite (m : Master) (be : BitVec 4) (n : Fin 8) (nom : Bool) (v : Word)
  | refPulseArrival (n : Fin 8) (x : Arrival)
  | refActivityLost (n : Fin 8)
  | foffUpdate (n : Fin 8) (raw : Option Int)
  | slotQualified (n : Fin 8)
  | selectionTick (meas : List LoopMeas)
  | dpllModeWrite (m : Master) (be : BitVec 4) (d : Fin 4) (v : Word)
  | dpllLocked (d : Fin 4)
  | holdoverBin (y0 y2 y3 : Int)
  | holdoverSecond (d : Fin 4)
  | apllLossOfLock
  | apllLock (oscHz : Nat)
  | bypassReturn
  | bypassIncScale
  | outputEnableSet (m : Master) (be : BitVec 4) (v : Word)
  | outputEnableClear (m : Master) (be : BitVec 4) (v : Word)
  | outputDelayWrite (m : Master) (be : BitVec 4) (k : Fin 8) (v : Word)
  | delayWalkDone (k : Fin 8)
  | sundialTick (x : TickIn)
  | domainStep (d : Fin 3)
  | slewDone (d : Fin 3)
  | domainSelectWrite (m : Master) (be : BitVec 4) (v : Word)
  | autoDomainSwitch
  | leapSecond
  | timeOutputEnable (m : Master) (be : BitVec 4) (k : Fin 8) (v : Word)
  | timeOutputDisable (m : Master) (be : BitVec 4) (k : Fin 8) (v : Word)
  | outputAdjWrite (m : Master) (be : BitVec 4) (k : Fin 8) (v : Word)
  | compareArm (m : Master) (be : BitVec 4) (c : Fin 16) (v : Word)
  | compareDisarm (m : Master) (be : BitVec 4) (c : Fin 16) (v : Word)
  | compareFire (c : Fin 16)
  | captureCounters (m : Master) (be : BitVec 4) (v : Word)
  | timeSetStep (m : Master) (be : BitVec 4) (v : Word)
  | timeSetSlew (m : Master) (be : BitVec 4) (v : Word)
  | timeSetDone
  | timeWordSend (p : Fin 128) (dom : Fin 2) (sub : Nat)
  | timeWordReceive (p : Fin 128) (dws : List Word) (sub : Nat)
  | ptpConfigWrite (m : Master) (be : BitVec 4) (p : Fin 128) (v : Word)
  | tdcEdge (n : Fin 16) (fall : Bool) (c c1 c2 : BitVec 12)
  | tdcPairTimeout (u : Fin 8)
  | tdcIdleCalibration (n : Fin 16) (c1 c2 : BitVec 12)
  | tdcArmContinuous (m : Master) (be : BitVec 4) (n : Fin 16) (v : Word)
  | tdcArmGate (m : Master) (be : BitVec 4) (n : Fin 16) (v : Word)
  | tdcArmCompare (m : Master) (be : BitVec 4) (n : Fin 16) (v : Word)
  | tdcDisarm (m : Master) (be : BitVec 4) (n : Fin 16) (v : Word)
  | tdcGateRise (g : Fin 4)
  | tdcGateFall (g : Fin 4)
  | tdcResultRead (m : Master) (be : BitVec 4) (n : Fin 16)
  | tdcDiffConfigWrite (m : Master) (be : BitVec 4) (u : Fin 8) (v : Word)
  | calTrigger (k : Fin 3) (i : Fin 128)
  | calCommandOffset (m : Master) (be : BitVec 4) (item : Byte)
  | calCommandTrunk (m : Master) (be : BitVec 4) (item : Byte)
  | calCommandAsym (m : Master) (be : BitVec 4) (item : Byte)
  | calDeferredStart (l : Fin 128)
  | calRunComplete (k : Fin 3) (i : Fin 128) (a0 a1 b0 b1 : Int)
  | calApplyStep (what : Fin 5) (i : Fin 128)
  | calEnableWrite (m : Master) (be : BitVec 4) (v : Word)
  | notchSearch (n : Fin 2) (k : Fin 4) (lines : List Line) (depth : Byte) (pwr : BitVec 16) (floor : Int) (follow : Option Line)
  | notchRelease (n : Fin 2) (k : Fin 4)
  | acqGo (m : Master) (be : BitVec 4) (v : Word)
  | acqDone (pnr : BitVec 16) (code dop : Nat) (i : Nat)
  | epochEnd (c : Fin 64) (data : List (Int × Word × Word)) (pilot : Word × Word) (half : Word × Word) (cn0 : Word) (x : Unit)
  | channelNcoWrite (m : Master) (be : BitVec 4) (c : Fin 64) (reg : Fin 3) (v : Word)
  | channelSlewWrite (m : Master) (be : BitVec 4) (c : Fin 64) (v : Word)
  | ownerWrite (m : Master) (be : BitVec 4) (c : Fin 64) (v : Word)
  | timeMessage (x : Solution) (sec : BitVec 48) (utc : BitVec 16) (pend sign : Bool) (lead : Nat)
  | belvederePps (interval : Nat) (x : Unit)
  | gnssUtcLoad
  | snapshotGo (m : Master) (be : BitVec 4) (v : Word)
  | snapshotCaptureStart (k : Fin 4) (x : Unit)
  | snapshotCaptureEnd (k : Fin 4) (x y z w : Unit)
  | snapshotRelease (m : Master) (be : BitVec 4) (v : Word)
  | grottoGo (m : Master) (be : BitVec 4) (j : Fin 8) (v : Word)
  | grottoChannelClaim (j : Fin 8)
  | grottoWaitTimeout (j : Fin 8)
  | rangingExchange (j : Fin 8) (p : Fin 128) (good : Bool) (aFar : Nat) (sFar : List Nat)
  | grottoPeerTimeout (j : Fin 8)
  | grottoDone (j : Fin 8) (x y z : Unit)
  | grottoCancel (m : Master) (be : BitVec 4) (j : Fin 8) (v : Word)
  | gnssDisable (m : Master) (be : BitVec 4) (v : Word)
  | portEnable (m : Master) (be : BitVec 4) (p : Fin 128) (v : Word)
  | portDisable (m : Master) (be : BitVec 4) (p : Fin 128) (v : Word)
  | frameReceive (p : Fin 128) (bs : List Byte) (code abort : Bool) (sof : Fin 8) (sub : Nat)
  | ethLinkUp (p : Fin 128)
  | ethLinkDown (p : Fin 128) (lf rf : Bool)
  | superblockTransmit (x : SbStart)
  | superblockReceive (l : Fin 128) (line : LineSig) (fix : List (Fin 440 × BitVec 10)) (ppt : Int) (sub : Nat)
  | cdrLock (l : Fin 128)
  | cdrLoss (l : Fin 128)
  | negWordReceive (p : Fin 128) (w : BitVec 64) (ppt : Int)
  | rateStep (p : Fin 128)
  | txpllLock (p : Fin 128)
  | trainComplete (p : Fin 128)
  | verifyComplete (p : Fin 128)
  | bringupTimeout (p : Fin 128)
  | rateFallback (p : Fin 128)
  | phaseSlip (p : Fin 128)
  | txpllLoss (l : Fin 128)
  | upstreamSelect
  | localTimeMessage (p : Fin 128) (sec : BitVec 48) (utc : Word)
  | eyeScanGo (m : Master) (be : BitVec 4) (l : Fin 128) (v : Word)
  | eyeScanStop (m : Master) (be : BitVec 4) (l : Fin 128) (v : Word)
  | eyeScanDone (l : Fin 128) (err : BitVec 64)
  | crossbarGrant (e : Fin 9)
  | crossbarTimeoutDrop (ing : Fin 137) (e : Fin 9) (l : Fin 3)
  | frameTransmit (p : Fin 137)
  | gateEntryChange (p : Fin 128)
  | schedulerEnable (m : Master) (be : BitVec 4) (p : Fin 128) (v : Word)
  | schedulerDisable (m : Master) (be : BitVec 4) (p : Fin 128) (v : Word)
  | schedulerStopped (p : Fin 128)
  | flushComplete (p : Fin 128)
  | tierMoveStart (p : Fin 137) (t : Fin 4)
  | tierMoveDone (p : Fin 137) (t : Fin 4)
  | learnCommit
  | moveWindowExpiry (vid : BitVec 12) (mac : BitVec 48)
  | flapHoldEnd (vid : BitVec 12) (mac : BitVec 48)
  | refreshCommit (r : Fin 8)
  | ageTick
  | agerVisit (stream : Bool) (i : BitVec 20)
  | ageDeleteCommit
  | portDownTableFlush (p : Fin 128)
  | tableRead (n : Fin 256) (d : List Word)
  | tableWrite (n : Fin 256) (d : List Word) (data : List Word)
  | tableInsert (n : Fin 256) (d : List Word) (data : List Word)
  | tableDelete (n : Fin 256) (d : List Word) (data : List Word)
  | tableSearch (n : Fin 256) (d : List Word) (data : List Word)
  | tableFlush (n : Fin 256) (d : List Word)
  | tableFlushDone
  | snapshotRead (n : Fin 256) (d : List Word)
  | tblLockSet (m : Master) (be : BitVec 4) (v : Word)
  | tblLockClr (m : Master) (be : BitVec 4) (v : Word)
  | lockExpired (b : Fin 8)
  | cueSubmit (n : Fin 256) (d : List Word) (img : List Byte)
  | cueValidated (n : Fin 256)
  | cueCommitting
  | cueCommit
  | scheduleChangeAtB (p : Fin 128)
  | cueCancel (m : Master) (be : BitVec 4) (v : Word)
  | cleanSwitchPoint
  | cswForced
  | presenceSend
  | presenceReceive (p : Fin 128) (hdr : List Word) (payload : List Byte)
  | prepareReceive (p : Fin 128) (hdr : List Word) (payload : List Byte)
  | readyReceive (p : Fin 128) (hdr : List Word) (payload : List Byte)
  | armReceive (p : Fin 128) (hdr : List Word) (payload : List Byte)
  | abortReceive (p : Fin 128) (hdr : List Word) (payload : List Byte)
  | armDeadline
  | fabricCueTimeout
  | resultReceive (p : Fin 128) (hdr : List Word) (payload : List Byte)
  | resultWindowExpiry
  | blockBoundary (rate : Bool) (blog : Fin 6) (runs : List JobRun) (bad : List (BitVec 16)) (stuck : Unit) (work : List CellWork)
  | jobMoveStart (h : BitVec 16) (home : Unit)
  | jobStateCopy (h : BitVec 16)
  | audioInPacket (r : Fin 8)
  | e131Packet (r : Fin 8)
  | e131SourceTimeout (h : BitVec 16)
  | e131Keepalive (h : BitVec 16)
  | st20227Packet (r : Fin 8)
  | createJob (n : Fin 256) (d : List Word) (rec : List Word) (img : List Byte) (home : Unit)
  | deleteJob (n : Fin 256) (d : List Word)
  | setParam (n : Fin 256) (d : List Word)
  | loadSet (n : Fin 256) (d : List Word) (gains : List Word)
  | createStream (n : Fin 256) (d : List Word) (rec : List Word)
  | deleteStream (n : Fin 256) (d : List Word)
  | readJob (n : Fin 256) (d : List Word)
  | cellEvacuate (m : Master) (be : BitVec 4) (c : Fin 128) (v : Word)
  | cellReturn (m : Master) (be : BitVec 4) (c : Fin 128) (v : Word)
  | cellReady (c : Fin 128)
  | ringEnable (m : Master) (be : BitVec 4) (n : Fin 256) (v : Word)
  | ringDisable (m : Master) (be : BitVec 4) (n : Fin 256) (v : Word)
  | ringStopped (n : Fin 256)
  | cqEnable (m : Master) (be : BitVec 4) (n : Fin 256) (v : Word)
  | cqDisable (m : Master) (be : BitVec 4) (n : Fin 256) (v : Word)
  | ringDoorbell (be : BitVec 4) (a : BitVec 20) (v : Word)
  | cqDoorbell (be : BitVec 4) (a : BitVec 20) (v : Word)
  | cqRearm (be : BitVec 4) (a : BitVec 20) (v : Word)
  | txDescriptor (n : Fin 256) (d : List Word) (data : List Byte)
  | rxFrameDelivery (descs : List (List Word))
  | completionResume (n : Fin 256)
  | cqFire (c : Fin 256)
  | linkL0Reached
  | dmaReadError (n : Fin 256) (fetch : Bool)
  | hostPortDown (d3 bme0 msix0 : Bool)
  | hostPortUp
  | functionLevelReset
  | perstAssert
  | perstDeassert
  | pendSetWrite (m : Master) (be : BitVec 4) (w : Fin 16) (v : Word)
  | pendClrWrite (m : Master) (be : BitVec 4) (w : Fin 16) (v : Word)
  | maskSetWrite (m : Master) (be : BitVec 4) (w : Fin 16) (v : Word)
  | maskClrWrite (m : Master) (be : BitVec 4) (w : Fin 16) (v : Word)
  | irqTargetWrite (m : Master) (be : BitVec 4) (n : Fin 512) (v : Word)
  | irqClaim (m : Master) (be : BitVec 4) (t : Fin 260)
  | irqEoi (m : Master) (be : BitVec 4) (t : Fin 260) (v : Word)
  | stackClear (m : Master) (be : BitVec 4) (v : Word)
  | wakeEntryWrite (m : Master) (be : BitVec 4) (i : Fin 32) (v : Word)
  | powerRequestP0 (m : Master) (be : BitVec 4) (key : Byte)
  | powerRequestP1 (m : Master) (be : BitVec 4) (key : Byte)
  | powerRequestP2 (m : Master) (be : BitVec 4) (key : Byte)
  | powerRequestP3 (m : Master) (be : BitVec 4) (key : Byte)
  | p1EntryDone
  | p0ReturnDone
  | pavilionGate (r : Fin 8)
  | pavilionUngateDone (r : Fin 8)
  | p2Commit
  | p2EntryDone
  | p2DepartureDone
  | p3LinkReady (ready : Bool)
  | p3SundialLastPps
  | p3EntryDone
  | p3Restart
  | sundialLodgeLoad
  | p3RestartDone
  | lodgeSync
  | lodgePps
  | oscinLapse
  | alarmSet (m : Master) (be : BitVec 4) (high : Bool) (v : Word)
  | lodgeAlarm
  | wakePinEdge (pin : Fin 2)
  | trunkWakeSend (m : Master) (be : BitVec 4) (v : Word)
  | trunkWakeSendDone
  | trunkWakeReceive (p : Fin 128) (w : BitVec 64)
  | feedLost (x : Fin 2) (va vb : BitVec 16 × BitVec 16)
  | feedReturn (x : Fin 2) (va vb : BitVec 16 × BitVec 16)
  | feedRevert
  | lodgeStop
  | chargeComplete (c : BitVec 16)
  | chargeTimeout (v : BitVec 16)
  | fieldShort (b : Fin 12)
  | fieldRetry (b : Fin 12)
  | nvmWindowWrite (m : Master) (be : BitVec 4) (o : BitVec 15) (v : Word)
  | nvmWriteDone (fail : Bool)
  | histogramEnable (m : Master) (be : BitVec 4) (pav : Option (Fin 8)) (u : Fin 8) (v : Word)
  | histogramDisable (m : Master) (be : BitVec 4) (pav : Option (Fin 8)) (u : Fin 8) (v : Word)
  | sensorRead (temps : List (BitVec 16))
  | supplyRead (mv : List (BitVec 16))
  | supplyFault (m : Fin 8)
  | eccUncorrectable (x : EccWhere)
  | lodgePowerOn
  | lodgeStart (va vb : BitVec 16)
  | railEnable
  | railGoodRise
  | railGoodTimeout
  | railGoodFall
  | railOffHoldEnd
  | chipResetPin (low : Bool)
  | chipReset (fails : List (Fin 5 × Fin 8 × Fin 16))
  | chipResetRelease
  | firmwareLoad (x : FlashLoad)
  | gatehouseReady
  | configImageApply
  | testenHigh (high : Bool)
  | jtagBypass
  | jtagIdcode
  | jtagSamplePreload (pins data : List Bool)
  | jtagExtest
  | jtagHighz
  | oscinReturn
  | clearOnRead (m : Master) (be : Enables) (a : BitVec 25)
  | timeBusLatencyMeasured
  | calRangingTimeout (p : Fin 128)
  | antennaFaultChange (low : Bool)
  | timeSolutionUpdate (x : Solution) (px py pz : Word)
  | ptpPortStateChange (p : Fin 128) (st : Fin 7) (mpd : BitVec 16)
  | pcieLinkChange (link : Fin 5) (width speed : BitVec 4)
  | pcieConfigRequest (x : CfgReq)
  deriving DecidableEq, Repr

end Sys2Proof
end

