-- ==== Sys2Proof/Config.lean ====
section
/-!
DEFINITION. Config.lean: what the spec leaves to the part or leaves open. Every constant here is opaque: nothing in
Lean can compute it, and a claim about it holds whatever it is.
-/
namespace Sys2Proof.Config

/-- The `n`-th free word: a value the spec does not state, drawn with the counter `State.fresh` (log entry 2). -/
opaque freeWord : Nat → Word

/-- The `n`-th free byte (log entry 2). -/
opaque freeByte : Nat → Byte

/-- Ebyotu Semiconductor's JEDEC manufacturer identity (R811): the spec names it and gives no value (log entry 2). -/
opaque jedecId : BitVec 11

/-- Ebyotu Semiconductor's PCI-SIG vendor identifier (R607): the spec names it and gives no value (log entry 2). -/
opaque vendorId : BitVec 16

/-- The PCS and PMA fixed delay of an Ethernet port at a rate code, without or with RS(544,514) FEC, received or transmitted, in 2^-40 ns (R196): the
spec gives no value (log entry 169). -/
opaque ethDelay (rate : Nat) (fec tx : Bool) : Nat

/-- What the device measures of frame `id` on Ethernet port `p` with FEC: the delay of its codeword position, alignment-marker insertion and lane
deskew, in 2^-40 ns (R196; log entry 169). -/
opaque fecShift (id p : Nat) (tx : Bool) : Nat

/-- How many sampled copies the Gatehouse's sample queue holds (R443): the spec gives no number (log entry 92). -/
opaque sampleRoom : Nat

/-- The sum of samples weighted with gains, each gain the ratio of two numbers, as a cell rounds it (R554, R575; log entry 19). -/
opaque mixed : List (Int × Nat × Word) → Word

/-- A ramp linear in decibels from `a` to `t`, both above 0 and in units of 2^-149, after `m` of `len` samples (R508; log entry 19). -/
opaque dbRamp (a t : Int) (m len : Nat) : Int

/-- A delay line read between two samples: the delay in units of 1/256 sample, the line by sample index, the index now (R578; log entry 19). -/
opaque fracTap (d : Nat) (line : List (Nat × Word)) (k : Nat) : Word

/-- The next sample out of a second-order section of a type, at a sample rate, with frequency, Q and gain in units of 2^-149, from the sample in, the last
two in and the last two out (R578, R582; log entry 19). -/
opaque section_ (ty fs : Nat) (f q g : Int) (xy : List Word) : Word

/-- The root of a mean of squares: their sum in units of 2^-298 and their number (R586; log entry 19). -/
opaque rootMean (sum n : Nat) : Word

/-- A lane's factory fixed delay at a rate code, transmitted or received, in 2^-16 ns (R274, R276): the part's own (log entry 6). -/
opaque factoryDelay (lane rate : Nat) (tx : Bool) : Word

/-- The correlation of two series of samples at a lag in samples, averaged over segments of 2^`seg` and weighted by the phase transform when `phat`, in units
of 2^-15 of the normalised one (R322, R324): the spec states no arithmetic for it (log entry 180). -/
opaque coarseCorr (phat : Bool) (seg : Nat) (x y : List Word) (lag : Int) : Int

/-- The same by the correlator bank at a lag in quarter samples, with band-limited interpolation of `y` (R323; log entry 180). -/
opaque fineCorr (seg : Nat) (x y : List Word) (quarter : Int) : Int

end Sys2Proof.Config
end

