-- ==== Sys2Proof/Machine/Operands.lean ====
section
/-!
DEFINITION. Operands.lean: the fields of registers, entries and descriptors, signed fields, and the device's
number formats (00_scope.md R5: full time, compact stamp and increment).
-/
namespace Sys2Proof.Machine

/-- Bits `hi` down to `lo` of a word, as a number. -/
def bits (v : Word) (hi lo : Nat) : Nat := (v.toNat >>> lo) % 2 ^ (hi + 1 - lo)

/-- Bit `i` of a word. -/
def bit (v : Word) (i : Nat) : Bool := (v.toNat >>> i) % 2 == 1

/-- The mask whose ones are bits `hi` down to `lo`. -/
def maskOf (hi lo : Nat) : Word := BitVec.ofNat 32 ((2 ^ (hi + 1 - lo) - 1) <<< lo)

/-- `v` with bits `hi` down to `lo` replaced by the low bits of `x`. -/
def putBits (v : Word) (hi lo x : Nat) : Word :=
  (v &&& ~~~(maskOf hi lo)) ||| (BitVec.ofNat 32 (x <<< lo) &&& maskOf hi lo)

/-- A word with one field. -/
def fieldW (hi lo x : Nat) : Word := BitVec.ofNat 32 (x <<< lo) &&& maskOf hi lo

/-- The bit set at `i` when `b` holds. -/
def bitW (i : Nat) (b : Bool) : Word := if b then BitVec.ofNat 32 (2 ^ i) else 0

/-- The two's-complement reading of an `n`-bit number. -/
def signedOf (n x : Nat) : Int :=
  if x % 2 ^ n < 2 ^ (n - 1) then (x % 2 ^ n : Nat) else (x % 2 ^ n : Nat) - (2 ^ n : Nat)

/-- The `n`-bit two's-complement coding of an integer. -/
def codeOf (n : Nat) (i : Int) : Nat := (i % (2 ^ n : Nat)).toNat

/-- Bits `hi` down to `lo` of a word, read as a signed number. -/
def sbits (v : Word) (hi lo : Nat) : Int := signedOf (hi + 1 - lo) (bits v hi lo)

/-- A word from a number, modulo 2^32. -/
abbrev w32 (n : Nat) : Word := BitVec.ofNat 32 n

/-- Low and high halves of a wider number. -/
def loHalf (n : Nat) : Word := BitVec.ofNat 32 n
/-- See `loHalf`. -/
def hiHalf (n : Nat) : Word := BitVec.ofNat 32 (n >>> 32)

/-- The number whose halves are two words. -/
def join (hi lo : Word) : Nat := hi.toNat * 2 ^ 32 + lo.toNat

/-- Clamp an integer between two bounds. -/
def clampI (lo hi x : Int) : Int := if x < lo then lo else if hi < x then hi else x

/-- Division of integers rounded to the nearest, halves away from zero. -/
def divRound (a : Int) (b : Nat) : Int :=
  if b = 0 then 0
  else if 0 ≤ a then (2 * a + b) / (2 * b : Int) else -((2 * (-a) + b) / (2 * b : Int))

/-- The least common instants of the time formats: one nanosecond in the model's time unit, 2^-40 ns (R5). -/
def tuPerNs : Nat := 2 ^ 40
/-- One second in the model's time unit. -/
def tuPerSec : Nat := 1000000000 * 2 ^ 40

/-- Bytes of a word, lowest address first (little-endian). -/
def bytesOfWord (v : Word) : List Byte :=
  [BitVec.ofNat 8 (bits v 7 0), BitVec.ofNat 8 (bits v 15 8), BitVec.ofNat 8 (bits v 23 16), BitVec.ofNat 8 (bits v 31 24)]

/-- The little-endian number in a list of bytes. -/
def natOfBytes : List Byte → Nat
  | [] => 0
  | b :: t => b.toNat + 256 * natOfBytes t

/-- The big-endian (network order) number in a list of bytes. -/
def natOfNet (bs : List Byte) : Nat := bs.foldl (fun a b => a * 256 + b.toNat) 0

/-- `n` bytes of a number, little-endian. -/
def bytesOfNat : Nat → Nat → List Byte
  | 0, _ => []
  | n + 1, x => BitVec.ofNat 8 x :: bytesOfNat n (x / 256)

/-- `n` bytes of a number, network order. -/
def netOfNat (n x : Nat) : List Byte := (bytesOfNat n x).reverse

end Sys2Proof.Machine
end

