-- ==== Sys2Proof/Machine/Flags.lean ====
section
/-!
DEFINITION. Flags.lean: how status and pending bits change (R53, R87) and how counters count (R79).
-/
namespace Sys2Proof.Machine

/-- W1C and CLR: each 1 clears its bit. -/
def clearOnes (old v : Word) : Word := old &&& ~~~v

/-- SET: each 1 sets its bit. -/
def setOnes (old v : Word) : Word := old ||| v

/-- WM: bit 16 + i of the write enables data bit i; bits 31:16 are not stored (R53, R55). -/
def mergeWM (old v : Word) : Word :=
  let m := v >>> 16
  ((old &&& ~~~m) ||| (v &&& m)) &&& 0x0000FFFF

/-- A masked write: the bits of `mask` take `v` (R507). -/
def mergeMask (old v mask : Word) : Word := (old &&& ~~~mask) ||| (v &&& mask)

/-- A counter of `w` bits saturates at its all-ones value (R79). -/
def satAdd (w old n : Nat) : Nat := if old + n < 2 ^ w then old + n else 2 ^ w - 1

/-- A 32-bit counter after `n` more events (R79). -/
def satWord (old : Word) (n : Nat) : Word := w32 (satAdd 32 old.toNat n)

end Sys2Proof.Machine
end

