-- ==== Sys2Proof/Machine/Maps.lean ====
section
/-!
DEFINITION. Maps.lean: the operations of the sparse map `AMap` in its canonical form (keys strictly rising).
Every register file, table, queue set and the NVM of the model is read and written through these.
-/
namespace Sys2Proof.Machine

/-- The content listed at key `k`. -/
def AMap.get {α : Type} : AMap α → Nat → Option α
  | [], _ => none
  | (a, v) :: t, k => if k = a then some v else if k < a then none else AMap.get t k

/-- The content listed at key `k`, or `d` where none is listed. -/
def AMap.getD {α : Type} (m : AMap α) (k : Nat) (d : α) : α := (AMap.get m k).getD d

/-- List `v` at key `k`, in place of what was listed there. -/
def AMap.set {α : Type} : AMap α → Nat → α → AMap α
  | [], k, v => [(k, v)]
  | (a, w) :: t, k, v =>
    if k = a then (k, v) :: t
    else if k < a then (k, v) :: (a, w) :: t
    else (a, w) :: AMap.set t k v

/-- Remove what is listed at key `k`. -/
def AMap.del {α : Type} : AMap α → Nat → AMap α
  | [], _ => []
  | (a, w) :: t, k => if k = a then t else if k < a then (a, w) :: t else (a, w) :: AMap.del t k

/-- Write `v` at `k` of a map in which an absent key means `d`: the default itself is never listed. -/
def AMap.put {α : Type} [DecidableEq α] (m : AMap α) (k : Nat) (v d : α) : AMap α :=
  if v = d then AMap.del m k else AMap.set m k v

/-- Is a key listed? -/
def AMap.has {α : Type} (m : AMap α) (k : Nat) : Bool := (AMap.get m k).isSome

/-- Keep the listed pairs that satisfy `p`. -/
def AMap.keep {α : Type} (m : AMap α) (p : Nat → α → Bool) : AMap α := m.filter fun e => p e.1 e.2

/-- Change every listed content. -/
def AMap.mapVals {α : Type} (m : AMap α) (f : Nat → α → α) : AMap α := m.map fun e => (e.1, f e.1 e.2)

/-- The listed keys, rising. -/
def AMap.keys {α : Type} (m : AMap α) : List Nat := m.map (·.1)

/-- The canonical form: keys strictly rising. -/
def AMap.wf {α : Type} : AMap α → Bool
  | [] => true
  | [_] => true
  | (a, _) :: (b, w) :: t => decide (a < b) && AMap.wf ((b, w) :: t)

/-- The lowest number from `lo` that the map does not list, among the next `n`. -/
def AMap.firstFree {α : Type} (m : AMap α) (lo : Nat) : Nat → Option Nat
  | 0 => none
  | n + 1 => if AMap.has m lo then AMap.firstFree m (lo + 1) n else some lo

end Sys2Proof.Machine
end

