-- ==== Sys2Proof/Machine/RegModel.lean ====
section
/-!
DEFINITION. RegModel.lean: the register model of 02_register_model.md. The blocks and where they lie (R39 to R41,
R74), the access classes (R53), and the row of a register map: what a block's chapter says of one register.
-/
namespace Sys2Proof.Machine

/-- The block types of R49 (BLK_ID.TYPE). -/
inductive BlkTy where
  | chp | clk | sun | tdc | gns | cue | plc | hif | irq | pwr | nvm | tbl | xbr | org | mon
  | pav | lan | mac | trk | que | lrn | bst | pmon
  deriving DecidableEq, Repr

/-- BLK_ID.TYPE of R49. -/
def BlkTy.code : BlkTy → Nat
  | .chp => 0x01 | .clk => 0x02 | .sun => 0x03 | .tdc => 0x04 | .gns => 0x05 | .cue => 0x06 | .plc => 0x07
  | .hif => 0x08 | .irq => 0x09 | .pwr => 0x0A | .nvm => 0x0B | .tbl => 0x0C | .xbr => 0x0D | .org => 0x0E
  | .mon => 0x0F | .pav => 0x10 | .lan => 0x11 | .mac => 0x12 | .trk => 0x13 | .que => 0x14 | .lrn => 0x15
  | .bst => 0x16 | .pmon => 0x17

/-- One block: its type and, for a block of a Pavilion, the Pavilion `r` and the slot `k` (R40, R41). -/
structure Block where
  ty : BlkTy
  r : Nat := 0
  k : Nat := 0
  deriving DecidableEq, Repr

/-- Is it a block of a Pavilion? -/
def BlkTy.inPav : BlkTy → Bool
  | .pav | .lan | .mac | .trk | .que | .lrn | .bst | .pmon => true
  | _ => false

/-- Is it one slot of a slotted sub-block (R41)? -/
def BlkTy.slotted : BlkTy → Bool
  | .lan | .mac | .bst => true
  | _ => false

/-- Where Pavilion `r` starts in BAR0 (R40). -/
def pavBase (r : Nat) : Nat := 0x01000000 + r * 0x00200000

/-- Where a block starts in BAR0 (R39, R40, R41). -/
def Block.base (b : Block) : Nat :=
  match b.ty with
  | .chp => 0x000000 | .clk => 0x010000 | .sun => 0x020000 | .tdc => 0x030000 | .gns => 0x040000
  | .cue => 0x050000 | .plc => 0x060000 | .hif => 0x070000 | .irq => 0x080000 | .pwr => 0x090000
  | .mon => 0x0A0000 | .nvm => 0x0B0000 | .tbl => 0x0C0000 | .xbr => 0x0D0000 | .org => 0x0E0000
  | .pav => pavBase b.r
  | .lan => pavBase b.r + 0x10000 + b.k * 0x1000
  | .mac => pavBase b.r + 0x20000 + b.k * 0x1000
  | .trk => pavBase b.r + 0x30000
  | .que => pavBase b.r + 0x40000
  | .lrn => pavBase b.r + 0x50000
  | .bst => pavBase b.r + 0x60000 + b.k * 0x1000
  | .pmon => pavBase b.r + 0x70000

/-- BLK_DECODE of each block type, as each chapter's register map gives it (R74 to R77).
XBR, ORG and PAV have no register map in the spec: their mask is the one of a block that repeats every 4 KiB (PRESUMED, log entry 4). -/
def BlkTy.decodeMask : BlkTy → Nat
  | .chp | .clk | .tbl | .cue | .plc | .pwr | .lan | .mac | .trk | .bst | .xbr | .org | .pav => 0x0FFC
  | .sun | .lrn => 0x1FFC
  | .tdc | .gns | .irq | .mon | .pmon => 0x3FFC
  | .que | .hif | .nvm => 0xFFFC

/-- The block an address of BAR0 falls in and the offset within its window; none for a reserved range (R39, R40, R44). -/
def locate (a : Nat) : Option (Block × Nat) :=
  if a < 0x01000000 then
    let o := a % 0x10000
    match a / 0x10000 with
    | 0x0 => some (⟨.chp, 0, 0⟩, o) | 0x1 => some (⟨.clk, 0, 0⟩, o) | 0x2 => some (⟨.sun, 0, 0⟩, o)
    | 0x3 => some (⟨.tdc, 0, 0⟩, o) | 0x4 => some (⟨.gns, 0, 0⟩, o) | 0x5 => some (⟨.cue, 0, 0⟩, o)
    | 0x6 => some (⟨.plc, 0, 0⟩, o) | 0x7 => some (⟨.hif, 0, 0⟩, o) | 0x8 => some (⟨.irq, 0, 0⟩, o)
    | 0x9 => some (⟨.pwr, 0, 0⟩, o) | 0xA => some (⟨.mon, 0, 0⟩, o) | 0xB => some (⟨.nvm, 0, 0⟩, o)
    | 0xC => some (⟨.tbl, 0, 0⟩, o) | 0xD => some (⟨.xbr, 0, 0⟩, o) | 0xE => some (⟨.org, 0, 0⟩, o)
    | _ => none
  else if a < 0x02000000 then
    let r := (a - 0x01000000) / 0x00200000
    let p := (a - 0x01000000) % 0x00200000
    let o := p % 0x10000
    match p / 0x10000 with
    | 0 => some (⟨.pav, r, 0⟩, o)
    | 1 => some (⟨.lan, r, o / 0x1000⟩, o % 0x1000)
    | 2 => some (⟨.mac, r, o / 0x1000⟩, o % 0x1000)
    | 3 => some (⟨.trk, r, 0⟩, o)
    | 4 => some (⟨.que, r, 0⟩, o)
    | 5 => some (⟨.lrn, r, 0⟩, o)
    | 6 => some (⟨.bst, r, o / 0x1000⟩, o % 0x1000)
    | 7 => some (⟨.pmon, r, 0⟩, o)
    | _ => none
  else none

/-- The offset an access at offset `o` of a block's window reaches (R74: A AND BLK_DECODE). The low two bits are never decoded. -/
def decodeOff (b : Block) (o : Nat) : Nat := o &&& b.ty.decodeMask

/-- A block and a decoded offset: the register an address reaches (R74, R75). -/
def resolve (a : Nat) : Option (Block × Nat) := (locate a).map fun p => (p.1, decodeOff p.1 p.2)

/-- How a field constrains the values it takes: any, a numeric range (E_RANGE outside, unsigned or signed), an
encoding defined up to a value or at listed values (E_ILLEGAL otherwise), a port number (R12). -/
inductive FKind where
  | any
  | rng (mn mx : Nat)
  | srng (mn mx : Int)
  | enc (mx : Nat)
  | among (vs : List Nat)
  | port
  deriving DecidableEq, Repr

/-- How a field takes a write: stored, kept (RO), each 1 clears (W1C), never stored because it commands and reads 0. -/
inductive FAcc where
  | st | ro | w1c | cmd
  deriving DecidableEq, Repr

/-- One field of a register. Bits in no field are reserved (R54). -/
structure Fld where
  hi : Nat
  lo : Nat
  kind : FKind := .any
  acc : FAcc := .st
  deriving DecidableEq, Repr

/-- The access classes of R53; the classes WM, SET and CLR have their own store rule.
`dw` is a DW register and `comp` its complement address; `rcHi` is the high half of a pair whose low half latches it (R86). -/
inductive Cls where
  | rw | ro | w1c | rc | rcHi | wm | dw | comp | snap | set | clr
  deriving DecidableEq, Repr

/-- How a live counter is kept: none, 32 bits or 64 bits (its low half), with the distance to its holding register (R80, R86). -/
inductive Ctr where
  | none
  | c32 (d : Nat)
  | c64 (d : Nat)
  deriving DecidableEq, Repr

/-- What a write of the register does beyond storing, or what its own chapter checks beyond R89: the name of the
register, for the families' own rules. `Eff.none` is a register that is only stored. -/
inductive Eff where
  | none
  | blkCtrl | blkErr | blkLock | blkSnap | blkId | blkDecode
  | chpMode | chpModeKey | chpNodeId
  | irqStatus | irqStackClr | irqPerr | irqPend | irqMask | irqWake | irqTgt | irqClaimV | irqEoiV | irqClaimC | irqEoiC
  | pwrCtrl | pwrFeedCfg | pwrFeedLim | pwrAlarmLo | pwrAlarmHi | pwrTrkWake | pwrLodgeNs
  | nvmWin
  | hifHqAdm | hifRingCfg | hifRingBase | hifCqCfg | hifCqBase | hifCqTime | hifVecCtrl
  | clkEvent | clkMonCfg | clkOutEn | clkRefCfg | clkRefNom | clkRefLimit | clkDpllCfg | clkDpllState | clkOutCfg | clkOutDiv
  | clkOutDelay | clkApllCfg | clkBypCfg
  | sunStatus | sunDomCtrl | sunUtc | sunCapCmd | sunSetCmd | sunInc | sunResid | sunBypInc | sunTrkRoot | sunPpsCfg | sunPpsAdj
  | sunLtcCfg | sunLtcAdj | sunWcCfg | sunWcAdj | sunCmpCfg | sunCmpTgt | sunPtCfg | sunPtAsym
  | monHistCfg | monHistPar | monPcCfg
  | lanEyeCfg | lanEyeCmd | macCfg
  | clkOscTrim | tdcCalCtrl | tdcCalCmd | tdcChCfg | tdcChStatus | tdcResLo | tdcDiffCfg | tdcAsymCfg
  | gnsCtrl | gnsFeCfg | gnsFeLo | gnsFePhase | gnsNtCfg | gnsPpsCfg | gnsTacc | gnsAcqReq | gnsAcqCmd | gnsSnapCmd | gnsGrt | gnsGrtCmd
  | gnsChCfg | gnsChCode | gnsChCarr | gnsChSlew
  | queSched | queMap | quePool | queRsv | queAdm | queStat | tblStatus | tblLock | tblUsed | tblSeed | lrnStatus
  | cueStatus | cueCancel | cueAnswer | cueMembers | plcStatus | plcCfg | plcOrgCfg | plcTier | plcOrgBw | plcJqPlace | plcJqStat
  | plcPavLoad | bstStatus | bstPhys
  | tdcCalStatus | tdcLane
  deriving DecidableEq, Repr

/-- The owning scheduler of a class-S register (R70, R71): none, or the scheduler of the port slot given by the register's first index. -/
inductive Own where
  | none
  | portSched
  deriving DecidableEq, Repr

/-- One row of a register map: `n1` registers `s1` apart, each of `n2` registers `s2` apart, the first at `off`. -/
structure Row where
  off : Nat
  cls : Cls
  rst : Nat := 0
  flds : List Fld := [⟨31, 0, .any, .st⟩]
  n1 : Nat := 1
  s1 : Nat := 0x10000
  n2 : Nat := 1
  s2 : Nat := 0x10000
  /-- bits of LK fields (R57) -/
  lk : Nat := 0
  /-- marked "cue" (R73) -/
  cue : Bool := false
  eff : Eff := .none
  own : Own := .none
  /-- chip modes that permit the write: bit `m` for CHP_MODE.MODE `m` (R62 and the chapters) -/
  modes : Nat := 0xF
  ctr : Ctr := .none
  deriving DecidableEq, Repr

/-- The indices at which a row places a register at offset `o`. -/
def Row.hit (w : Row) (o : Nat) : Option (Nat × Nat) :=
  if o < w.off then none
  else
    let d := o - w.off
    let i := d / w.s1
    let j := d % w.s1 / w.s2
    if i < w.n1 ∧ j < w.n2 ∧ d % w.s1 % w.s2 = 0 then some (i, j) else none

/-- A register found in a map: its row and its indices. -/
structure Found where
  row : Row
  i : Nat
  j : Nat
  deriving DecidableEq, Repr

/-- The register at a decoded offset of a register map. -/
def findRow : List Row → Nat → Option Found
  | [], _ => none
  | w :: t, o =>
    match w.hit o with
    | some (i, j) => some ⟨w, i, j⟩
    | none => findRow t o

/-- A field stored as written. -/
abbrev wF (hi lo : Nat) : Fld := ⟨hi, lo, .any, .st⟩
/-- A field whose value must lie in a range (E_RANGE). -/
abbrev rngF (hi lo mn mx : Nat) : Fld := ⟨hi, lo, .rng mn mx, .st⟩
/-- A signed field whose value must lie in a range (E_RANGE). -/
abbrev srngF (hi lo : Nat) (mn mx : Int) : Fld := ⟨hi, lo, .srng mn mx, .st⟩
/-- A field whose encodings above `mx` are undefined (E_ILLEGAL). -/
abbrev encF (hi lo mx : Nat) : Fld := ⟨hi, lo, .enc mx, .st⟩
/-- A field with listed encodings (E_ILLEGAL otherwise). -/
abbrev amongF (hi lo : Nat) (vs : List Nat) : Fld := ⟨hi, lo, .among vs, .st⟩
/-- A field that a write leaves alone (RO). -/
abbrev roF (hi lo : Nat) : Fld := ⟨hi, lo, .any, .ro⟩
/-- A field each of whose bits a 1 clears. -/
abbrev w1cF (hi lo : Nat) : Fld := ⟨hi, lo, .any, .w1c⟩
/-- A field that commands and reads 0. -/
abbrev cmdF (hi lo : Nat) : Fld := ⟨hi, lo, .any, .cmd⟩

/-- The bits a field takes. -/
def Fld.mask (x : Fld) : Nat := (2 ^ (x.hi + 1 - x.lo) - 1) <<< x.lo

/-- The bits some field takes: a 1 elsewhere in a write is a 1 in a reserved bit (R54). -/
def fieldMask (fs : List Fld) : Nat := fs.foldl (fun a x => a ||| x.mask) 0

/-- Port numbers 137 to 254 are illegal in every register write (R12). -/
def reservedPort (p : Nat) : Bool := decide (137 ≤ p) && decide (p ≤ 254)

/-- Does the field's value fail its encoding (check 6 of R89)? -/
def Fld.illegal (x : Fld) (v : Word) : Bool :=
  match x.kind with
  | .enc mx => decide (mx < bits v x.hi x.lo)
  | .among vs => !(vs.contains (bits v x.hi x.lo))
  | .port => reservedPort (bits v x.hi x.lo)
  | _ => false

/-- Does the field's value fail its range (check 7 of R89)? -/
def Fld.outOfRange (x : Fld) (v : Word) : Bool :=
  match x.kind with
  | .rng mn mx => decide (bits v x.hi x.lo < mn) || decide (mx < bits v x.hi x.lo)
  | .srng mn mx => decide (sbits v x.hi x.lo < mn) || decide (mx < sbits v x.hi x.lo)
  | _ => false

/-- A word with a reserved bit set, or with a field outside its encoding (check 6 of R89). -/
def illegalValue (fs : List Fld) (v : Word) : Bool :=
  decide (v.toNat &&& (0xFFFFFFFF ^^^ fieldMask fs) ≠ 0) || fs.any (fun x => x.illegal v)

/-- A word with a field outside its range (check 7 of R89). -/
def rangeValue (fs : List Fld) (v : Word) : Bool := fs.any (fun x => x.outOfRange v)

/-- What a register holds after value `v` is written to it when it holds `old`, field by field. -/
def storeFields (fs : List Fld) (old v : Word) : Word :=
  fs.foldl (fun a x =>
    let m := w32 x.mask
    match x.acc with
    | .st => a ||| (v &&& m)
    | .ro => a ||| (old &&& m)
    | .w1c => a ||| (old &&& ~~~v &&& m)
    | .cmd => a) 0

/-- A live counter and its holding register `d` above it. -/
def ctrRows (off n1 s1 d : Nat) (n2 : Nat := 1) (s2 : Nat := 0x10000) : List Row :=
  [{ off := off, cls := .rc, n1 := n1, s1 := s1, n2 := n2, s2 := s2, ctr := .c32 d },
   { off := off + d, cls := .snap, n1 := n1, s1 := s1, n2 := n2, s2 := s2 }]

/-- A live 64-bit counter (R86) and its holding registers `d` above it. -/
def ctrRows64 (off n1 s1 d : Nat) (n2 : Nat := 1) (s2 : Nat := 0x10000) : List Row :=
  [{ off := off, cls := .rc, n1 := n1, s1 := s1, n2 := n2, s2 := s2, ctr := .c64 d },
   { off := off + 4, cls := .rcHi, n1 := n1, s1 := s1, n2 := n2, s2 := s2 },
   { off := off + d, cls := .snap, n1 := n1, s1 := s1, n2 := n2, s2 := s2 },
   { off := off + 4 + d, cls := .snap, n1 := n1, s1 := s1, n2 := n2, s2 := s2 }]

/-- A read-only register. -/
def roRow (off rst : Nat) (n1 : Nat := 1) (s1 : Nat := 0x10000) (n2 : Nat := 1) (s2 : Nat := 0x10000) : Row :=
  { off := off, cls := .ro, rst := rst, n1 := n1, s1 := s1, n2 := n2, s2 := s2 }

end Sys2Proof.Machine
end

