-- ==== Sys2Proof/Machine/RegMapSys.lean ====
section
/-!
DEFINITION. RegMapSys.lean: the register maps of CHP (02_register_model.md R67), HIF (12_host_rings.md R666), IRQ
(13_interrupts_and_wake.md R696), PWR and NVM (14_power_and_feeds.md R748, R750), and the common block header (R49).
-/
namespace Sys2Proof.Machine

/-- Where the chip-level blocks of R39 start. -/
def chpB : Nat := 0x000000
def clkB : Nat := 0x010000
def sunB : Nat := 0x020000
def tdcB : Nat := 0x030000
def gnsB : Nat := 0x040000
def cueB : Nat := 0x050000
def plcB : Nat := 0x060000
def hifB : Nat := 0x070000
def irqB : Nat := 0x080000
def pwrB : Nat := 0x090000
def monB : Nat := 0x0A0000
def nvmB : Nat := 0x0B0000
def tblB : Nat := 0x0C0000

/-- A DW register and its complement address (R58). -/
def dwRows (off rst : Nat) (flds : List Fld) (lk : Nat) (eff : Eff := .none) (n1 : Nat := 1) (s1 : Nat := 0x10000) : List Row :=
  [{ off := off, cls := .dw, rst := rst, flds := flds, lk := lk, eff := eff, n1 := n1, s1 := s1, modes := 0xD },
   { off := off + 0x800, cls := .comp, n1 := n1, s1 := s1 }]

/-- The common block header (R49). EN resets to 1 in every block; a write that clears it is E_ILLEGAL but in GNS (R336)
and BST (R606), and in XBR, ORG and PAV, which have no chapter of their own, it is the same (PRESUMED, log entry 4). -/
def headerRows (ty : BlkTy) : List Row :=
  [{ off := 0x000, cls := .ro, eff := .blkId },
   { off := 0x004, cls := .rw, rst := 1, eff := .blkCtrl,
     flds := [roF 3 3, wF 2 2, if ty = .gns ∨ ty = .bst then wF 0 0 else amongF 0 0 [1]] },
   { off := 0x008, cls := .rc, eff := .blkErr },
   { off := 0x00C, cls := .rw, flds := [wF 0 0], eff := .blkLock },
   { off := 0x010, cls := .rw, flds := [roF 31 16, wF 15 8, encF 1 0 2], eff := .blkSnap },
   { off := 0x014, cls := .ro, eff := .blkDecode }]

/-- CHP (R67). -/
def chpRows : List Row :=
  [{ off := 0x040, cls := .rw, flds := [encF 3 0 3], eff := .chpMode },
   { off := 0x044, cls := .rw, flds := [cmdF 31 0], eff := .chpModeKey },
   { off := 0x048, cls := .rc },
   { off := 0x04C, cls := .rc }] ++
  dwRows 0x050 0 [roF 31 31, wF 11 0] 0xFFFFFFFF .chpNodeId

/-- IRQ (R696). -/
def irqRows : List Row :=
  [{ off := 0x040, cls := .ro, eff := .irqStatus },
   { off := 0x044, cls := .rw, rst := 1, flds := [wF 0 0] },
   { off := 0x048, cls := .rc },
   { off := 0x04C, cls := .rc },
   { off := 0x070, cls := .rw, flds := [cmdF 31 31, cmdF 8 0], eff := .irqStackClr },
   roRow 0x074 0,
   { off := 0x0C0, cls := .ro, n1 := 8, s1 := 8, n2 := 2, s2 := 4, eff := .irqPerr },
   { off := 0x100, cls := .set, n1 := 16, s1 := 8, eff := .irqPend },
   { off := 0x104, cls := .clr, n1 := 16, s1 := 8, eff := .irqPend },
   { off := 0x180, cls := .set, rst := 0xFFFFFFFF, n1 := 16, s1 := 8, eff := .irqMask },
   { off := 0x184, cls := .clr, n1 := 16, s1 := 8, eff := .irqMask },
   roRow 0x200 0 16 4,
   { off := 0x280, cls := .rw, n1 := 32, s1 := 4, flds := [wF 31 30, wF 8 0], eff := .irqWake },
   roRow 0x300 0,
   { off := 0x1000, cls := .rw, n1 := 512, s1 := 4, lk := 0xFFFFFFFF,
     flds := [wF 19 16, encF 13 12 2, wF 9 8, wF 7 0], eff := .irqTgt },
   { off := 0x3000, cls := .rc, n1 := 256, s1 := 8, eff := .irqClaimV },
   { off := 0x3004, cls := .rw, n1 := 256, s1 := 8, flds := [cmdF 8 0], eff := .irqEoiV },
   { off := 0x3800, cls := .rc, n1 := 4, s1 := 8, eff := .irqClaimC },
   { off := 0x3804, cls := .rw, n1 := 4, s1 := 8, flds := [cmdF 8 0], eff := .irqEoiC }] ++
  ctrRows 0x060 1 4 0x200

/-- PWR (R748). -/
def pwrRows : List Row :=
  [roRow 0x040 0,
   { off := 0x044, cls := .w1c, flds := [wF 8 0] },
   { off := 0x048, cls := .rw, flds := [cmdF 15 8, wF 1 0], eff := .pwrCtrl },
   roRow 0x04C 0,
   { off := 0x050, cls := .rw, rst := 0x03E86400, flds := [rngF 31 16 1 65535, rngF 15 8 10 255, wF 0 0] },
   { off := 0x058, cls := .rw, rst := 0x80000014, flds := [wF 31 31, wF 8 8, rngF 7 0 1 255], lk := 0xFFFFFFFF, eff := .pwrFeedCfg },
   { off := 0x05C, cls := .rw, rst := 0x05280438, lk := 0xFFFFFFFF, eff := .pwrFeedLim },
   roRow 0x060 0, roRow 0x064 0, roRow 0x068 0, roRow 0x06C 0, roRow 0x070 0, roRow 0x074 0x2800,
   { off := 0x080, cls := .ro, eff := .pwrLodgeNs },
   { off := 0x084, cls := .rcHi }, { off := 0x088, cls := .rcHi },
   { off := 0x090, cls := .rw, eff := .pwrAlarmLo },
   { off := 0x094, cls := .rw, flds := [wF 31 31, wF 15 0], eff := .pwrAlarmHi },
   { off := 0x098, cls := .rw, flds := [cmdF 31 31, cmdF 16 16, cmdF 15 8, ⟨7, 0, .port, .cmd⟩], eff := .pwrTrkWake },
   roRow 0x09C 0, roRow 0x0A0 0] ++
  dwRows 0x054 2 [wF 1 0] 0xFFFFFFFF ++
  ctrRows 0x100 4 4 0x200

/-- NVM (R750). -/
def nvmRows : List Row :=
  [roRow 0x040 3, roRow 0x044 0,
   { off := 0x048, cls := .rw, flds := [wF 6 0] },
   { off := 0x8000, cls := .rw, n1 := 8192, s1 := 4, lk := 0xFFFFFFFF, eff := .nvmWin }]

/-- HIF (R666); the MSI-X table and PBA follow PCIe (R668), every vector masked at reset. -/
def hifRows : List Row :=
  [roRow 0x040 0x00040000,
   { off := 0x044, cls := .w1c, flds := [wF 5 0] },
   { off := 0x048, cls := .rc }, { off := 0x04C, cls := .rc },
   { off := 0x050, cls := .rw, flds := [wF 8 8, wF 7 0] },
   { off := 0x054, cls := .rw, rst := 1, flds := [wF 0 0] },
   roRow 0x058 0x1E00, roRow 0x05C 0x200,
   { off := 0x060, cls := .rc },
   roRow 0x080 0 8 4, roRow 0x0A0 0 8 4,
   { off := 0x100, cls := .rw, flds := [wF 7 0], n1 := 8, s1 := 0x10 },
   { off := 0x104, cls := .rw, rst := 0x00040040, flds := [roF 31 20, encF 19 16 9, wF 15 0], n1 := 8, s1 := 0x10, eff := .hifHqAdm },
   roRow 0x108 0 8 0x10,
   { off := 0x2000, cls := .rw, rst := 0x60, n1 := 256, s1 := 0x20, eff := .hifRingCfg,
     flds := [wF 31 24, wF 23 16, rngF 15 9 0 64, rngF 8 4 6 16, encF 3 1 6, wF 0 0] },
   { off := 0x2004, cls := .rw, n1 := 256, s1 := 0x20, flds := [wF 31 12], eff := .hifRingBase },
   { off := 0x2008, cls := .rw, n1 := 256, s1 := 0x20, eff := .hifRingBase },
   roRow 0x200C 0 256 0x20,
   { off := 0x6000, cls := .rw, n1 := 256, s1 := 0x20, flds := [wF 15 8, rngF 4 1 0 10, wF 0 0], eff := .hifCqCfg },
   { off := 0x6004, cls := .rw, n1 := 256, s1 := 0x20, flds := [wF 31 12], eff := .hifCqBase },
   { off := 0x6008, cls := .rw, n1 := 256, s1 := 0x20, eff := .hifCqBase },
   roRow 0x600C 0 256 0x20,
   { off := 0x6010, cls := .rw, rst := 1, n1 := 256, s1 := 0x20, flds := [rngF 15 0 1 65535] },
   { off := 0x6014, cls := .rw, rst := 0x00640000, n1 := 256, s1 := 0x20, flds := [rngF 31 16 1 65535, wF 15 0], eff := .hifCqTime },
   { off := 0x8000, cls := .rw, n1 := 256, s1 := 0x10, flds := [wF 31 2, roF 1 0] },
   { off := 0x8004, cls := .rw, n1 := 256, s1 := 0x10 },
   { off := 0x8008, cls := .rw, n1 := 256, s1 := 0x10 },
   { off := 0x800C, cls := .rw, rst := 1, n1 := 256, s1 := 0x10, flds := [roF 31 1, wF 0 0], eff := .hifVecCtrl },
   roRow 0x9000 0 8 4] ++
  ctrRows 0x180 8 0x10 0x200 4 4 ++
  ctrRows 0x2010 256 0x20 0x2000 4 4

end Sys2Proof.Machine
end

