-- ==== Sys2Proof/Machine/RegMapCue.lean ====
section
/-!
DEFINITION. RegMapCue.lean: the register maps of the CUE block (10_cue_transactions.md R551, R552), of the PLC block and of a BST slot
(11_bandstand_and_placement.md R602 to R606).
-/
namespace Sys2Proof.Machine

/-- CUE. -/
def cueRows : List Row :=
  [{ off := 0x040, cls := .ro, eff := .cueStatus },
   { off := 0x044, cls := .w1c, flds := [wF 7 0] },
   roRow 0x048 0x1101,
   { off := 0x050, cls := .rw, rst := 0x00640000, flds := [rngF 31 16 1 65535] },
   { off := 0x054, cls := .rw, flds := [cmdF 8 8, cmdF 5 0], eff := .cueCancel },
   { off := 0x058, cls := .rw, flds := [wF 11 0] },
   { off := 0x05C, cls := .ro, eff := .cueAnswer },
   roRow 0x060 0, roRow 0x064 0, roRow 0x068 0,
   { off := 0x06C, cls := .ro, rst := 1, eff := .cueMembers },
   roRow 0x400 0 64 0x10, roRow 0x404 0 64 0x10, roRow 0x408 0 64 0x10, roRow 0x40C 0 64 0x10] ++
  ctrRows 0x100 8 4 0x200

/-- PLC. -/
def plcRows : List Row :=
  [{ off := 0x040, cls := .ro, rst := 0x80, eff := .plcStatus },
   { off := 0x044, cls := .w1c, flds := [wF 7 0] },
   { off := 0x050, cls := .rw, rst := 0x5E000003, flds := [rngF 31 24 50 100, wF 1 1, wF 0 0], eff := .plcCfg },
   { off := 0x054, cls := .rw, rst := 0x02580000, flds := [rngF 31 16 1 1000], eff := .plcOrgCfg },
   { off := 0x058, cls := .rw, rst := 0x20000400, eff := .plcTier },
   { off := 0x05C, cls := .ro, eff := .plcOrgBw },
   { off := 0x060, cls := .rw, flds := [wF 15 0] },
   { off := 0x064, cls := .ro, eff := .plcJqPlace },
   { off := 0x068, cls := .ro, eff := .plcJqStat },
   { off := 0x070, cls := .rw, flds := [wF 7 0] },
   { off := 0x080, cls := .ro, rst := 0x00100000, n1 := 8, s1 := 4, eff := .plcPavLoad }] ++
  ctrRows 0x100 7 4 0x200

/-- A BST slot. BST_PHYS resets to the slot's own number. -/
def bstRows : List Row :=
  [{ off := 0x040, cls := .ro, eff := .bstStatus },
   { off := 0x044, cls := .w1c, flds := [wF 3 0] },
   { off := 0x048, cls := .ro, eff := .bstPhys }] ++
  ctrRows64 0x100 5 8 0x200 ++ ctrRows 0x128 3 4 0x200

end Sys2Proof.Machine
end

