-- ==== Sys2Proof/Machine/RegMapGns.lean ====
section
/-!
DEFINITION. RegMapGns.lean: the register map of GNS (06_belvedere_gnss.md R337, R338).
-/
namespace Sys2Proof.Machine

/-- GNS (R337). -/
def gnsRows : List Row :=
  [roRow 0x040 0,
   { off := 0x044, cls := .w1c, flds := [wF 7 0] },
   { off := 0x048, cls := .rw, rst := 0x00300200, flds := [wF 31 24, wF 23 23, rngF 22 16 0 64, wF 9 9], eff := .gnsCtrl },
   { off := 0x080, cls := .rw, rst := 0x00060023, n1 := 2, s1 := 0x20, eff := .gnsFeCfg,
     flds := [rngF 23 16 1 40, wF 10 10, wF 9 9, wF 8 8, amongF 7 4 [2, 3, 4, 5, 6, 7, 8], wF 1 0] },
   { off := 0x084, cls := .rw, rst := 0x00182B80, flds := [rngF 31 0 1100000 1650000], eff := .gnsFeLo },
   { off := 0x0A4, cls := .rw, rst := 0x0011F382, flds := [rngF 31 0 1100000 1650000], eff := .gnsFeLo },
   roRow 0x088 0 2 0x20,
   { off := 0x08C, cls := .ro, n1 := 2, s1 := 0x20, eff := .gnsFePhase },
   { off := 0x100, cls := .rw, rst := 0x0C10, n1 := 2, s1 := 0x40, n2 := 4, s2 := 0x10, eff := .gnsNtCfg,
     flds := [rngF 15 8 6 40, encF 5 4 2, encF 1 0 2] },
   { off := 0x104, cls := .rw, n1 := 2, s1 := 0x40, n2 := 4, s2 := 0x10, eff := .gnsNtCfg },
   roRow 0x108 0 2 0x40 4 0x10, roRow 0x10C 0 2 0x40 4 0x10,
   { off := 0x200, cls := .rw, rst := 0x0E104015, eff := .gnsPpsCfg,
     flds := [rngF 31 16 10 65535, rngF 15 12 0 12, encF 9 8 2, rngF 7 1 0 60, wF 0 0] },
   { off := 0x204, cls := .rw, lk := 0xFFFFFFFF },
   { off := 0x208, cls := .rw, rst := 0x64, eff := .gnsTacc, flds := [rngF 31 0 1 65535] },
   roRow 0x20C 0,
   { off := 0x210, cls := .rw, n1 := 3, s1 := 4 },
   roRow 0x220 0 8 4,
   { off := 0x300, cls := .rw, rst := 0x4410, eff := .gnsAcqReq,
     flds := [encF 31 29 4, wF 23 18, rngF 17 14 1 10, wF 13 10, wF 9 4, encF 3 1 5] },
   { off := 0x304, cls := .rw, rst := 0x13880000, flds := [rngF 31 16 0 50000, wF 15 0] },
   { off := 0x308, cls := .rw, flds := [cmdF 0 0], eff := .gnsAcqCmd },
   roRow 0x30C 0, roRow 0x310 0, roRow 0x314 0, roRow 0x318 0, { off := 0x31C, cls := .rcHi },
   { off := 0x320, cls := .rw, rst := 0x8C },
   { off := 0x400, cls := .rw, rst := 0x00140003, flds := [rngF 23 16 2 200, encF 9 8 2, amongF 1 0 [1, 2, 3]] },
   { off := 0x404, cls := .rw },
   { off := 0x408, cls := .rw, flds := [cmdF 5 4, cmdF 1 1, cmdF 0 0], eff := .gnsSnapCmd },
   roRow 0x40C 0, roRow 0x410 0 4 4,
   { off := 0x1000, cls := .rw, rst := 0xFF48, n1 := 8, s1 := 0x40, eff := .gnsGrt,
     flds := [wF 31 24, wF 23 23, roF 22 22, wF 21 12, rngF 11 8 12 16, rngF 7 4 1 15, wF 3 3, wF 2 2, encF 1 0 2] },
   { off := 0x1004, cls := .rw, n1 := 8, s1 := 0x40, eff := .gnsGrt },
   { off := 0x1008, cls := .rw, rst := 0x1FFF0000, n1 := 8, s1 := 0x40, eff := .gnsGrt },
   { off := 0x100C, cls := .rw, n1 := 8, s1 := 0x40, eff := .gnsGrt },
   { off := 0x1010, cls := .rw, n1 := 8, s1 := 0x40, flds := [cmdF 1 1, cmdF 0 0], eff := .gnsGrtCmd },
   roRow 0x1014 0 8 0x40, roRow 0x1018 0 8 0x40, roRow 0x101C 0 8 0x40,
   roRow 0x1020 0 8 0x40, { off := 0x1024, cls := .rcHi, n1 := 8, s1 := 0x40 },
   roRow 0x1028 0 8 0x40, { off := 0x102C, cls := .rcHi, n1 := 8, s1 := 0x40 },
   { off := 0x2000, cls := .rw, rst := 0x10, n1 := 64, s1 := 0x80, eff := .gnsChCfg,
     flds := [wF 31 24, wF 23 23, wF 22 22, wF 21 21, encF 18 16 4, encF 15 14 2, wF 13 10, wF 9 4, encF 3 1 5, wF 0 0] },
   { off := 0x2004, cls := .rw, rst := 0x0F9C1800, n1 := 64, s1 := 0x80, eff := .gnsChCode },
   { off := 0x2008, cls := .rw, n1 := 64, s1 := 0x80, eff := .gnsChCarr },
   { off := 0x200C, cls := .rw, n1 := 64, s1 := 0x80, flds := [wF 15 0], eff := .gnsChCarr },
   { off := 0x2010, cls := .rw, n1 := 64, s1 := 0x80, eff := .gnsChSlew },
   roRow 0x2014 0 64 0x80, roRow 0x2018 0 64 0x80 2 4, roRow 0x2020 0 64 0x80 2 4,
   roRow 0x2028 0 64 0x80 14 4, roRow 0x2060 0 64 0x80] ++
  ctrRows 0x090 2 0x20 4 ++ ctrRows 0x2064 64 0x80 4

end Sys2Proof.Machine
end

