-- ==== Sys2Proof/Machine/RegMapMon.lean ====
section
/-!
DEFINITION. RegMapMon.lean: the register maps of the chip MON block and of a Pavilion MON block
(15_monitoring_and_containment.md R784, R785 and the tables after them).
-/
namespace Sys2Proof.Machine

/-- `n` histogram units from 0x1000 (the unit layout). -/
def histRows (n : Nat) : List Row :=
  [{ off := 0x1000, cls := .rw, n1 := n, s1 := 0x200, flds := [wF 18 16, wF 15 8, wF 6 4, wF 2 2, wF 1 1, wF 0 0], eff := .monHistCfg },
   { off := 0x1004, cls := .rw, n1 := n, s1 := 0x200, eff := .monHistPar },
   { off := 0x1008, cls := .rw, rst := 1, n1 := n, s1 := 0x200, eff := .monHistPar },
   { off := 0x100C, cls := .rw, rst := 0x7FFFFFFF, n1 := n, s1 := 0x200, eff := .monHistPar },
   { off := 0x1010, cls := .rw, rst := 0x80000000, n1 := n, s1 := 0x200, eff := .monHistPar },
   { off := 0x1020, cls := .snap, n1 := n, s1 := 0x200, n2 := 7, s2 := 4 },
   { off := 0x1100, cls := .snap, n1 := n, s1 := 0x200, n2 := 64, s2 := 4 }]

/-- `n` performance counters from 0x2000 (the counter layout). -/
def perfRows (n : Nat) : List Row :=
  [{ off := 0x2000, cls := .rw, rst := 0xFFFF0000, n1 := n, s1 := 0x20,
     flds := [wF 31 24, wF 23 16, encF 13 12 2, wF 11 11, wF 8 8, wF 7 0], eff := .monPcCfg },
   { off := 0x2004, cls := .rw, n1 := n, s1 := 0x20 },
   { off := 0x2008, cls := .rw, n1 := n, s1 := 0x20 }] ++
  ctrRows64 0x2010 n 0x20 8

/-- The chip MON block. -/
def monRows : List Row :=
  [roRow 0x040 0,
   { off := 0x044, cls := .w1c, flds := [wF 11 0] },
   roRow 0x048 0,
   { off := 0x04C, cls := .rw, rst := 0x030A, lk := 0xFFFFFFFF, flds := [rngF 15 8 1 255, rngF 7 0 1 255] },
   { off := 0x050, cls := .rw, rst := 0x019001B8 },
   roRow 0x054 0, roRow 0x058 0,
   roRow 0x100 0 18 4, roRow 0x180 0 8 4] ++
  ctrRows 0x200 2 4 0x200 ++ histRows 8 ++ perfRows 16

/-- A Pavilion MON block. -/
def pmonRows : List Row :=
  [roRow 0x040 0,
   { off := 0x044, cls := .w1c, flds := [wF 5 0] },
   roRow 0x048 0, roRow 0x04C 0] ++
  histRows 4 ++ perfRows 8

end Sys2Proof.Machine
end

