-- ==== Sys2Proof/Machine/RegMapPort.lean ====
section
/-!
DEFINITION. RegMapPort.lean: the register maps of a LAN slot, a MAC slot and a TRK block (07_lanes_and_ports.md R393,
R394 and the tables after them), and where the registers of a lane or a port lie.
-/
namespace Sys2Proof.Machine

/-- A LAN slot. -/
def lanRows : List Row :=
  [roRow 0x040 0,
   { off := 0x044, cls := .w1c, flds := [wF 2 0] },
   { off := 0x050, cls := .rw, rst := 0x3C00, lk := 0xFFFFFFFF, flds := [wF 21 16, wF 13 8, wF 5 0] },
   { off := 0x054, cls := .rw, flds := [wF 4 4, wF 1 1, wF 0 0] },
   { off := 0x060, cls := .rw, rst := 0x1E004000, eff := .lanEyeCfg,
     flds := [rngF 31 24 10 44, srngF 23 16 (-127) 127, encF 15 14 2, srngF 6 0 (-32) 31] },
   { off := 0x064, cls := .rw, flds := [cmdF 1 1, cmdF 0 0], eff := .lanEyeCmd },
   roRow 0x068 0,
   roRow 0x070 0, { off := 0x074, cls := .rcHi },
   roRow 0x078 0, { off := 0x07C, cls := .rcHi }] ++
  ctrRows 0x080 3 4 0x40

/-- A MAC slot. -/
def macRows : List Row :=
  [{ off := 0x040, cls := .rw, lk := 0xFFFF00C0, eff := .macCfg,
     flds := [encF 31 24 6, wF 19 18, encF 17 16 2, wF 7 7, wF 6 6, wF 5 5, wF 0 0] },
   roRow 0x044 0,
   { off := 0x048, cls := .w1c, flds := [wF 1 0] },
   { off := 0x04C, cls := .rw, rst := 0x4000, flds := [rngF 31 0 64 16384] }] ++
  ctrRows64 0x100 4 8 0x200 ++ ctrRows 0x120 20 4 0x200

/-- A TRK block. -/
def trkRows : List Row :=
  [roRow 0x040 0x1111,
   { off := 0x044, cls := .w1c, flds := [wF 15 0] },
   { off := 0x100, cls := .rw, rst := 0x0F01, n1 := 16, s1 := 0x40, flds := [rngF 11 8 1 15, wF 0 0] },
   roRow 0x104 0 16 0x40, roRow 0x108 0 16 0x40, roRow 0x10C 0 16 0x40]

/-- The LAN slot of lane `l`. -/
def lanB (l : Nat) : Nat := pavBase (l / 16) + 0x10000 + l % 16 * 0x1000
/-- The MAC slot of the port that starts on lane `p`. -/
def macB (p : Nat) : Nat := pavBase (p / 16) + 0x20000 + p % 16 * 0x1000
/-- The TRK block of Pavilion `r`. -/
def trkB (r : Nat) : Nat := pavBase r + 0x30000
/-- TRK_Pk_CFG, TRK_Pk_STATE, TRK_Pk_PEER of port `p`. -/
def trkCfg (p : Nat) : Nat := trkB (p / 16) + 0x100 + 0x40 * (p % 16)
def trkState (p : Nat) : Nat := trkB (p / 16) + 0x104 + 0x40 * (p % 16)
def trkPeer (p : Nat) : Nat := trkB (p / 16) + 0x108 + 0x40 * (p % 16)

end Sys2Proof.Machine
end

