-- ==== Sys2Proof/Machine/RegMapQue.lean ====
section
/-!
DEFINITION. RegMapQue.lean: the register maps of a QUE block (08_switch_core.md R445 to R449), of the TBL block and of an LRN block
(09_forwarding_tables.md R499 to R503), and where the registers of a port slot or queue lie.
-/
namespace Sys2Proof.Machine

/-- The registers of a QUE slot that slot 16 lacks or has in part (R447): there they read 0 and ignore writes. QUE_P16_GATE keeps showing every gate
open (R426), and CFG keeps every field but CT_EN (DEDUCED, log entry 40). -/
def queNetRows : List Row :=
  [{ off := 0x1000, cls := .rw, n1 := 16, s1 := 0x400, flds := [wF 6 6, wF 5 5, wF 4 4, wF 3 3, encF 2 0 6] },
   { off := 0x1004, cls := .rw, n1 := 16, s1 := 0x400, flds := [roF 8 8, wF 0 0], eff := .queSched },
   { off := 0x1008, cls := .rw, rst := 0x000F4240, n1 := 16, s1 := 0x400, cue := true, own := .portSched, flds := [rngF 31 0 1000 100000000] },
   { off := 0x100C, cls := .rw, n1 := 16, s1 := 0x400, cue := true, own := .portSched, flds := [wF 15 0] },
   { off := 0x1010, cls := .rw, n1 := 16, s1 := 0x400, cue := true, own := .portSched },
   { off := 0x1014, cls := .rw, rst := 1, n1 := 16, s1 := 0x400, cue := true, own := .portSched, flds := [rngF 8 0 1 256] },
   { off := 0x1018, cls := .ro, rst := 0x7F000000, n1 := 16, s1 := 0x400 },
   { off := 0x101C, cls := .rw, rst := 0x00DAC688, n1 := 16, s1 := 0x400, eff := .queMap, flds := [wF 23 0] },
   { off := 0x1024, cls := .rw, rst := 0x00080000, n1 := 16, s1 := 0x400, flds := [wF 31 24, rngF 23 16 4 16, wF 0 0] },
   { off := 0x1028, cls := .rw, rst := 0x1000, n1 := 16, s1 := 0x400, flds := [rngF 23 0 1 16777215] },
   { off := 0x1030, cls := .rw, n1 := 16, s1 := 0x400, n2 := 6, s2 := 4, eff := .queMap, flds := [wF 29 0] },
   { off := 0x1048, cls := .rw, n1 := 16, s1 := 0x400, eff := .queMap, flds := [wF 11 0] },
   { off := 0x10C8, cls := .rw, n1 := 16, s1 := 0x400, n2 := 2, s2 := 0x10, cue := true, own := .portSched },
   { off := 0x8000, cls := .rw, rst := 0x7F000000, n1 := 16, s1 := 0x400, n2 := 256, s2 := 4, cue := true, own := .portSched,
     flds := [wF 30 24, wF 23 0] },
   { off := 0x5000, cls := .rw, flds := [roF 6 6, wF 5 5, wF 4 4, wF 3 3, encF 2 0 6] },
   roRow 0x5004 0, roRow 0x5008 0, roRow 0x500C 0, roRow 0x5010 0, roRow 0x5014 0, roRow 0x5018 0x7F000000, roRow 0x501C 0,
   roRow 0x5024 0, roRow 0x5028 0, roRow 0x5030 0 7 4,
   { off := 0x50C8, cls := .rw, n1 := 2, s1 := 0x10 }]

/-- A QUE block. The table of R445 places the registers of classes 4 and 5 and five counters of the port at the same offsets, 0x0C0 to
0x0D0 of a slot: here the class registers answer there, and the counters are reached through their holding registers (DESIGN CHOICE, log
entry 16). -/
def queRows : List Row :=
  [{ off := 0x040, cls := .ro, rst := 0xD140, eff := .quePool },
   { off := 0x044, cls := .w1c, flds := [wF 4 0] },
   { off := 0x048, cls := .ro, rst := 0x2EC0, eff := .queRsv }] ++
  ctrRows 0x050 2 4 0x200 ++ queNetRows ++
  [{ off := 0x1020, cls := .rw, rst := 0x00FAC688, n1 := 17, s1 := 0x400, flds := [wF 23 0] },
   { off := 0x1080, cls := .rw, rst := 0x04040010, n1 := 17, s1 := 0x400, n2 := 4, s2 := 0x10, eff := .queAdm,
     flds := [rngF 31 20 1 4095, encF 19 16 9, wF 15 0] },
   { off := 0x10C0, cls := .rw, rst := 0x00040100, n1 := 17, s1 := 0x400, n2 := 2, s2 := 0x10, eff := .queAdm,
     flds := [roF 31 20, encF 19 16 9, wF 15 0] },
   { off := 0x10E0, cls := .rw, rst := 0x00040040, n1 := 17, s1 := 0x400, n2 := 2, s2 := 0x10, eff := .queAdm,
     flds := [roF 31 20, encF 19 16 9, wF 15 0] },
   { off := 0x1084, cls := .rw, rst := 0x01100000, n1 := 17, s1 := 0x400, n2 := 4, s2 := 0x10,
     flds := [rngF 31 24 1 255, rngF 23 16 1 255, wF 15 0] },
   roRow 0x10C4 0 17 0x400 4 0x10,
   roRow 0x1088 0 17 0x400 4 0x10,
   roRow 0x10E8 0 17 0x400 2 0x10,
   { off := 0x108C, cls := .ro, n1 := 17, s1 := 0x400, n2 := 8, s2 := 0x10, eff := .queStat },
   { off := 0x12C0, cls := .snap, n1 := 17, s1 := 0x400, n2 := 5, s2 := 4 }] ++
  ctrRows 0x1100 17 0x400 0x200 64 4

/-- The TBL block (R499, R500). -/
def tblRows : List Row :=
  [{ off := 0x040, cls := .ro, eff := .tblStatus },
   { off := 0x044, cls := .w1c, flds := [wF 5 0] },
   { off := 0x054, cls := .rw, rst := 0x812C0064, flds := [wF 31 31, rngF 30 16 1 32767, rngF 12 0 1 6500] },
   roRow 0x058 0,
   { off := 0x05C, cls := .rw, rst := 0x03E80004, flds := [rngF 31 16 10 65535, rngF 7 0 1 255] },
   { off := 0x060, cls := .rw, rst := 0x3C, flds := [rngF 15 0 1 65535] },
   { off := 0x064, cls := .set, flds := [wF 7 0], eff := .tblLock },
   { off := 0x068, cls := .clr, flds := [wF 7 0], eff := .tblLock },
   { off := 0x06C, cls := .rw, rst := 0x0A, flds := [wF 7 0] },
   { off := 0x070, cls := .ro, n1 := 4, s1 := 4, eff := .tblUsed },
   roRow 0x080 0, roRow 0x084 0, roRow 0x088 0] ++
  dwRows 0x050 0 [wF 31 0] 0xFFFFFFFF .tblSeed ++
  ctrRows 0x100 9 4 0x200

/-- An LRN block (R501 to R503). -/
def lrnRows : List Row :=
  [{ off := 0x040, cls := .ro, eff := .lrnStatus },
   { off := 0x044, cls := .w1c, flds := [wF 1 0] },
   { off := 0x1000, cls := .rw, rst := 0xF0010000, n1 := 16, s1 := 0x40, flds := [wF 31 28, rngF 27 16 1 4094, wF 15 0] },
   { off := 0x1400, cls := .rw, rst := 0xE0010000, flds := [wF 31 29, roF 28 28, rngF 27 16 1 4094, wF 15 0] }] ++
  ctrRows 0x050 3 4 0x800 ++ ctrRows 0x1010 17 0x40 0x800 4 4

/-- The QUE block of Pavilion `r`, and the slot of network port `p` or, for 129 to 136, of a compute port (R395). -/
def queB (r : Nat) : Nat := pavBase r + 0x40000
/-- The Pavilion of a network or compute port. -/
def portPav (p : Nat) : Nat := if p < 128 then p / 16 else p - 129
/-- The slot of a network or compute port in its Pavilion. -/
def portSlot (p : Nat) : Nat := if p < 128 then p % 16 else 16
/-- Where the slot's registers start. -/
def queSlot (p : Nat) : Nat := queB (portPav p) + 0x1000 + 0x400 * portSlot p
/-- QUE_Pqt_ADM; SHAPE, CBS and STAT follow it. -/
def queAdm (p t : Nat) : Nat := queSlot p + 0x080 + 0x10 * t
/-- The first counter of queue (p, t), QUE_Pqt_ENQ. -/
def queCtr (p t : Nat) : Nat := queSlot p + 0x100 + 0x20 * t
/-- A counter that the map cannot reach at its own offset is kept this far above it (log entry 16). -/
def hiddenB : Nat := 0x02000000
/-- QUE_Pq_MC_COPY_DROP; CT_FRAMES, SAMPLED, SAMP_DROP and XBAR_DROP follow it. -/
def quePortCtr (p : Nat) : Nat := hiddenB + queSlot p + 0x0C0
/-- The LRN block of Pavilion `r`. -/
def lrnB (r : Nat) : Nat := pavBase r + 0x50000
/-- LRN_Pq_CFG of a network or compute port. -/
def lrnSlot (p : Nat) : Nat := lrnB (portPav p) + 0x1000 + 0x40 * portSlot p

end Sys2Proof.Machine
end

