-- ==== Sys2Proof/Machine/RegMapTime.lean ====
section
/-!
DEFINITION. RegMapTime.lean: the register maps of CLK (03_reference_and_synthesis.md R158), SUN
(04_sundial_time_engine.md R231) and TDC (05_interval_measurement_and_calibration.md R276).
-/
namespace Sys2Proof.Machine

/-- CLK (R158). -/
def clkRows : List Row :=
  [roRow 0x040 0x402,
   { off := 0x044, cls := .w1c, flds := [wF 11 0], eff := .clkEvent },
   { off := 0x058, cls := .rw, rst := 0x0078400A, flds := [rngF 31 16 1 65535, rngF 15 8 16 255, rngF 7 0 1 255], eff := .clkMonCfg },
   { off := 0x05C, cls := .rw, rst := 0x00640100, lk := 0xFFFFFFFF,
     flds := [rngF 31 16 1 65535, wF 8 8, encF 6 4 4, encF 2 0 4], eff := .clkBypCfg },
   { off := 0x060, cls := .set, flds := [wF 7 0], cue := true, eff := .clkOutEn },
   { off := 0x064, cls := .clr, flds := [wF 7 0], cue := true, eff := .clkOutEn },
   { off := 0x100, cls := .rw, n1 := 4, s1 := 0x20, lk := 0x00030000, eff := .clkRefCfg,
     flds := [roF 31 24, amongF 17 16 [0, 1], wF 15 12, wF 11 8, wF 0 0] },
   { off := 0x180, cls := .rw, rst := 0x00010000, eff := .clkRefCfg, flds := [roF 31 24, roF 17 16, wF 15 12, wF 11 8, wF 0 0] },
   { off := 0x1A0, cls := .rw, rst := 0x00020000, n1 := 2, s1 := 0x20, eff := .clkRefCfg,
     flds := [⟨31, 24, .port, .st⟩, roF 17 16, wF 15 12, wF 11 8, wF 0 0] },
   { off := 0x1E0, cls := .rw, rst := 0x00030000, eff := .clkRefCfg,
     flds := [⟨31, 24, .port, .st⟩, roF 17 16, wF 15 12, wF 11 8, wF 0 0] },
   { off := 0x104, cls := .rw, rst := 0x00989680, n1 := 4, s1 := 0x20, lk := 0xFFFFFFFF, eff := .clkRefNom,
     flds := [rngF 31 0 1000 800000000] },
   roRow 0x184 0 4 0x20,
   { off := 0x108, cls := .rw, rst := 0x4E202710, n1 := 8, s1 := 0x20, eff := .clkRefLimit },
   roRow 0x10C 0 8 0x20, roRow 0x110 0 8 0x20, roRow 0x114 0 8 0x20,
   { off := 0x118, cls := .w1c, n1 := 8, s1 := 0x20, flds := [wF 5 0] },
   { off := 0x200, cls := .rw, rst := 0x3C060980, eff := .clkDpllCfg,
     flds := [wF 31 24, encF 20 16 0x14, encF 12 8 0x14, wF 7 7, wF 6 4, encF 2 0 3] },
   { off := 0x240, cls := .rw, rst := 0x3C060985, eff := .clkDpllCfg,
     flds := [wF 31 24, encF 20 16 0x14, encF 12 8 0x14, wF 7 7, wF 6 4, encF 2 0 5] },
   { off := 0x280, cls := .rw, rst := 0x3C090984, n1 := 2, s1 := 0x40, eff := .clkDpllCfg,
     flds := [wF 31 24, encF 20 16 0x14, encF 12 8 0x14, wF 7 7, wF 6 4, amongF 2 0 [1, 2, 3, 4]] },
   { off := 0x204, cls := .rw, rst := 0x0004000A, n1 := 4, s1 := 0x40, flds := [rngF 23 16 1 255, rngF 15 0 1 65535] },
   { off := 0x208, cls := .ro, n1 := 4, s1 := 0x40, eff := .clkDpllState },
   roRow 0x20C 0 4 0x40, roRow 0x210 0 4 0x40, roRow 0x214 0 4 0x40,
   { off := 0x300, cls := .rw, rst := 0x01000000, n1 := 8, s1 := 0x20, lk := 0xFFFFFFFF, eff := .clkOutCfg,
     flds := [rngF 31 24 1 255, encF 18 16 4, encF 9 8 2, wF 4 4, encF 1 0 2] },
   { off := 0x304, cls := .rw, rst := 0x40, n1 := 8, s1 := 0x20, lk := 0xFFFFFFFF, eff := .clkOutDiv,
     flds := [rngF 31 0 4 0xFFFFFFFF] },
   { off := 0x308, cls := .rw, n1 := 8, s1 := 0x20, lk := 0xFFFFFFFF, flds := [wF 23 0] },
   { off := 0x30C, cls := .rw, n1 := 8, s1 := 0x20, cue := true, flds := [wF 31 16, wF 9 0], eff := .clkOutDelay },
   roRow 0x310 1 8 0x20,
   { off := 0x400, cls := .rw, rst := 0x012C0200, flds := [rngF 31 16 16 65535, wF 15 8, encF 3 2 2, wF 1 0] },
   roRow 0x404 0,
   { off := 0x408, cls := .rw }, { off := 0x40C, cls := .rw }, { off := 0x410, cls := .rw },
   roRow 0x414 0, roRow 0x418 0, roRow 0x41C 0x8000] ++
  dwRows 0x050 0x502 [wF 11 10, encF 9 8 2, wF 1 0] 0xFFFFFFFF .clkApllCfg ++
  dwRows 0x054 0 [wF 31 0] 0xFFFFFFFF .clkOscTrim

/-- SUN (R231). -/
def sunRows : List Row :=
  [{ off := 0x040, cls := .ro, rst := 0x07770000, eff := .sunStatus },
   { off := 0x044, cls := .w1c, flds := [wF 7 0] },
   { off := 0x050, cls := .rw, rst := 0x00320064, flds := [rngF 23 16 1 255, rngF 7 0 1 100] },
   { off := 0x054, cls := .rw, rst := 0x000F4240, flds := [wF 31 31, rngF 29 0 1000 999999999] },
   { off := 0x058, cls := .rw, rst := 0x3E8, flds := [rngF 31 0 1 0xFFFFFFFF] },
   { off := 0x05C, cls := .rw, rst := 0x200, cue := true, flds := [rngF 15 8 1 255, wF 4 4, wF 0 0], eff := .sunDomCtrl },
   { off := 0x060, cls := .rw, rst := 0x00250000, flds := [wF 31 16, wF 1 0], eff := .sunUtc },
   { off := 0x064, cls := .rw, flds := [cmdF 0 0], eff := .sunCapCmd },
   { off := 0x068, cls := .rw, flds := [roF 31 31, wF 4 4, amongF 1 0 [1, 2]], eff := .sunSetCmd },
   { off := 0x070, cls := .ro, n1 := 2, s1 := 8, n2 := 2, s2 := 4, eff := .sunInc },
   roRow 0x080 0 3 0x10 4 4,
   { off := 0x0C0, cls := .ro, n1 := 4, s1 := 4, eff := .sunResid },
   { off := 0x0D0, cls := .rw, n1 := 3, s1 := 4 },
   { off := 0x0E0, cls := .rw, lk := 0xFFFFFFFF, eff := .sunBypInc },
   { off := 0x0E4, cls := .rw, rst := 0x2800, lk := 0xFFFFFFFF, flds := [rngF 15 8 1 255, wF 7 0], eff := .sunBypInc },
   { off := 0x0F0, cls := .rw, rst := 0x00190006, flds := [wF 31 16, rngF 3 0 0 8] },
   roRow 0x0F4 0,
   { off := 0x0F8, cls := .ro, eff := .sunTrkRoot },
   { off := 0x100, cls := .rw, rst := 0x186A0000, n1 := 2, s1 := 0x10, cue := true, flds := [rngF 31 12 1 500000, wF 0 0], eff := .sunPpsCfg },
   { off := 0x104, cls := .rw, n1 := 2, s1 := 0x10, flds := [srngF 31 0 (-1000000) 1000000], eff := .sunPpsAdj },
   { off := 0x120, cls := .rw, rst := 2, n1 := 2, s1 := 0x10, cue := true,
     flds := [srngF 31 16 (-1440) 1440, wF 3 3, wF 2 1, wF 0 0], eff := .sunLtcCfg },
   { off := 0x124, cls := .rw, n1 := 2, s1 := 0x10 },
   { off := 0x128, cls := .rw, n1 := 2, s1 := 0x10, flds := [srngF 31 0 (-1000000) 1000000], eff := .sunLtcAdj },
   { off := 0x140, cls := .rw, rst := 4, n1 := 4, s1 := 0x10, cue := true, flds := [encF 3 1 6, wF 0 0], eff := .sunWcCfg },
   { off := 0x144, cls := .rw, n1 := 4, s1 := 0x10, flds := [srngF 31 0 (-1000000) 1000000], eff := .sunWcAdj },
   { off := 0x200, cls := .rw, rst := 0x000A0000, n1 := 16, s1 := 0x20, cue := true,
     flds := [wF 31 16, wF 5 4, wF 3 3, wF 2 2, wF 1 1, wF 0 0], eff := .sunCmpCfg },
   { off := 0x204, cls := .rw, n1 := 16, s1 := 0x20, eff := .sunCmpTgt },
   { off := 0x208, cls := .rw, n1 := 16, s1 := 0x20, flds := [wF 15 0], eff := .sunCmpTgt },
   { off := 0x20C, cls := .rw, n1 := 16, s1 := 0x20, eff := .sunCmpTgt },
   roRow 0x210 0 16 0x20,
   { off := 0x1000, cls := .rw, n1 := 128, s1 := 0x10, eff := .sunPtCfg,
     flds := [wF 31 24, wF 23 20, wF 19 16, encF 11 10 2, encF 9 8 2, wF 7 7, encF 5 4 2, encF 3 2 2, wF 1 1] },
   { off := 0x1004, cls := .rw, n1 := 128, s1 := 0x10 },
   { off := 0x1008, cls := .rw, n1 := 128, s1 := 0x10, eff := .sunPtAsym },
   roRow 0x100C 0 128 0x10]

/-- TDC (R276). The lanes' delays are kept beside the registers (`laneReg`): their reset values are the part's own. -/
def tdcRows : List Row :=
  [roRow 0x040 0,
   { off := 0x044, cls := .w1c, flds := [wF 3 0] },
   { off := 0x050, cls := .rw, rst := 0x0F, flds := [wF 3 3, wF 2 2, wF 1 1, wF 0 0], eff := .tdcCalCtrl },
   { off := 0x054, cls := .rw, rst := 0x0E103C08, flds := [wF 31 16, rngF 15 8 1 255, rngF 7 0 1 255] },
   { off := 0x058, cls := .rw, rst := 0x0A020204, lk := 0xFFFFFFFF, flds := [rngF 31 24 1 255, rngF 23 16 1 255, rngF 15 8 1 255, rngF 7 0 1 255] },
   { off := 0x05C, cls := .rw, flds := [⟨9, 8, .enc 2, .cmd⟩, cmdF 7 0], eff := .tdcCalCmd },
   { off := 0x060, cls := .ro, eff := .tdcCalStatus },
   { off := 0x064, cls := .rc },
   { off := 0x068, cls := .rc, ctr := .c32 4 }, { off := 0x06C, cls := .snap },
   { off := 0x400, cls := .rw, n1 := 16, s1 := 0x40, eff := .tdcChCfg,
     flds := [wF 31 24, wF 23 23, encF 22 21 2, wF 20 16, wF 15 8, wF 7 4, wF 3 2, encF 1 0 2] },
   { off := 0x404, cls := .ro, n1 := 16, s1 := 0x40, eff := .tdcChStatus },
   { off := 0x408, cls := .rc, n1 := 16, s1 := 0x40, eff := .tdcResLo },
   { off := 0x40C, cls := .rcHi, n1 := 16, s1 := 0x40 },
   roRow 0x410 0 16 0x40, roRow 0x414 0 16 0x40,
   roRow 0x418 0x7C000 16 0x40, roRow 0x41C 0xFC000 16 0x40,
   roRow 0x420 0 16 0x40, roRow 0x424 0 16 0x40,
   { off := 0x800, cls := .rw, rst := 0x14000000, n1 := 8, s1 := 0x20, eff := .tdcDiffCfg,
     flds := [rngF 28 24 0 30, wF 23 16, wF 15 15, wF 11 8, wF 7 4, wF 3 1, wF 0 0] },
   roRow 0x804 0 8 0x20, { off := 0x808, cls := .rcHi, n1 := 8, s1 := 0x20 },
   roRow 0x80C 0 8 0x20, { off := 0x810, cls := .rcHi, n1 := 8, s1 := 0x20 },
   { off := 0x2000, cls := .ro, n1 := 128, s1 := 0x10, n2 := 4, s2 := 4, eff := .tdcLane },
   { off := 0x3000, cls := .rw, n1 := 128, s1 := 0x10, flds := [wF 1 1, wF 0 0], eff := .tdcAsymCfg },
   { off := 0x3004, cls := .rw, n1 := 128, s1 := 0x10 },
   { off := 0x3008, cls := .rw, n1 := 128, s1 := 0x10 },
   roRow 0x300C 0 128 0x10] ++
  ctrRows 0x428 16 0x40 0x0C 3 4 ++ ctrRows 0x814 8 0x20 4

end Sys2Proof.Machine
end

