-- ==== Sys2Proof/Machine/RegMap.lean ====
section
/-!
DEFINITION. RegMap.lean: the register map of every block type together, and the reset value of every register.
-/
namespace Sys2Proof.Machine

/-- The registers of a block after its common header. -/
def blockRows : BlkTy → List Row
  | .chp => chpRows
  | .irq => irqRows
  | .pwr => pwrRows
  | .nvm => nvmRows
  | .hif => hifRows
  | .clk => clkRows
  | .sun => sunRows
  | .gns => gnsRows
  | .tdc => tdcRows
  | .mon => monRows
  | .pmon => pmonRows
  | .lan => lanRows
  | .mac => macRows
  | .trk => trkRows
  | .que => queRows
  | .lrn => lrnRows
  | .tbl => tblRows
  | .cue => cueRows
  | .plc => plcRows
  | .bst => bstRows
  | _ => []

/-- The register at a decoded offset of a block: the common header lies below 0x018 (R49). -/
def regAt (b : Block) (o : Nat) : Option Found :=
  if o < 0x18 then findRow (headerRows b.ty) o else findRow (blockRows b.ty) o

/-- The reset value of the register an address reaches; 0 where none is. -/
def resetOf (a : Nat) : Word :=
  match resolve a with
  | some (b, o) =>
    match regAt b o with
    | some x => w32 x.row.rst
    | none => 0
  | none => 0

end Sys2Proof.Machine
end

