-- ==== Sys2Proof/Machine/State.lean ====
section
/-!
DEFINITION. State.lean: everything the spec gives the machine, as plain data, and the machine after reset.
Registers are held in one sparse file `regs` keyed by their canonical BAR0 offset; a register not listed reads its
reset value (`Sys2Proof.Machine.resetOf`). What the spec gives the machine beyond its registers is held per block.
-/
namespace Sys2Proof.Machine

/-- Reasons a step can stop the machine. No command of this block stops it: every command of the table has an effect in
the spec, a refusal the spec describes (an error code), or no effect; so no meaning answers with this reason. Safe. -/
inductive Fault where
  /-- Raised by no meaning; kept so that the type is a closed list with one name. Safe. -/
  | halted
  deriving DecidableEq, Repr

/-- Reasons a command has no meaning in this model. -/
inductive Refusal where
  /-- Raised by an arm of Dispatch.lean whose command has no meaning yet, by the mnemonic of the table. Safe. -/
  | notModelled (mnemonic : String)
  deriving DecidableEq, Repr

/-- An open dual-write pair (R59, R60): the DW register's canonical BAR0 offset and the value of its first write. -/
structure DwPair where
  reg : Nat
  val : Word
  deriving DecidableEq, Repr

/-- A reference slot beyond its registers (03_reference_and_synthesis.md): milliseconds counted toward qualification (R104,
R105), milliseconds since it became QUALIFIED (R117), its FOFF values since it qualified, newest first (R125, R126), and the
last offset it gave for each domain, with the domain's own adjustments taken out (R135, R182); whether it has been measured
since chip reset (R102). -/
structure RefSlot where
  measured : Bool := false
  qualMs : Nat := 0
  qualAge : Nat := 0
  win : List Int := []
  ofs0 : Option Int := none
  ofs1 : Option Int := none
  deriving DecidableEq, Repr

/-- A one-second bin of the holdover model (R137): the second of the model's grid that it covers, the mean frequency in ppt, and the mean
temperature in 0.25 degC of each sensor, by its TSEL code, whose every reading was valid. -/
structure Bin where
  sec : Nat
  y : Int
  temps : AMap Int
  deriving DecidableEq, Repr

/-- A DPLL beyond its registers: the LOCK_TIME count in ms (R129), whether it has dropped its slot's phase (R130), the second of the model's grid in
which its selected slot failed (R139), whether the present second has been wholly in LOCKED so far (R137), its bins since it last became
LOCKED, newest first, the validity of its average, whether an estimate was ever formed, its y0 (R138, R139), and its holdover episode: age, d in
ppt (R141), s_y in 10^-6 ppt, T0, the last valid temperature of each sensor by TSEL code, and the accumulated bound in 10^-6 ps (R142); whether an
offset is still to be handed to the Sundial (R135). -/
structure DpllSt where
  lockMs : Nat := 0
  lost : Bool := false
  failSec : Option Nat := none
  wholeSec : Bool := false
  bins : List Bin := []
  hoValid : Bool := false
  formed : Bool := false
  y0 : Int := 0
  t0 : Option Int := none
  age : Nat := 0
  d : Int := 0
  sy : Nat := 0
  lastTemps : AMap Int := []
  err : Nat := 0
  handPending : Bool := false
  deriving DecidableEq, Repr

/-- The readings of a sensor in the present second of the model's grid (R137): their sum, their number, whether one was invalid. -/
structure TempAcc where
  sum : Int := 0
  cnt : Nat := 0
  bad : Bool := false
  deriving DecidableEq, Repr

/-- A clock output beyond its registers (R146 to R151): its divider's phase since the last edge that began a period, and the length of that
period, in 2^-24 VCO periods, or in 2^-40 ns while in bypass; the divider's level; whether the output is on, and whether it is wanted on; whether a
cue's change of its enable or of its delay waits for a falling edge; its present delay and the delay that it walks to, in fine steps. -/
structure ClkOut where
  phase : Nat := 0
  per : Nat := 0
  high : Bool := false
  on : Bool := false
  want : Bool := false
  lateEn : Bool := false
  lateDelay : Bool := false
  pos : Nat := 0
  tgt : Nat := 0
  deriving DecidableEq, Repr

/-- The clock subsystem beyond its registers: slots 0 to 7, DPLLs 0 to 3, the clock quality under BYPASS (CLK_STATUS.CQ), since when the APLL has
been locked on the `State.elapsed` scale, whether APLL_UNLOCK was cleared since it relocked (R156); consecutive cycles of the phase detector with an
excessive error (R152); the outputs by number; how many seconds of the model's grid have passed, and the readings of the sensors by TSEL code in the
present one (R137); whether OSCIN is lost (R779). -/
structure ClkSt where
  outs : AMap ClkOut := []
  sec : Nat := 0
  temps : AMap TempAcc := []
  oscLost : Bool := false
  slots : AMap RefSlot := []
  dplls : AMap DpllSt := []
  cq : Nat := 3
  lockedAt : Nat := 0
  pdBad : Nat := 0
  unlockClr : Bool := false
  deriving DecidableEq, Repr

/-- How a residual is being removed (R183). -/
inductive Removal where
  | none
  | slew
  | step
  deriving DecidableEq, Repr

/-- A time counter and its residual: `t` the count in 2^-40 ns, `resid` the residual (R183), how it is removed, the part of
10^-9 of a unit that slewing has still to give, whether its time has been set (R179), when it last stepped on the
`State.elapsed` scale, whether the last tick carried it into a new second (R185), and the sum of every adjustment made to it.
For node time `t` is unused and `resid` is the handover residual (R190). -/
structure TimeCtr where
  t : Nat := 0
  resid : Int := 0
  rem : Removal := .none
  acc : Nat := 0
  set : Bool := false
  stepAt : Option Nat := none
  carried : Bool := false
  adj : Int := 0
  deriving DecidableEq, Repr

/-- A time output (R216 to R222): its present offset in 2^-40 ps, the part of its walk still to be given, the index of its last
edge, its level, the elapsed time at which a PPS pulse ends; the RATE of the grid it runs on, whether a period of a word clock or a frame of
timecode is in progress, and whether the output is to start anew once that has ended (R217); the elapsed time at which the edge of the second on
which a step landed falls, where ADJ puts it after the step (R187). -/
structure TimeOut where
  adj : Int := 0
  acc : Nat := 0
  last : Int := 0
  high : Bool := false
  ends : Nat := 0
  rate : Nat := 0
  busy : Bool := false
  restart : Bool := false
  owed : Option Nat := none
  deriving DecidableEq, Repr

/-- What a trunk port keeps of the time words of one domain (R207 to R213): SEQ of the next word; the 125 us interval of the last word sent; the
words sent of late, newest first (SEQ, T3, elapsed time); SEQ and T4 of the peer's last word; the delays averaged, newest first, in 2^-40 ns; HOPS, QC and the elapsed
time of its last valid word (R385). -/
structure TrkTime where
  seq : Nat := 0
  slot : Option Nat := none
  sent : List (Nat × Nat × Nat) := []
  echo : Nat := 0
  t4 : Nat := 0
  delays : List Int := []
  hops : Nat := 0
  qc : Nat := 0
  lastAt : Option Nat := none
  deriving DecidableEq, Repr

/-- What the words that a domain follows carry (R178, R214). -/
structure Upstream where
  qc : Nat := 0
  hops : Nat := 0
  root : Nat := 0
  err : Nat := 0
  utc : Nat := 0
  valid : Bool := false
  deriving DecidableEq, Repr

/-- The Sundial beyond its registers (04_sundial_time_engine.md): the two domain counters and the handover residual; the
bypass increment in use (R168); the domain of a set in progress (R229); the second at which a leap second applies (R223); the
seconds for which the other domain has been better, as elapsed time (R192); the outputs by number, PPS 0 and 1, LTC 2 and 3,
word clocks 4 to 7; the pulses of compare units by unit, as the elapsed time at which they end and the pin they hold; node time at the tick before the last; whether HO_OOS was raised in
this episode (R180); whether the Lodge drives PPS_OUT0 (R726, R808); the trunk ports' time words; upstream words; the
compare units that have been armed on a time, kept with it. -/
structure SunSt where
  d0 : TimeCtr := {}
  d1 : TimeCtr := {}
  hand : TimeCtr := {}
  bypInc : Nat := 0x280000000000
  setDom : Option Nat := none
  leapAt : Option Nat := none
  better : Option Nat := none
  outs : AMap TimeOut := []
  pulses : AMap (Nat × Nat) := []
  before : Nat := 0
  oos0 : Bool := false
  oos1 : Bool := false
  ppsLodge : Bool := false
  stopped : Bool := false
  trk : AMap TrkTime := []
  up0 : Upstream := {}
  up1 : Upstream := {}
  cmp : AMap Nat := []
  deriving DecidableEq, Repr

/-- What a histogram unit has gathered since it was last cleared (R751, R757): count, extremes with their CS NS times, bins. -/
structure HistUnit where
  cnt : Nat := 0
  mn : Int := 0
  mnT : Word := 0
  mx : Int := 0
  mxT : Word := 0
  bins : AMap Nat := []
  deriving DecidableEq, Repr

/-- The monitors beyond their registers (15_monitoring_and_containment.md): the histogram units by the address of their CFG; the
last TDC result of a chip unit on SRC 2, by unit (R752); whether TEMP_WARN and TEMP_EXT_WARN wait for the fall of R768; the
consecutive readings at 125 degC or more by sensor (R779); the instants on the `State.elapsed` scale of late events that
count toward RETIRE_LIM, by what they count for (R770, R773). -/
structure MonSt where
  units : AMap HistUnit := []
  last : AMap Nat := []
  /-- when each supply monitor was first seen outside its absolute window, while it stays there (R779), as elapsed time -/
  outAt : AMap Nat := []
  warned : Bool := false
  extWarned : Bool := false
  hot : AMap Nat := []
  errs : AMap (List Nat) := []
  deriving DecidableEq, Repr

/-- A completion still to be written: status, descriptor index, INFO, its port stamp if it has one, TRUNC (R624). -/
structure Completion where
  status : Nat
  desc : Nat
  info : Word
  stamp : Option Nat := none
  trunc : Nat := 0
  deriving DecidableEq, Repr

/-- A ring beyond its registers (12_host_rings.md): the phase of an event ring (R652), whether a descriptor is in progress, the
completions that wait for room (R622). -/
structure RingSt where
  phase : Bool := true
  busy : Bool := false
  wait : List Completion := []
  deriving DecidableEq, Repr

/-- A completion queue beyond its registers (R623, R656): phase, unannounced entries, and when the newest and the oldest of them
were written and the queue was armed, as elapsed times. -/
structure CqSt where
  phase : Bool := true
  unann : Nat := 0
  newest : Nat := 0
  oldest : Nat := 0
  armedAt : Nat := 0
  deriving DecidableEq, Repr

/-- A TDC channel beyond its registers (05_interval_measurement_and_calibration.md): its FIFO of compact stamps, oldest first
(R247); edges of the present arming (R242); the ticks after which a gate arms it, when it was armed last and disarmed last (R242); the elapsed times
of its last measured edge (R243) and of its last edge, arming or idle pair (R245); the running block of raw pairs: their number and sums (R253) and
the temperature at its start (R272), the block before it, the targets of W1 and W2 and of OFS and G2, and of W and of G2 the steps left and the
pairs that have not moved them yet (R266); when its interpolator's record was last written (R271); consecutive refused pairs and whether it is
retired (R770). -/
structure TdcCh where
  fifo : List Nat := []
  edges : Nat := 0
  gateWait : Option Nat := none
  armedAt : Nat := 0
  offAt : Option Nat := none
  lastEdge : Option Nat := none
  quietAt : Nat := 0
  pairs : Nat := 0
  sum1 : Nat := 0
  sum2 : Nat := 0
  temp : Int := 0
  prev : Option (Nat × Nat) := none
  w1 : Nat := 0
  w2 : Nat := 0
  wSteps : Nat := 0
  wDue : Nat := 0
  ofs : Int := 0
  g2 : Int := 0
  gSteps : Nat := 0
  gDue : Nat := 0
  storedAt : Option Nat := none
  bad : Nat := 0
  retired : Bool := false
  deriving DecidableEq, Repr

/-- A difference unit beyond its registers (R249 to R251): the open A result, as a compact stamp; the sum and number of the
differences of the present block. -/
structure TdcDiff where
  openA : Option Nat := none
  sum : Int := 0
  num : Nat := 0
  deriving DecidableEq, Repr

/-- A calibration item (R253 to R270): a run in progress or waiting for its lane; the elapsed time before which a trigger starts no
run (R261); the temperature at the start of the run, and the temperature, d (2^-40 ns) and elapsed time of the last accepted run (R260); when the run
started, and the sum and number of the averaged mean path delays, in 2^-40 ns, seen in its first second and in its second one (R256); whether
the run goes without its ranging (R258), and what a ranging job answered for it, in ps (R257). -/
structure CalItem where
  run : Bool := false
  wait : Bool := false
  retryAt : Nat := 0
  temp : Int := 0
  lastTemp : Option Int := none
  lastD : Int := 0
  lastAt : Option Nat := none
  startAt : Nat := 0
  sum1 : Int := 0
  num1 : Nat := 0
  sum2 : Int := 0
  num2 : Nat := 0
  noRange : Bool := false
  ranged : Option Int := none
  deriving DecidableEq, Repr

/-- Two fixed delays of a lane at a rate, in 2^-16 ns (R254 to R267). -/
structure LaneDelay where
  tx : Word
  rx : Word
  deriving DecidableEq, Repr

/-- The fixed delays of a lane in use and their targets, in 2^-16 ns (TDC_LANEl_TXD to TDC_LANEl_RXD_TGT of R276). -/
structure LaneNow where
  tx : Word
  rx : Word
  txT : Word
  rxT : Word
  deriving DecidableEq, Repr

/-- The TDC block and live calibration beyond their registers: channels, difference units, the levels of TDC_GATE0 to 3, the
channels held by a calibration run, whether the time-bus latency has been measured since reset (R234), the calibration
items by 256 times their kind plus their number (0 offset, 1 trunk, 2 asymmetry), the delays of lanes by 8 times the lane
plus the rate, the delays in use by lane, factory ones where none is listed; the lanes that have reported superblock lock since chip reset or their
last rate change (R267); when an applied value last moved or its movement began, by item (R266); the ports whose asymmetry finishes its movement
(R269). -/
structure TdcSt where
  chs : AMap TdcCh := []
  diffs : AMap TdcDiff := []
  gates : List Nat := []
  hold : List Nat := []
  latDone : Bool := false
  items : AMap CalItem := []
  lanes : AMap LaneDelay := []
  now : AMap LaneNow := []
  locked : List Nat := []
  moved : AMap Nat := []
  asymEnds : List Nat := []
  deriving DecidableEq, Repr

/-- A tracking channel beyond its registers (R296 to R301): the NCO values in use, the OWNER that takes effect at the next epoch; its code phase
in units of 1/(256 fs) chip since the epoch began and its carrier phase in units of 2^-16/fs cycle, at sample rate fs; the epoch stamp of an epoch that
has ended and is not dumped yet, and the samples that have come since. -/
structure GnsCh where
  code : Word := 0x0F9C1800
  carr : Nat := 0
  ownerNext : Option Bool := none
  phase : Int := 0
  cycles : Int := 0
  ended : Option Nat := none
  extra : Nat := 0
  deriving DecidableEq, Repr

/-- A notch beyond its registers: for how many ms a locked line has stayed below THR - 3 dB (R288), and the elapsed time of its next examination of
the spectrum (R287). -/
structure Notch where
  lowMs : Nat := 0
  next : Nat := 0
  deriving DecidableEq, Repr

/-- A sample input beyond its registers (R281, R290, R291): the level of its ball GNS_FEn_CLK; the present power and the power readings behind the
baseline, newest first, in 0.1 dBFS; the samples of the present millisecond and those of them at full scale, and the same of the last ten
milliseconds, newest first. -/
structure GnsIn where
  clk : Bool := false
  pwr : Int := 0
  base : List Int := []
  now : Nat × Nat := (0, 0)
  last : List (Nat × Nat) := []
  deriving DecidableEq, Repr

/-- What a capture has of one input (R313, R315): its first sample's time in domain 0 with its tag and the JAM level then, and its samples, I and Q,
newest first. -/
structure SnapIn where
  t0 : Nat := 0
  tag : Nat := 0
  jam : Nat := 0
  got : List (Int × Int) := []
  deriving DecidableEq, Repr

/-- A snapshot slot beyond GNS_SNAP_STAT (R311 to R317): the configuration taken at GO; the node time (START 1) or the count of the VCO (START 0, 2)
at which it begins, once that is known; what it has of each input; and the two regions, header included. -/
structure Snap where
  cfg : Word := 0
  start : Option Nat := none
  in0 : SnapIn := {}
  in1 : SnapIn := {}
  reg0 : List Byte := []
  reg1 : List Byte := []
  deriving DecidableEq, Repr

/-- A Grotto job beyond its registers (R318 to R333): when GO was written, the start instant, the channel claimed, the calibration item it serves. In
MODE 1 the index of its first X sample and what it has of X and of Y, by sample index, once its start has come. In MODE 2 the marker channel held for
it; the chips it has sent; the departures of the superblocks with chip 0, newest first, and the arrival of the one that carries the peer's, in domain 0
time; the last received chips of the peer, newest first, each with the arrival of its superblock (0 for a superblock without RON); whether the peer
has been heard and its markers exchanged, the DELAY they gave in ps and A_near - S_near in superblocks. -/
structure Grotto where
  goAt : Nat := 0
  start : Nat := 0
  chan : Option Nat := none
  forPort : Option Nat := none
  first : Option Nat := none
  xs : AMap Word := []
  ys : AMap Word := []
  marker : Option Nat := none
  chips : Nat := 0
  left : List Nat := []
  came : Option Nat := none
  heardChips : List (Int × Nat) := []
  heard : Bool := false
  exchanged : Bool := false
  delay : Int := 0
  apart : Int := 0
  deriving DecidableEq, Repr

/-- Who asks the acquisition engine for a search (R293): the host's request slot, or a Grotto job for its coarse stage. -/
inductive AcqWho where
  | host
  | job (j : Nat)
  deriving DecidableEq, Repr

/-- The host's acquisition request as GO took it (R292): GNS_ACQ_REQ and GNS_ACQ_DOP; the live samples it has captured, and the domain 0 time of the
first sample. -/
structure Acq where
  req : Word := 0
  dop : Word := 0
  got : Nat := 0
  t0 : Nat := 0
  deriving DecidableEq, Repr

/-- The Belvedere beyond its registers (06_belvedere_gnss.md): the count of the VCO behind the sample clocks, in 2^-40 of its nominal period (R281,
R282); channels, notches by four times the input plus the notch, inputs, snapshot slots, jobs; the requests of the acquisition engine in arrival order,
and the host's; SEQ of the next time message; whether the solution is valid, and which inputs it uses; the last message (VALID, seconds, QERR, UTC
values), the count of the VCO at its pulse, when the solution first ceased to be valid since it, and whether its pulse was emitted and its UTC
values loaded; the second of domain 0 before its last tick (R310); accuracy of the present solution; the sums of the positions of the survey-in. -/
structure GnsSt where
  vco : Nat := 0
  chs : AMap GnsCh := []
  notches : AMap Notch := []
  ins : AMap GnsIn := []
  snaps : AMap Snap := []
  jobs : AMap Grotto := []
  seq : Nat := 0
  valid : Bool := false
  uses : List Nat := []
  tacc : Nat := 0
  msgValid : Bool := false
  msgSec : Nat := 0
  msgQerr : Int := 0
  msgUtc : Word := 0
  msgAt : Nat := 0
  lostAt : Option Nat := none
  emitted : Bool := false
  loaded : Bool := true
  sec0 : Nat := 0
  survey : Int × Int × Int := (0, 0, 0)
  acqs : List AcqWho := []
  acq : Acq := {}
  deriving DecidableEq, Repr

/-- A learn that waits in a Pavilion's learn queue (R469). -/
structure Learn where
  vid : Nat
  mac : Nat
  port : Nat
  deriving DecidableEq, Repr

/-- A slot of the move tracker (R472, R473): the address, its anchor (DTYPE in bit 16, DEST below), the move count, the elapsed time
at which its window ends, and, for a frozen address, the one at which its hold ends. -/
structure Track where
  vid : Nat
  mac : Nat
  anchor : Nat
  count : Nat
  ends : Nat
  frozen : Option Nat := none
  deriving DecidableEq, Repr

/-- A refresh in a refresh queue, or the entry a compare-and-delete names: the entry's place (a stream index is counted from 2^20) and
its key dwords. -/
structure EntryRef where
  place : Nat
  key : List Word
  deriving DecidableEq, Repr

/-- A compare-and-delete (R482, R483): the entry, the AGE read, and how many refreshes each Pavilion had issued before it. -/
structure AgeDel where
  ref : EntryRef
  age : Nat
  after : List Nat
  deriving DecidableEq, Repr

/-- A FLUSH whose deletions are in progress (R486): its filters, the ring and descriptor that complete, the entries deleted so far. -/
structure Flush where
  port : Nat
  vid : Nat
  ring : Nat
  desc : Nat
  count : Nat := 0
  deriving DecidableEq, Repr

/-- The forwarding tables and the table engine beyond their registers (09_forwarding_tables.md). One copy stands for the eight
replicas, which R30 keeps equal; per-Pavilion hit flags (R480) and unsound copies (R27) are masks by place, a group counted from 2^21. The
table banks whose repairs have reached RETIRE_LIM, as 8 x Pavilion + bank, until they are retired (R770). The cue slot for which
a table slot is HELD (R494), the learn and refresh queues by Pavilion, refreshes issued and committed by Pavilion, the Pavilion whose
learn was taken last, the move tracker, the elapsed time at which each locked bank was locked, compare-and-deletes and FLUSHes in progress,
ports whose deletions wait (R485); when the present age tick began (elapsed time), its length in units of 10 ms, and the LIMIT in force (R478, R500). -/
structure TblSt where
  l2 : AMap (List Word) := []
  st : AMap (List Word) := []
  grp : AMap (List Word) := []
  held : AMap Nat := []
  hits : AMap Nat := []
  bad : AMap Nat := []
  learnQ : AMap (List Learn) := []
  refQ : AMap (List EntryRef) := []
  refIn : AMap Nat := []
  refOut : AMap Nat := []
  lastLearn : Nat := 7
  track : List Track := []
  lockAt : AMap Nat := []
  dels : List AgeDel := []
  flushes : List Flush := []
  downs : List Nat := []
  worn : List Nat := []
  ageAt : Nat := 0
  agePer : Nat := 100
  ageLim : Nat := 300
  deriving DecidableEq, Repr

/-- A frame inside the switch core: its bytes from DA through FCS, its ingress port and class, its ingress stamp as a compact stamp (none
for frames of the host and compute ports) and its ingress node time, the VLAN action of its forwarding result, the trunk or PTP port
whose transparent-clock correction applies (R205), and the group that its forwarding result named. -/
structure Frame where
  id : Nat
  bytes : List Byte
  ing : Nat
  cls : Nat
  stamp : Option Nat := none
  inNode : Nat := 0
  vact : Nat := 0
  newVid : Nat := 0
  tc : Option Nat := none
  grp : Option Nat := none
  deriving DecidableEq, Repr

/-- One copy of a frame in a queue: its port, whether it went to the Orangery tier, whether it is one of several, whether it is sent
cut-through, when it was admitted (elapsed time), and the ring and descriptor of a stamped transmit (R630). -/
structure Copy where
  f : Frame
  port : Nat
  tier : Bool := false
  mc : Bool := false
  ct : Bool := false
  since : Nat := 0
  done : Option (Nat × Nat) := none
  deriving DecidableEq, Repr

/-- A frame in a parse FIFO that waits for the crossbar, with its egress ports in one Pavilion (R399). -/
structure XFrame where
  f : Frame
  ports : List Nat
  mc : Bool := false
  ct : Bool := false
  done : Option (Nat × Nat) := none
  deriving DecidableEq, Repr

/-- A frame in transmission: the copy, the bytes being sent, its egress stamp, the elapsed times at which it started and ends. On a trunk or local
port its bytes and its stamp are those of `LineFrame`. -/
structure TxNow where
  c : Copy
  bytes : List Byte
  stamp : Nat
  start : Nat
  ends : Nat
  deriving DecidableEq, Repr

/-- A frame in the word stream of a trunk or local port (R365): the copy, the words before its SOF and up to its EOF inclusive that have not left,
its bytes, its egress stamp once its SOF has left, the elapsed time at which the port took it. -/
structure LineFrame where
  c : Copy
  sof : Nat
  eof : Nat
  bytes : List Byte
  stamp : Option Nat := none
  start : Nat
  deriving DecidableEq, Repr

/-- A port's scheduler beyond its registers (R415 to R427, R436 to R440): since when a flush has been in progress (elapsed time), the frame in transmission, the
deficits of TC0 to TC3 and whose turn it is, with the quantum given, the shapers' tokens (in 2^-40 byte) and when they were reckoned, the
credits of TC4 and TC5 (in kbit/s times 2^-40 ns), the node time from which the gates act, and the one until which the last entry of a new
list stays in force (R527). -/
structure PortSw where
  flushing : Option Nat := none
  tx : Option TxNow := none
  deficit : AMap Nat := []
  turn : Nat := 3
  given : Bool := false
  tokens : AMap (Int × Nat) := []
  credit4 : Int := 0
  credit5 : Int := 0
  gateFrom : Nat := 0
  lastUntil : Nat := 0
  deriving DecidableEq, Repr

/-- A sampled copy on its way to its ring (R441 to R443). -/
structure Sample where
  ring : Nat
  port : Nat
  cls : Nat
  len : Nat
  trunc : Nat
  stamp : Nat
  bytes : List Byte
  deriving DecidableEq, Repr

/-- The switch core beyond its registers (08_switch_core.md): the next frame's number; the parse FIFOs by ((ingress port x 9) + egress
attachment) x 3 + level, with the elapsed time since which each has had its head; the ingress attachment served last by egress
attachment and level; when the last frame granted to an egress attachment has streamed across (elapsed time); the queues by 8 x port + class; the ports' schedulers; the pages that frames take from the shared pools, by
frame number and Pavilion (8 the Gatehouse); the Gatehouse's sample queue; the Orangery meter's tokens and when they were reckoned; the
frames delivered to each Pavilion's compute port and not yet taken. -/
structure SwSt where
  next : Nat := 0
  fifos : AMap (List XFrame) := []
  heads : AMap Nat := []
  served : AMap Nat := []
  across : AMap Nat := []
  queues : AMap (List Copy) := []
  ports : AMap PortSw := []
  shared : AMap Nat := []
  samples : List Sample := []
  meter : Nat := 524288 * 2 ^ 40
  meterAt : Nat := 0
  inbox : AMap (List Frame) := []
  deriving DecidableEq, Repr

/-- A change of a job parameter (R508, R579 to R581): its first sample, its length in samples, its shape, the value it starts from in units
of 2^-149, its target, and whether a cue made it. -/
structure Ramp where
  k0 : Nat
  len : Nat
  shape : Nat
  target : Word
  cue : Bool
  deriving DecidableEq, Repr

/-- A parameter: its value in units of 2^-149 before the changes `chgs`, the one with the latest first sample first. -/
structure Param where
  value : Int
  chgs : List Ramp := []
  deriving DecidableEq, Repr

/-- A move of a job (R595, R596): the destination cell, the step (0 to be copied, 1 copied, 2 both cells run), the failed tries. -/
structure Move where
  dst : Nat
  step : Nat := 0
  tries : Nat := 0
  deriving DecidableEq, Repr

/-- A source of an E131_MERGE job (R583): CID, priority, elapsed time of its last packet, its slots, its order of first arrival. -/
structure DmxSrc where
  cid : Nat
  prio : Nat
  lastAt : Nat
  slots : List Byte
  idx : Nat
  deriving DecidableEq, Repr

/-- The descriptor of a parameter of a CUSTOM job (R578): MIN, MAX, DEFAULT, STEP_ONLY. -/
structure ParamDesc where
  mn : Word
  mx : Word
  dflt : Word
  step : Bool
  deriving DecidableEq, Repr

/-- The memory of a second-order section (R578): the last two samples in and the last two out. -/
structure Section where
  x1 : Word := 0
  x2 : Word := 0
  y1 : Word := 0
  y2 : Word := 0
  deriving DecidableEq, Repr

/-- A job (11_bandstand_and_placement.md): its record (R572) and, for a CUSTOM job, what its image declares (R587); its cell; whether it has
started, its block in processing and the outputs of that block, at how many publications in a row its block was unfinished, whether it is to stop; its parameters; the non-zero gains of
its matrix sets by ((set x NOUT) + row) x NIN + column; its bytes in data memory and its gain sets and delay line in the Orangery; its
counters and its move; the state of a packet job: sources, merged slots, whether they changed, the time of the last packet sent, SEQ,
sequence numbers passed, newest first, SSRC, the universe merged; the blocks since the last meter report; the history of each channel of a delay line by sample
index; the sections of a BIQUAD job by 16 x channel + stage; of each channel of a METER job the greatest magnitude and the sum of the squares, in units of
2^-298, since the last report; whether containment left it without a cell
(R775). -/
structure Job where
  kind : Nat
  rate : Nat
  blog : Nat
  ins : List Nat
  outs : List Nat
  arg0 : Nat
  arg1 : Nat
  hint : Nat
  near : Nat
  c0 : Nat := 0
  c1 : Nat := 0
  descs : List ParamDesc := []
  stateLen : Nat := 0
  orgKib : Nat := 0
  cell : Nat
  started : Bool := false
  proc : Option Nat := none
  out : List (List Word) := []
  behind : Nat := 0
  stopping : Bool := false
  params : AMap Param := []
  gains : AMap Word := []
  dm : Nat := 0
  orgSets : List Nat := []
  orgDelay : Bool := false
  blocks : Nat := 0
  overs : Nat := 0
  late : Nat := 0
  moves : Nat := 0
  failCode : Nat := 0
  move : Option Move := none
  srcs : List DmxSrc := []
  merged : List Byte := []
  changed : Bool := false
  sentAt : Nat := 0
  seq : Nat := 0
  passed : List Nat := []
  ssrc : Option Nat := none
  univ : Option Nat := none
  sinceReport : Nat := 0
  line : List (AMap Word) := []
  secs : AMap Section := []
  meters : List (Nat × Nat) := []
  homeless : Bool := false
  deriving DecidableEq, Repr

/-- A stream (R573), the sample index of its next packet, its RTP sequence number, and the packets that it carried in the second past
(R576). -/
structure Stream where
  skind : Nat
  rate : Nat
  enc : Nat
  grp : Nat
  ch : Nat
  ptime : Nat
  linkOfs : Nat
  tapBase : Nat
  rtpOfs : Nat
  tpl : List Byte
  cls : Nat
  next : Option Nat := none
  seq : Nat := 0
  pps : Nat := 1000
  count : Nat := 0
  since : Nat := 0
  inPort : Option Nat := none
  deriving DecidableEq, Repr

/-- A compute cell beyond its registers: whether it is ready for jobs, not gated (R600); whether its EN was cleared and its evacuation not
yet announced; whether the spare serves its slot; whether it is retired with no spare (R770); the cycles it has run that no report has classed yet (R599);
whether its load stands above LOAD_MAX. -/
structure CellSt where
  ran : Nat := 0
  high : Bool := false
  ready : Bool := false
  evac : Bool := false
  spare : Bool := false
  gone : Bool := false
  deriving DecidableEq, Repr

/-- A block clock (R557, R562): the index of its last boundary and when that strobe fell (elapsed time). -/
structure BlockClk where
  n : Nat
  at_ : Nat
  deriving DecidableEq, Repr

/-- The Bandstand and the placement engine beyond their registers: jobs and streams by handle, cells by 16 times the Pavilion plus the slot,
the samples of taps by tap and sample index, the block clocks by 16 times the rate plus BLOCK_LOG, the elapsed time since which a best-effort
queue has stood above ORG_UP or below ORG_DOWN (R598), by 8 x port + class; whether the bandwidth committed stands above 90 % of its limit. -/
structure PlcSt where
  jobs : AMap Job := []
  streams : AMap Stream := []
  cells : AMap CellSt := []
  taps : AMap (AMap Word) := []
  clocks : AMap BlockClk := []
  above : AMap Nat := []
  below : AMap Nat := []
  bwHigh : Bool := false
  deriving DecidableEq, Repr

/-- An action of a cue: its dwords (R506), the table slot held for it (R494), whether an uncorrectable ECC error has hit it (R515). -/
structure Act where
  dws : List Word
  held : Option Nat := none
  bad : Bool := false
  deriving DecidableEq, Repr

/-- What the root has heard of a member of a fabric cue (CUE_FAB_ANSWER). -/
structure Answer where
  ready : Bool := false
  failed : Bool := false
  reported : Bool := false
  status : Nat := 0
  reason : Nat := 0
  deriving DecidableEq, Repr

/-- A cue in a slot (10_cue_transactions.md): its image's dwords, the actions of this node in image order, T; the ring and descriptor it came
by; its staging number; for a fabric cue the root's node, FCUE_ID, whether it is rooted here, whether ARM or ABORT was
sent and the answers of its members by node. -/
structure Cue where
  image : List Word
  acts : List Act := []
  t : Nat
  ring : Option (Nat × Nat) := none
  order : Nat := 0
  root : Nat := 0
  fid : Nat := 0
  own : Bool := false
  armed : Bool := false
  aborted : Bool := false
  finished : Bool := false
  answers : AMap Answer := []
  deriving DecidableEq, Repr

/-- A clean switch (R529 to R534): its groups, port, RATE and SWP_OFS; the cue's slot while it is staged; the switch point once its cue has
committed, whether it has come, whether each side has switched. -/
structure Csw where
  src : Nat
  dst : Nat
  port : Nat
  rate : Nat
  ofs : Nat
  slot : Option Nat
  point : Nat := 0
  reached : Bool := false
  offDone : Bool := false
  onDone : Bool := false
  deriving DecidableEq, Repr

/-- The node's last PRESENCE at the root (R536): when it came (elapsed time), CUE_MIN and CUE_MAX. -/
structure Presence where
  at_ : Nat
  mn : Nat
  mx : Nat
  deriving DecidableEq, Repr

/-- The fragments of a PREPARE that is being gathered (R538, R541): root, FCUE_ID, fragments by number, their count. -/
structure Gather where
  root : Nat
  fid : Nat
  frags : AMap (List Byte) := []
  total : Nat
  deriving DecidableEq, Repr

/-- A class-S change that a cue made, waiting for B (R526, R527): port, node time B, the writes as address, value and mask. -/
structure SchedChange where
  port : Nat
  due : Nat
  writes : List (Nat × Word × Word)
  deriving DecidableEq, Repr

/-- A cue descriptor in validation (R510): the ring and descriptor, the code found so
far, the image and its length in bytes, the slot that reads VALIDATING. -/
structure Waiting where
  ring : Nat
  desc : Nat
  code : Nat
  image : List Word
  len : Nat
  slot : Option Nat
  deriving DecidableEq, Repr

/-- The cue engine beyond its registers: cues by slot, descriptors in validation, staging and fabric-cue sequence numbers, clean
switches, PRESENCE by node, the elapsed time from which this node's next PRESENCE may leave, PREPAREs being gathered, messages forwarded already as (root, FCUE_ID, MTYPE, FRAG), messages that wait for
the upstream port, schedule changes waiting for B, the answers of the last fabric cue rooted here. -/
structure CueSt where
  cues : AMap Cue := []
  waiting : List Waiting := []
  order : Nat := 0
  fid : Nat := 0
  csws : List Csw := []
  nodes : AMap Presence := []
  presentAt : Nat := 0
  gathers : List Gather := []
  seen : List (Nat × Nat × Nat × Nat) := []
  outbox : List (List Byte) := []
  changes : List SchedChange := []
  last : AMap Answer := []
  deriving DecidableEq, Repr

/-- A write of the NVM in progress or waiting (R271, R743): where, which bytes, and for a window write the offset in the block and the
master it answers for. -/
structure NvmJob where
  addr : Nat
  data : List Byte
  win : Option (Nat × Master) := none
  deriving DecidableEq, Repr

/-- The NVM (R742): its bytes by offset, 0 where none is listed, the writes in progress, oldest first, and the slot of each calibration record that
the device wrote last (R272), by where the record stands. -/
structure NvmSt where
  bytes : AMap Byte := []
  jobs : List NvmJob := []
  lastSlot : AMap Nat := []
  deriving DecidableEq, Repr

/-- One position of a port's word stream (R354, R364): a control or a data word. -/
structure LineWord where
  ctl : Bool
  val : BitVec 64
  deriving DecidableEq, Repr

/-- A frame that a receiver has open (R365 to R368): the class of its SOF, its bytes so far, and when the superblock of its SOF arrived, in
2^-40 ns after the last tick of the Sundial. -/
structure RxOpen where
  cls : Nat
  bytes : List Byte
  sub : Nat
  deriving DecidableEq, Repr

/-- A lane of a trunk or local port beyond its registers: the run of equal bits that its transmitter and its receiver have counted, as the bit
and the length (R357, R361); consecutive superblocks with good SYNC and HCHK and consecutive bad ones (R371); the SBSEQ of its last superblock; the superblocks that wait for
those of the port's other lanes (R369, R370), oldest first: SBSEQ, arrival on the `State.elapsed` scale, the words (none for a bad one); when its eye
scan began (R391). -/
structure LaneSt where
  txRun : Bool × Nat := (false, 0)
  rxRun : Bool × Nat := (false, 0)
  good : Nat := 0
  bad : Nat := 0
  seq : Nat := 0
  got : List (Nat × Nat × Option (List LineWord)) := []
  eyeAt : Nat := 0
  deriving DecidableEq, Repr

/-- A trunk or local port beyond its registers (R374 to R383): the elapsed times of its last progress and of its leaving NEGOTIATE; the step
announced, by this end or by the peer, as rate and STEP_AT; the peer's last NEG word; the SBSEQ of its next superblock; the words of its stream
that have not left (R360, R365) and the frames in it, the time words and WAKE words that wait for a superblock; the frame its
receiver has open; where its phase window was centred, as the arrival of a superblock (elapsed time) and the superblocks since (R372); consecutive
superblocks in VERIFY with none bad; for an Ethernet port, when it last received a fault (R351). -/
structure PortSt where
  since : Nat := 0
  leftNeg : Nat := 0
  stepRate : Nat := 0
  stepAt : Nat := 0
  peer : Option (BitVec 64) := none
  sb : Nat := 0
  out : List LineWord := []
  frames : List LineFrame := []
  times : AMap (List Word) := []
  wakes : List Nat := []
  rx : Option RxOpen := none
  phase : Option (Nat × Nat) := none
  checked : Nat := 0
  faultAt : Option Nat := none
  deriving DecidableEq, Repr


/-- A change of power state in progress (R701 to R720).
`trim` is R711 and `untrim` R712; `hold` is an entry to P2 before its commit point (R716 steps 1, 2) from P1 when
`fromP1`, with P3 as its final target when `toP3`; `gating` is that entry from its commit point to its end; `linkWait`
is R718 step 1, already committed when it followed an entry to P2; `lastSecond` is R718 steps 2 and 3; `railsOff` is
R718 steps 4 and 5; `leave` is a departure from P2 (R717) toward P1 when `toP1`; `restart` is a restart from P3 (R719). -/
inductive Change where
  | idle
  | trim
  | untrim
  | hold (fromP1 toP3 : Bool)
  | gating (toP3 : Bool)
  | linkWait (committed : Bool)
  | lastSecond
  | railsOff
  | leave (toP1 : Bool)
  | restart
  deriving DecidableEq, Repr

/-- The interrupt controller beyond its registers (13_interrupts_and_wake.md): the priority stacks, top first, by target
0 to 260; the sources that latched in P3 (R695). -/
structure IrqSt where
  prioStacks : AMap (List Nat) := []
  p3Latched : List Nat := []
  deriving DecidableEq, Repr

/-- The power manager and the Lodge beyond their registers (14_power_and_feeds.md). Times are in units of 2^-40 ns. -/
structure PwrSt where
  change : Change := .idle
  /-- the watched source that latched after a commit point (R709) -/
  deferred : Option Nat := none
  /-- every trunk port sends HOLD (R383, R716) -/
  sendHold : Bool := false
  /-- gated Pavilions (R699, R700) -/
  gated : List Nat := []
  /-- when the change in progress began its present wait (R716, R718), as elapsed time -/
  stepAt : Nat := 0
  /-- second S of R718 -/
  lastSec : Nat := 0
  /-- the Lodge counter in 2^-40 ns as it stood at `lodgeAt` on the `State.elapsed` scale (R721, R723), and whether the Lodge runs (R736) -/
  lodge : Nat := 0
  lodgeAt : Nat := 0
  lodgeOn : Bool := true
  /-- no OSCIN edge has arrived for 1 µs (R833) -/
  lapse : Bool := false
  /-- the feed whose FET is on, 0 A or 1 B (R732 to R736); since when the preferred feed has been in range while the other is active (R735) -/
  fet : Option Nat := some 0
  holdSince : Option Nat := none
  /-- VHOLD is being charged (R738); since when, as elapsed time, while the bank has not passed 8.0 V nor the 5 s of R737 -/
  charging : Bool := false
  chargeAt : Option Nat := none
  /-- balls RAIL_EN and RAIL_GOOD; RAIL_EN within its 50 ms low (R800), and a rise of it that waits for their end -/
  railEn : Bool := true
  railGood : Bool := true
  railLow : Bool := false
  railWant : Bool := false
  /-- RAIL_EN has risen and RAIL_GOOD has not followed yet (R720) -/
  railWait : Bool := false
  /-- balls CHIP_RESET_N and PCIE_PERST_N held low, TESTEN high (R807, R805, R810) -/
  pinLow : Bool := false
  perstLow : Bool := false
  testen : Bool := false
  /-- the management core runs signed firmware (R32); firmware is loading since chip reset was released (R803, R814); the Gatehouse is ready for link training; the configuration image has been applied (R803) -/
  firmware : Bool := false
  loading : Bool := true
  ready : Bool := false
  imaged : Bool := false
  /-- while the Lodge emits PPS_OUT0 (R726, R808): its WIDTH in 2^-40 ns, its ADJ in ps, and the Lodge second of its next pulse -/
  lodgePps : Option (Nat × Int × Nat) := none
  /-- the Lodge second at which the Sundial was loaded, until it takes PPS_OUT0 back, and whether it has since chip reset (R719, R808) -/
  loaded : Option Nat := none
  handedBack : Bool := false
  /-- when each field output was turned off (R741), by bit of PWR_FIELD_STAT -/
  fieldAt : AMap Nat := []
  /-- the SEQ of the next WAKE word, whether a send is in progress, and the words acted on as (ORIGIN, SEQ, elapsed time) (R730, R731) -/
  wakeSeq : Nat := 0
  wakeBusy : Bool := false
  wakeSeen : List (Nat × Nat × Nat) := []
  /-- the instruction of the test access port (R811): 0 BYPASS, 1 IDCODE, 2 SAMPLE/PRELOAD, 3 EXTEST, 4 HIGHZ -/
  tap : Nat := 0
  /-- the cells that failed their self-test in the present chip reset, as 256 x kind + 16 x Pavilion + index (R770) -/
  failed : List Nat := []
  /-- the boundary register of the test access port (R811) -/
  boundary : List Bool := []
  /-- the subsystem vendor ID (upper half) and subsystem ID of the configuration image in use (R746, R804) -/
  subsys : Word := 0
  deriving DecidableEq, Repr

/-- The Gatehouse beyond its registers (12_host_rings.md). -/
structure HifSt where
  /-- vectors whose MSI-X message is held until the link and the function return (R662, R663, R689) -/
  held : List Nat := []
  /-- an exit of the link from L1 that the device has started (R662) -/
  l1Exit : Bool := false
  /-- PME_Status of the function (R662) -/
  pme : Bool := false
  /-- the function mask of the MSI-X capability (R657) -/
  fnMask : Bool := false
  /-- a function-level reset in progress (R639) -/
  flr : Bool := false
  /-- the transmit ring served last (R631) -/
  txLast : Nat := 255
  /-- rings and completion queues by number -/
  rings : AMap RingSt := []
  cqs : AMap CqSt := []
  deriving DecidableEq, Repr

/-- The output balls that carry edges (16_pins_package_electrical.md). -/
inductive Ball where
  | pps (k : Nat)
  | ltc (k : Nat)
  | wclk (k : Nat)
  | trig (k : Nat)
  | clkout (k : Nat)
  | feClk (n : Nat)
  | railEn
  | wakeN
  | fatalN
  | feedGateA
  | feedGateB
  deriving DecidableEq, Repr

/-- What leaves the machine, newest first in `State.sent`. The spec gives the machine no such record: it is the model's own
trace of its outputs, which no command reads. -/
inductive Output where
  | msix (vec : Nat)
  | pmPme
  /-- an edge of an output ball: its name by number (see `Sys2Proof.Machine.Ball`), its level, the node time of the edge in 2^-40 ns -/
  | edge (ball : Ball) (high : Bool) (at_ : Nat)
  /-- a frame of linear timecode: output, the node time at which its bit 0 starts, its 80 bits, bit 0 first -/
  | ltcFrame (k at_ : Nat) (bits : List Bool)
  /-- a trunk time word sent on a port: its eight dwords -/
  | timeWord (port : Nat) (dws : List Word)
  /-- a write of dwords to host memory: completion and event entries, reports -/
  | dma (addr : Nat) (dws : List Word)
  /-- a write of bytes to host memory: frames, table entries, snapshots -/
  | dmaBytes (addr : Nat) (bytes : List Byte)
  /-- a frame sent by a port, with its class; `cut` marks one ended with a stomped FCS or ABORT -/
  | frame (port cls : Nat) (bytes : List Byte) (cut : Bool)
  /-- an answer to a PCIe configuration request: Configuration Request Retry Status, or the dword read (0 for a write) -/
  | cfg (retry : Bool) (v : Word)
  /-- what an instruction of the test access port shifts out, and what EXTEST drives onto the balls; HIGHZ -/
  | tdo (bits : List Bool)
  | drive (bits : List Bool)
  | highz
  /-- a superblock that leaves lane `lane`: its line bits, the first one first -/
  | line (lane : Nat) (bits : List Bool)
  /-- the same at a PAM4 rate: the levels of its symbols (R339) -/
  | pam4 (lane : Nat) (levels : List Nat)
  /-- an Ethernet port begins to send remote fault, or idle and no frames (R351) -/
  | ordered (port : Nat) (remote : Bool)
  /-- what an Ethernet port advertises in auto-negotiation: the Clause, its rate code and its width (R352) -/
  | autoneg (port clause rate width : Nat)
  /-- a Fast Read of the boot flash in SPI mode 0 at 25 MHz (R813): what the device drives on FLASH_IO0 while FLASH_CS_N is low, a bit for each rising edge
  of FLASH_CLK, the most significant bit of each byte first, and how many clocks follow for the data after the 8 dummy clocks -/
  | flash (out : List Bool) (dataClocks : Nat)
  /-- balls FLASH_CLK, FLASH_CS_N and FLASH_IO0 to FLASH_IO3 are driven from now on, or are high impedance (R814) -/
  | flashDrive (on : Bool)
  deriving DecidableEq, Repr

/-- The state of the chip. -/
structure State where
  /-- the commands waiting, first in, first out -/
  pending : List Instr := []
  /-- every register at other than its reset value, by canonical BAR0 offset -/
  regs : AMap Word := []
  /-- open dual-write pairs, by block base plus master number (R60) -/
  dw : AMap DwPair := []
  /-- the masters that hold a mode key (R65) -/
  keys : List Nat := []
  /-- latched high halves, by eight times the high register's offset plus the master number (R86) -/
  latched : AMap Word := []
  /-- the data that the last read returned: the MODEL's own port to the outside -/
  busOut : Word := 0
  /-- the data of the further dwords of a wider read (R48): the MODEL's own port too -/
  busMore : List Word := []
  /-- how many free values have been drawn: the MODEL's own (log entry 2) -/
  fresh : Nat := 0
  /-- what has left the machine, newest first: the MODEL's own -/
  sent : List Output := []
  /-- time since chip reset in 2^-40 ns of the Sundial tick, for windows that have no command of their own: the MODEL's own (log entry 5) -/
  elapsed : Nat := 0
  /-- the chip is held in reset or unpowered, but for the Lodge -/
  held : Bool := false
  /-- ball PCIE_WAKE_N driven low by the Lodge or the Gatehouse (R662, R694) -/
  wakeNLow : Bool := false
  irq : IrqSt := {}
  pwr : PwrSt := {}
  hif : HifSt := {}
  clk : ClkSt := {}
  sun : SunSt := {}
  mon : MonSt := {}
  tdc : TdcSt := {}
  gns : GnsSt := {}
  tbl : TblSt := {}
  sw : SwSt := {}
  plc : PlcSt := {}
  cue : CueSt := {}
  nvm : NvmSt := {}
  ports : AMap PortSt := []
  lanes : AMap LaneSt := []
  /-- the ports that are strictly better than the present upstream port, each with the elapsed time since when (R387) -/
  upBetter : AMap Nat := []
  deriving DecidableEq, Repr

/-- The machine right after reset: every register at its reset value, every queue and buffer empty, chip reset released. -/
def State.reset : State := {}

end Sys2Proof.Machine
end

