-- ==== Sys2Proof/Machine/Ops.lean ====
section
/-!
DEFINITION. Ops.lean: the named operations over the register file, the outputs and the free values, which every
meaning is written with.
-/
namespace Sys2Proof.Machine

/-- The value a register holds (not what a read of it returns: `Sys2Proof.Machine.readView`). -/
def State.rd (s : State) (a : Nat) : Word := AMap.getD s.regs a (resetOf a)

/-- The register at `a` takes `v`. The file keeps its canonical form: a register at its reset value is not listed. -/
def State.wr (s : State) (a : Nat) (v : Word) : State := { s with regs := AMap.put s.regs a v (resetOf a) }

/-- A field of a register. -/
def State.fld (s : State) (a hi lo : Nat) : Nat := bits (s.rd a) hi lo

/-- A bit of a register. -/
def State.flag (s : State) (a i : Nat) : Bool := bit (s.rd a) i

/-- Write one field of a register. -/
def State.setFld (s : State) (a hi lo x : Nat) : State := s.wr a (putBits (s.rd a) hi lo x)

/-- Write one bit of a register. -/
def State.setFlag (s : State) (a i : Nat) (b : Bool) : State := s.setFld a i i (if b then 1 else 0)

/-- Set the bits of `v` in a register. -/
def State.orReg (s : State) (a : Nat) (v : Word) : State := s.wr a (setOnes (s.rd a) v)

/-- Clear the bits of `v` in a register. -/
def State.clrReg (s : State) (a : Nat) (v : Word) : State := s.wr a (clearOnes (s.rd a) v)

/-- A 32-bit counter counts `n` events (R79). -/
def State.count (s : State) (a : Nat) (n : Nat := 1) : State := s.wr a (satWord (s.rd a) n)

/-- The number a register pair holds, low half first. -/
def State.rd64 (s : State) (a : Nat) : Nat := join (s.rd (a + 4)) (s.rd a)

/-- Write a register pair, low half first. -/
def State.wr64 (s : State) (a n : Nat) : State := (s.wr a (loHalf n)).wr (a + 4) (hiHalf n)

/-- A 64-bit counter counts `n` events (R79, R86). -/
def State.count64 (s : State) (a n : Nat) : State := s.wr64 a (satAdd 64 (s.rd64 a) n)

/-- A 64-bit counter that the register map keeps as one live value: its low register and a high register (R86). -/
def State.rdLive64 (s : State) (a : Nat) : Nat := s.rd64 a

/-- Something leaves the machine. -/
def State.emit (s : State) (o : Output) : State := { s with sent := o :: s.sent }

/-- The next free word: the spec does not state it (log entry 2). -/
def State.free (s : State) : Word := Config.freeWord s.fresh

/-- A code of R93 that the spec does not state: free within 0x00 to 0x14. -/
def State.freeCode (s : State) : Nat := s.free.toNat % 21

/-- Move on to the next free value. -/
def State.drawn (s : State) : State := { s with fresh := s.fresh + 1 }

/-- PWR_STATUS.STATE (R698). -/
def State.pstate (s : State) : Nat := s.fld (pwrB + 0x040) 31 30

/-- CHP_MODE.MODE (R64): 0 START, 1 SERVICE, 2 TEST, 3 RECOVERY. -/
def State.mode (s : State) : Nat := s.fld (chpB + 0x040) 3 0

/-- The registers answer: the chip is not held in reset and not in P3, where the Gatehouse is off (R36, R710). -/
def State.alive (s : State) : Bool := !s.held && decide (s.pstate ≠ 3)

/-- Has containment isolated Pavilion `r` (MON_PAV_SUM.PAV_ISOLATED, R778)? -/
def State.pavIsolated (s : State) (r : Nat) : Bool := s.flag (pavBase r + 0x70040) 31

/-- Every meaning of this model answers a next state. -/
abbrev Result := Host.Outcome State Fault Refusal

/-- Apply a function to the state for each element of a list, in order. -/
def forEach {α : Type} (l : List α) (s : State) (g : α → State → State) : State := l.foldl (fun t a => g a t) s

/-- The record of a trunk or local port. -/
def portRec (s : State) (p : Nat) : PortSt := AMap.getD s.ports p {}
/-- Replace it. -/
def setPortRec (s : State) (p : Nat) (x : PortSt) : State := { s with ports := AMap.put s.ports p x {} }
/-- The record of a lane. -/
def laneRec (s : State) (l : Nat) : LaneSt := AMap.getD s.lanes l {}
/-- Replace it. -/
def setLaneRec (s : State) (l : Nat) (x : LaneSt) : State := { s with lanes := AMap.put s.lanes l x {} }

end Sys2Proof.Machine
end

