-- ==== Sys2Proof/Machine/Irq.lean ====
section
/-!
DEFINITION. Irq.lean: the interrupt controller of 13_interrupts_and_wake.md (R669 to R697): latching a source, judging
what is deliverable, the priority stacks, MSI-X messages with the sleeping-host rules of 12_host_rings.md (R656 to
R663), and the start of a wake (R692, R706 to R710, R834).
-/
namespace Sys2Proof.Machine

/-- The pending bit of source `n` (R674). -/
def srcPend (s : State) (n : Nat) : Bool := s.flag (irqB + 0x100 + 8 * (n / 32)) (n % 32)
/-- The mask bit of source `n` (R674). -/
def srcMask (s : State) (n : Nat) : Bool := s.flag (irqB + 0x180 + 8 * (n / 32)) (n % 32)
/-- The IRQ_ACTIVE bit of source `n` (R681). -/
def srcActive (s : State) (n : Nat) : Bool := s.flag (irqB + 0x200 + 4 * (n / 32)) (n % 32)

/-- Set or clear the pending bit of a source. -/
def setPend (s : State) (n : Nat) (b : Bool) : State := s.setFlag (irqB + 0x100 + 8 * (n / 32)) (n % 32) b
/-- Set or clear the IRQ_ACTIVE bit of a source. -/
def setActive (s : State) (n : Nat) (b : Bool) : State := s.setFlag (irqB + 0x200 + 4 * (n / 32)) (n % 32) b

/-- IRQ_TGTs of source `n` (R677). -/
def tgtReg (n : Nat) : Nat := irqB + 0x1000 + 4 * n

/-- PRIO of a source. -/
def srcPrio (s : State) (n : Nat) : Nat := s.fld (tgtReg n) 19 16

/-- The target of a source: host vectors 0 to 255, cores as 256 to 259, the Lodge as 260. -/
def srcTarget (s : State) (n : Nat) : Nat :=
  match s.fld (tgtReg n) 13 12 with
  | 0 => s.fld (tgtReg n) 7 0
  | 1 => 256 + s.fld (tgtReg n) 9 8
  | _ => 260

/-- The priority stack of a target, top first. -/
def irqStack (s : State) (t : Nat) : List Nat := AMap.getD s.irq.prioStacks t []

/-- The stack of a target becomes `l`; an empty stack is not listed. -/
def setStack (s : State) (t : Nat) (l : List Nat) : State :=
  { s with irq := { s.irq with prioStacks := AMap.put s.irq.prioStacks t l [] } }

/-- Deliverable to its target: pending, unmasked, PRIO strictly above the top of the target's stack (R680). -/
def deliverable (s : State) (n : Nat) : Bool :=
  srcPend s n && !srcMask s n &&
  match irqStack s (srcTarget s n) with
  | [] => true
  | top :: _ => decide (srcPrio s top < srcPrio s n)

/-- The bits of a word that are set, rising. -/
def onesOf (v : Word) : List Nat := (List.range 32).filter fun i => bit v i

/-- Every pending source, rising. -/
def pendingSources (s : State) : List Nat :=
  (List.range 16).flatMap fun w =>
    let v := s.rd (irqB + 0x100 + 8 * w)
    if v = 0 then [] else (onesOf v).map (32 * w + ·)

/-- Is the host port down (R639)? -/
def hostPortDown (s : State) : Bool :=
  decide (s.fld (hifB + 0x040) 29 28 ≠ 0) || !s.flag (hifB + 0x040) 31 || !s.flag (hifB + 0x040) 30 || s.hif.flr

/-- HIF_STATUS.LINK. -/
def linkState (s : State) : Nat := s.fld (hifB + 0x040) 19 16

/-- Can an MSI-X message leave now: function in D0 with MSI-X enabled, bus master, link in L0? -/
def canSend (s : State) : Bool := !hostPortDown s && decide (linkState s = 0)

/-- Send vector `v`'s message, subject to the vector's mask, the function mask and the pending bits of PCIe (R657, R687). -/
def msixEmit (s : State) (v : Nat) : State :=
  if s.hif.fnMask || s.flag (hifB + 0x800C + 0x10 * v) 0 then
    s.setFlag (hifB + 0x9000 + 4 * (v / 32)) (v % 32) true
  else (s.setFlag (hifB + 0x9000 + 4 * (v / 32)) (v % 32) false).emit (.msix v)

/-- Hold vector `v`'s message; messages held for one vector merge into one (R662, R663). -/
def holdVec (s : State) (v : Nat) : State :=
  if s.hif.held.contains v then s else { s with hif := { s.hif with held := s.hif.held ++ [v] } }

/-- The exit or wake of R662: L1 exit from D0; PM_PME from D3hot; PCIE_WAKE_N from D3cold. -/
def wakeHost (s : State) : State :=
  if s.fld (hifB + 0x040) 29 28 = 0 then
    if linkState s = 1 ∨ linkState s = 2 ∨ linkState s = 3 then { s with hif := { s.hif with l1Exit := true } } else s
  else if linkState s = 4 then { s with wakeNLow := true, hif := { s.hif with pme := true } }
  else ({ s with hif := { s.hif with pme := true } }).emit .pmPme

/-- A completion queue's firing signals vector `v` (R657, R662, R663). -/
def cqSignal (s : State) (v : Nat) : State :=
  if canSend s then msixEmit s v
  else
    let t := holdVec s v
    if s.flag (hifB + 0x054) 0 then wakeHost t else t

/-- The interrupt controller signals host vector `v` (R687 to R689). -/
def irqSignal (s : State) (v : Nat) : State :=
  if canSend s then msixEmit s v
  else
    let t := if hostPortDown s then s else holdVec s v
    if s.flag (irqB + 0x044) 0 then wakeHost t else t

/-- The Lodge claims a source and completes it at once: its pending bit clears and IRQ_LODGE_LAST names it (R685). -/
def lodgeClaim (s : State) (n : Nat) : State :=
  (setPend s n false).wr (irqB + 0x074) (bitW 31 true ||| w32 n)

/-- Sources in the order in which a target claims them: PRIO falling, then number rising (R681). -/
def claimOrder (s : State) (ns : List Nat) : List Nat :=
  (List.range 16).reverse.flatMap fun p => ns.filter fun n => srcPrio s n = p

/-- Signal what one change has made deliverable: one message per host vector, the Lodge's own claims (R685, R687). -/
def notifyAll (s : State) (ns : List Nat) : State :=
  let lodge := claimOrder s (ns.filter fun n => srcTarget s n = 260)
  let vecs := ((ns.map (srcTarget s)).filter (· < 256)).eraseDups
  forEach vecs (forEach lodge s fun n t => lodgeClaim t n) fun v t => irqSignal t v

/-- Judge deliverability after a change: `before` is the state before it, `s` after it, `ns` the sources it may touch. -/
def rejudge (before s : State) (ns : List Nat) : State :=
  notifyAll s (ns.filter fun n => deliverable s n && !deliverable before n)

/-- The wake sources of R691: those that wake from P2, and those that wake from P3 too. -/
def wakesP2 (n : Nat) : Bool :=
  (decide (32 ≤ n) && decide (n ≤ 75)) || (decide (80 ≤ n) && decide (n ≤ 87)) || (decide (96 ≤ n) && decide (n ≤ 111)) ||
  (decide (128 ≤ n) && decide (n ≤ 133)) || (decide (448 ≤ n) && decide (n ≤ 456))
/-- See `wakesP2`. -/
def wakesP3 (n : Nat) : Bool := decide (448 ≤ n) && decide (n ≤ 454)

/-- IRQ_WAKEi. -/
def wakeReg (i : Nat) : Nat := irqB + 0x280 + 4 * i

/-- The enabled wake entry that watches source `n` (R691). -/
def watcher (s : State) (n : Nat) : Option Nat :=
  (List.range 32).find? fun i => s.flag (wakeReg i) 31 && decide (s.fld (wakeReg i) 8 0 = n)

/-- Is a source watched by an enabled entry? -/
def watched (s : State) (n : Nat) : Bool := (watcher s n).isSome

/-- Does a source latch at all? Not while the chip is held in reset, but for FEED_FAULT, and none while CHIP_RESET_N holds it (R806, R807); in
P3 only those that wake from P3 (R692); not a source of an isolated Pavilion (R778). -/
def canLatch (s : State) (n : Nat) : Bool :=
  if s.pstate = 3 then wakesP3 n
  else (!s.held || (decide (n = 450) && !s.pwr.pinLow)) && !(decide (192 ≤ n) && decide (n ≤ 447) && s.pavIsolated ((n - 192) / 32))

/-- A hardware edge of source `n` latches its pending bit and is signalled if it becomes deliverable (R673, R675, R687).
In P3 the controller is off, and the source is kept for the restart (R695). -/
def latchPend (s : State) (n : Nat) : State :=
  if canLatch s n then
    if s.pstate = 3 then
      if s.irq.p3Latched.contains n then s else { s with irq := { s.irq with p3Latched := s.irq.p3Latched ++ [n] } }
    else rejudge s (setPend s n true) [n]
  else s

/-- IRQ_WAKE_LAST names the source (R707, R709). -/
def setWakeLast (s : State) (n : Nat) : State := s.wr (irqB + 0x300) (bitW 31 true ||| w32 n)

/-- PWR_CFG.WAKE_TO is P1 (R710). -/
def wakeToP1 (s : State) : Bool := s.flag (pwrB + 0x050) 0

/-- PWR_SLEEP_STATUS takes RESULT and SRC. -/
def setResult (s : State) (result src : Nat) : State :=
  s.wr (pwrB + 0x04C) (fieldW 31 28 result ||| fieldW 8 0 src)

/-- The power-state change in progress becomes `c`, with TARGET `t` in PWR_STATUS. -/
def setChange (s : State) (c : Change) (t : Nat) : State :=
  ({ s with pwr := { s.pwr with change := c } }).setFld (pwrB + 0x040) 29 28 t

/-- A wake starts (R692, R710, R719 step 1): from P2 a departure toward WAKE_TO; from P3 a restart, with PCIE_WAKE_N driven
low by an entry with DRIVE_WAKE_N (R694). -/
def startWake (s : State) (n : Nat) : State :=
  let s1 := setWakeLast (s.count (pwrB + 0x108)) n
  let toward := if wakeToP1 s then 1 else 0
  if s.pstate = 2 then setResult (setChange s1 (.leave (wakeToP1 s)) toward) 1 0
  else
    let low := match watcher s n with
      | some i => s.flag (wakeReg i) 30
      | none => false
    setChange { s1 with wakeNLow := s1.wakeNLow || low } .restart 3

/-- STATE_DONE is raised (PWR_EVENT bit 8, source 456) by a change that ends or stops: it never counts as a watched source
of that change, and starts a wake only when it is raised in P2 by a change that leaves the device in P2 (R834). -/
def stateDone (s : State) (mayWake : Bool) : State :=
  let s1 := latchPend (s.orReg (pwrB + 0x044) (bitW 8 true)) 456
  if mayWake && decide (s1.pstate = 2) && watched s1 456 then startWake s1 456 else s1

/-- An entry to P2 or P3 is undone before its commit point (R705, R707, R714): the state stays as it was, RESULT and SRC tell
why, and STATE_DONE is raised. -/
def abortEntry (s : State) (result src : Nat) : State :=
  let s1 := setResult (setChange s .idle s.pstate) result src
  let s2 := { s1 with pwr := { s1.pwr with deferred := none, sendHold := s1.pwr.sendHold && s.pstate == 2 } }
  stateDone (s2.count (pwrB + 0x10C)) true

/-- What a latched source does to sleep (R692, R706, R709): it starts a wake in P2 or P3, stops an entry before its commit
point, and is kept for the end of an entry after it. -/
def wakeJudge (s : State) (n : Nat) : State :=
  if !(watched s n) then s
  else
    match s.pwr.change with
    | .idle => if s.pstate = 2 ∨ s.pstate = 3 then startWake s n else s
    | .hold _ _ => abortEntry (setWakeLast s n) 4 n
    | .linkWait false => abortEntry (setWakeLast s n) 4 n
    | .gating _ | .linkWait true | .lastSecond | .railsOff =>
      if s.pwr.deferred.isSome then s else { s with pwr := { s.pwr with deferred := some n } }
    | .trim | .untrim | .leave _ | .restart => s

/-- Hardware sets a bit that drives source `n`: the source latches and the sleep rules are judged (R673, R692). -/
def latchSource (s : State) (n : Nat) : State :=
  if canLatch s n then wakeJudge (latchPend s n) n else s

/-- An event bit of a W1C register is set and drives source `n` (R669, R673). -/
def raise (s : State) (reg b n : Nat) : State := latchSource (s.orReg reg (bitW b true)) n

/-- PWR_EVENT bit `b` drives source 448 + `b`. -/
def pwrEvent (s : State) (b : Nat) : State := raise s (pwrB + 0x044) b (448 + b)

/-- CLK_EVENT bit `b` drives source 64 + `b` (R669). -/
def clkEvent (s : State) (b : Nat) : State := raise s (clkB + 0x044) b (64 + b)
/-- TDC_EVENT bit `b` drives source 76 + `b` (R669). -/
def tdcEvent (s : State) (b : Nat) : State := raise s (tdcB + 0x044) b (76 + b)
/-- SUN_EVENT bit `b` drives source 80 + `b` (R669). -/
def sunEvent (s : State) (b : Nat) : State := raise s (sunB + 0x044) b (80 + b)
/-- GNS_EVENT bit `b` drives source 112 + `b` (R669). -/
def gnsEvent (s : State) (b : Nat) : State := raise s (gnsB + 0x044) b (112 + b)
/-- HIF_EVENT bit `b` drives source 128 + `b` (R669). -/
def hifEvent (s : State) (b : Nat) : State := raise s (hifB + 0x044) b (128 + b)
/-- CUE_EVENT bit `b` drives source 184 + `b` (R669). -/
def cueEvent (s : State) (b : Nat) : State := raise s (cueB + 0x044) b (184 + b)
/-- TBL_EVENT bits 5:0 drive source 24 together (R669). -/
def tblEvent (s : State) (b : Nat) : State := raise s (tblB + 0x044) b 24
/-- PLC_EVENT bits 7:0 drive source 25 together (R669). -/
def plcEvent (s : State) (b : Nat) : State := raise s (plcB + 0x044) b 25
/-- MON_EVENT bit `b` of the chip monitors drives source 464 + `b` (R669). -/
def monEvent (s : State) (b : Nat) : State := raise s (monB + 0x044) b (464 + b)
/-- An event register of Pavilion `r` at `reg` drives source `j` of the Pavilion (R670). -/
def pavEvent (s : State) (r j reg b : Nat) : State := raise s reg b (192 + 32 * r + j)

/-- The error source of a block: TYPE − 1 for a chip block, source 22 of its Pavilion otherwise (R669, R670). -/
def errSource (b : Block) : Nat := if b.ty.inPav then 192 + 32 * b.r + 22 else b.ty.code - 1

/-- BLK_ERR latches an error: it overwrites CODE, MASTER and OFFSET and sets OVF if CODE was non-zero (R50), and drives the
block's error source while ERR_INT_EN is 1 (R671). -/
def latchErr (s : State) (b : Block) (code off : Nat) (m : Master) : State :=
  let a := b.base + 0x008
  let v := bitW 31 (decide (s.fld a 23 16 ≠ 0)) ||| fieldW 30 28 m.num ||| fieldW 23 16 code ||| fieldW 15 0 off
  let t := s.wr a v
  if s.flag (b.base + 0x004) 2 then latchSource t (errSource b) else t

/-- The highest-priority deliverable source of a target, ties to the lowest number (R681). -/
def bestSource (s : State) (t : Nat) : Option Nat :=
  (claimOrder s ((pendingSources s).filter fun n => deliverable s n && decide (srcTarget s n = t))).head?

/-- A claim of target `t` (R681): the value read, and the state in which the source is on the stack. -/
def claim (s : State) (t : Nat) : Word × State :=
  match bestSource s t with
  | none => (0, s)
  | some n =>
    (bitW 31 true ||| fieldW 19 16 (srcPrio s n) ||| w32 n,
     setStack (setActive (setPend s n false) n true) t (n :: irqStack s t))

/-- ORDER_FAULT (R683): the record, the count, source 16, and E_ORDER by the caller. -/
def orderFault (s : State) (t n : Nat) : State :=
  let top := match irqStack s t with
    | [] => 0x3FF
    | x :: _ => x
  let s1 := (s.wr (irqB + 0x048) (w32 t)).wr (irqB + 0x04C) (fieldW 25 16 top ||| fieldW 9 0 n)
  latchSource (s1.count (irqB + 0x060)) 16

/-- An EOI of target `t` naming `n` (R682, R683): the state, and whether E_ORDER latches. -/
def eoi (s : State) (t n : Nat) : State × Bool :=
  match irqStack s t with
  | top :: rest =>
    if top = n then
      let s1 := setStack (setActive s n false) t rest
      (rejudge s s1 ((pendingSources s1).filter fun k => srcTarget s1 k = t), false)
    else (orderFault s t n, true)
  | [] => (orderFault s t n, true)

/-- Empty the stacks of the targets listed (R686). -/
def clearStacks (s : State) (ts : List Nat) : State :=
  let s1 := forEach ts s fun t x => setStack (forEach (irqStack x t) x fun n y => setActive y n false) t []
  rejudge s s1 (pendingSources s1)

/-- The targets of an IRQ_STACK_CLR write: every host vector with ALL_HOST, else the one named (R686). -/
def stackClrTargets (s : State) (v : Word) : List Nat :=
  if bit v 31 then (AMap.keys s.irq.prioStacks).filter (· < 256) else [bits v 8 0]

/-- A management core's interrupt input is asserted while any source is deliverable to it (R690). -/
def coreIrq (s : State) (c : Nat) : Bool := (bestSource s (256 + c)).isSome

/-- IRQ_STATUS: the lowest source that is pending and unmasked. -/
def irqStatusView (s : State) : Word :=
  match (pendingSources s).find? (fun n => !srcMask s n) with
  | some n => bitW 31 true ||| fieldW 24 16 n
  | none => 0

/-- IRQ_PERR of Pavilion `r` (R672): which blocks hold a non-zero BLK_ERR.CODE. -/
def irqPerrView (s : State) (r : Nat) (high : Bool) : Word :=
  let err (b : Block) : Bool := decide (s.fld (b.base + 0x008) 23 16 ≠ 0)
  let slots (ty : BlkTy) (lo : Nat) : Word :=
    (List.range 16).foldl (fun a k => a ||| bitW (lo + k) (err ⟨ty, r, k⟩)) 0
  if high then
    bitW 20 (err ⟨.pmon, r, 0⟩) ||| bitW 19 (err ⟨.lrn, r, 0⟩) ||| bitW 18 (err ⟨.que, r, 0⟩) |||
    bitW 17 (err ⟨.trk, r, 0⟩) ||| bitW 16 (err ⟨.pav, r, 0⟩) ||| slots .bst 0
  else slots .mac 16 ||| slots .lan 0

/-- One message on each vector that has a deliverable source (R688). -/
def resignalAll (s : State) : State :=
  let vecs := (((pendingSources s).filter (deliverable s)).map (srcTarget s)).filter (· < 256)
  forEach vecs.eraseDups s fun v t => irqSignal t v

end Sys2Proof.Machine
end

