-- ==== Sys2Proof/Machine/SunOps.lean ====
section
/-!
DEFINITION. SunOps.lean: the time counters of the Sundial (04_sundial_time_engine.md): counters and node time, time
formats, quality classes, residuals with their slews and steps.
-/
namespace Sys2Proof.Machine

/-- The counters wrap at 2^48 seconds (R161). -/
def timeWrap : Nat := 2 ^ 48 * tuPerSec

/-- The nominal increment (R164). -/
def nominalInc : Nat := 0x00CCCCCCCCCD

/-- The counter record of domain 0, domain 1 or, as 2, node time's handover. -/
def ctrOf (s : State) (d : Nat) : TimeCtr := if d = 0 then s.sun.d0 else if d = 1 then s.sun.d1 else s.sun.hand

/-- Replace the record of a domain or of the handover. -/
def setCtr (s : State) (d : Nat) (c : TimeCtr) : State :=
  if d = 0 then { s with sun := { s.sun with d0 := c } }
  else if d = 1 then { s with sun := { s.sun with d1 := c } }
  else { s with sun := { s.sun with hand := c } }

/-- The active domain (SUN_DOM_CTRL.ACTIVE, R189). -/
def activeDom (s : State) : Nat := s.fld (sunB + 0x05C) 0 0

/-- Are the clocks in bypass (CLK_STATUS.BYPASS, R154)? -/
def inBypass (s : State) : Bool := s.flag (clkB + 0x040) 1

/-- CLK_DPLLd_CFG, STATE, PHERR, FREQ and BUILDOUT. -/
def dpllCfg (d : Nat) : Nat := clkB + 0x200 + 0x40 * d
def dpllState (d : Nat) : Nat := clkB + 0x208 + 0x40 * d
def dpllPherr (d : Nat) : Nat := clkB + 0x20C + 0x40 * d
def dpllFreq (d : Nat) : Nat := clkB + 0x210 + 0x40 * d
def dpllBuild (d : Nat) : Nat := clkB + 0x214 + 0x40 * d
/-- CLK_REFn_CFG and CLK_REFn_STATUS. -/
def refCfg (n : Nat) : Nat := clkB + 0x100 + 0x20 * n
def refStatus (n : Nat) : Nat := clkB + 0x10C + 0x20 * n

/-- CLK_DPLLd_CFG.MODE (R113). -/
def dpllMode (s : State) (d : Nat) : Nat := s.fld (dpllCfg d) 2 0
/-- CLK_DPLLd_STATE.STATE: 0 FREERUN, 1 ACQUIRE, 2 LOCKED, 3 HOLDOVER (R129). -/
def dpllSt (s : State) (d : Nat) : Nat := s.fld (dpllState d) 1 0
/-- The slot a DPLL has selected. -/
def dpllSel (s : State) (d : Nat) : Option Nat :=
  if s.flag (dpllState d) 7 then some (s.fld (dpllState d) 6 4) else none
/-- CLK_DPLLd_FREQ in ppt. -/
def dpllFreqPpt (s : State) (d : Nat) : Int := sbits (s.rd (dpllFreq d)) 31 0

/-- The slot's TYPE: 0 clock, 1 PPS, 2 PTP, 3 trunk. -/
def slotType (s : State) (n : Nat) : Nat := s.fld (refCfg n) 17 16

/-- The slot that domain `d` follows: its DPLL in ACQUIRE or LOCKED with the slot selected (R831). -/
def followed (s : State) (d : Nat) : Option Nat :=
  if dpllSt s d = 1 ∨ dpllSt s d = 2 then dpllSel s d else none

/-- Does a domain follow a slot that carries time (R831)? -/
def followsTime (s : State) (d : Nat) : Bool :=
  match followed s d with
  | some n => decide (slotType s n ≠ 0)
  | none => false

/-- Does a domain's counter run? Domain 1 stops while DPLL1 is OFF (R166). -/
def domRuns (s : State) (d : Nat) : Bool := !s.sun.stopped && !(decide (d = 1) && decide (dpllMode s 1 = 5))

/-- The increment a domain adds per counter update before its slew term (R164 to R168). The scaled increment is rounded to the nearest 2^-40 ns
(DESIGN CHOICE, log entry 10). -/
def baseInc (s : State) (d : Nat) : Nat :=
  if inBypass s then s.sun.bypInc
  else if d = 0 ∨ dpllMode s 1 = 4 then nominalInc
  else (divRound ((nominalInc : Int) * (10 ^ 12 + dpllFreqPpt s 1)) (10 ^ 12 + dpllFreqPpt s 0).toNat).toNat

/-- SUN_SERVO_CFG.SLEW_MAX, ns per second. -/
def slewMax (s : State) : Nat := s.fld (sunB + 0x050) 7 0
/-- SUN_SERVO_CFG.SLEW_QC in 2^-40 ns. -/
def slewQc (s : State) : Nat := s.fld (sunB + 0x050) 23 16 * tuPerNs

/-- Is a counter slewing: it has a residual that it removes by slewing (R183)? -/
def TimeCtr.slewing (c : TimeCtr) : Bool := decide (c.rem = .slew) && decide (c.resid ≠ 0)

/-- Does domain `d` slew? Domain 1 slews with domain 0 while it adds domain 0's increment (R165). -/
def domSlews (s : State) (d : Nat) : Bool := if d = 1 ∧ dpllMode s 1 = 4 then s.sun.d0.slewing else (ctrOf s d).slewing

/-- Does domain `d`, or node time as 2, slew? Node time slews with its active domain or its handover (R191, R194). -/
def slewingNow (s : State) (d : Nat) : Bool :=
  if d = 2 then domSlews s (activeDom s) || s.sun.hand.slewing else domSlews s d

/-- Node time: the active domain's counter minus the handover residual (R163). -/
def nodeTime (s : State) : Nat :=
  (((ctrOf s (activeDom s)).t : Int) - s.sun.hand.resid) % (timeWrap : Int) |>.toNat

/-- The time of domain 0, domain 1 or, as 2, the node. -/
def timeOf (s : State) (d : Nat) : Nat := if d = 2 then nodeTime s else (ctrOf s d).t

/-- The part of a slew that one update of increment `inc` gives: at SLEW_MAX ns per second, never past zero (R184). Answers the
amount, signed as the residual, and what is left over in units of 10^-9. -/
def slewPart (c : TimeCtr) (smax inc : Nat) : Int × Nat :=
  let total := smax * inc + c.acc
  let amt := min (total / 1000000000) c.resid.natAbs
  (if 0 ≤ c.resid then (amt : Int) else -(amt : Int), if amt = c.resid.natAbs then 0 else total % 1000000000)

/-- A counter's slew term for one update of increment `inc`, and what is left over (R184). -/
def TimeCtr.slewTerm (c : TimeCtr) (smax inc : Nat) : Int × Nat := if c.slewing then slewPart c smax inc else (0, c.acc)

/-- A counter moves by `inc` plus a slew term `a`; a residual that it slews out is less by it (R162, R165, R184). -/
def TimeCtr.move (c : TimeCtr) (inc : Nat) (a : Int) (acc : Nat) : TimeCtr :=
  let t' := (((c.t + inc : Nat) : Int) + a) % (timeWrap : Int) |>.toNat
  { c with t := t', resid := if c.slewing then c.resid - a else c.resid, acc := acc, carried := decide (t' / tuPerSec ≠ c.t / tuPerSec),
           adj := c.adj + a }

/-- A counter moves by `inc` plus its own slew term (R162, R165). -/
def TimeCtr.advance (c : TimeCtr) (smax inc : Nat) : TimeCtr :=
  let p := c.slewTerm smax inc
  c.move inc p.1 p.2

/-- CLK_STATUS.CQ-independent quality of a domain: the highest class whose condition holds (R177, R178). -/
def domQc (s : State) (d : Nat) : Nat :=
  let c := ctrOf s d
  if !c.set || !domRuns s d then 7
  else if inBypass s then 6
  else
    let base :=
      match dpllSt s d with
      | 0 => 5
      | 3 => if s.fld (sunB + 0x058) 31 0 < s.fld (clkB + 0x414) 31 0 then 4 else 3
      | 2 =>
        if !followsTime s d then 3
        else if s.flag (dpllState d) 9 then 2
        else if slewQc s < c.resid.natAbs then 1 else 0
      | _ => 1
    if followed s d = some 7 then max base (if d = 0 then s.sun.up0.qc else s.sun.up1.qc) else base

/-- Node time's QC (R195). -/
def nodeQc (s : State) : Nat :=
  let q := domQc s (activeDom s)
  if slewQc s < s.sun.hand.resid.natAbs then max q 1 else q

/-- The QC of domain 0, domain 1 or the node as SUN_STATUS last took it. -/
def qcHeld (s : State) (d : Nat) : Nat :=
  if d = 0 then s.fld (sunB + 0x040) 18 16 else if d = 1 then s.fld (sunB + 0x040) 22 20 else s.fld (sunB + 0x040) 26 24

/-- HO_OOS once each holdover episode, when a domain's QC first becomes HOLDOVER_OOS (R180). -/
def judgeOos (s : State) (d : Nat) : State :=
  let was := if d = 0 then s.sun.oos0 else s.sun.oos1
  let now := decide (domQc s d = 4)
  let ep := decide (dpllSt s d = 3)
  let v := ep && (was || now)
  let t : State := if d = 0 then { s with sun := { s.sun with oos0 := v } } else { s with sun := { s.sun with oos1 := v } }
  if now && !was then sunEvent t 3 else t

/-- SUN_STATUS takes the quality classes; QC_CHG if any changed (R177, R195). -/
def refreshQc (s : State) : State :=
  let q0 := domQc s 0
  let q1 := domQc s 1
  let qn := nodeQc s
  let changed := decide (q0 ≠ qcHeld s 0) || decide (q1 ≠ qcHeld s 1) || decide (qn ≠ qcHeld s 2)
  let s1 := judgeOos (judgeOos s 0) 1
  if changed then
    sunEvent (s1.wr (sunB + 0x040) (fieldW 26 24 qn ||| fieldW 22 20 q1 ||| fieldW 18 16 q0)) 2
  else s1

/-- SUN_STATUS as read: the stored classes with the present active domain, handover, set, step and slew state. -/
def sunStatusView (s : State) : Word :=
  let stepping := decide (s.sun.d0.rem = .step) || decide (s.sun.d1.rem = .step) || decide (s.sun.hand.rem = .step)
  s.rd (sunB + 0x040) ||| fieldW 8 8 (activeDom s) ||| bitW 6 (decide (s.sun.hand.resid ≠ 0)) |||
    bitW 5 s.sun.setDom.isSome ||| bitW 4 stepping ||| bitW 1 (domSlews s 1) ||| bitW 0 (domSlews s 0)

/-- An integer count of 2^-40 ns as signed nanoseconds, saturating at 32 bits. -/
def satNs (x : Int) : Word := BitVec.ofInt 32 (clampI (-(2 ^ 31)) (2 ^ 31 - 1) (Int.tdiv x (2 ^ 40)))

/-- SUN_RESID0, SUN_RESID1, SUN_HANDOVER, SUN_DOM_DIFF by index. -/
def sunResidView (s : State) (k : Nat) : Word :=
  match k with
  | 0 => satNs s.sun.d0.resid
  | 1 => satNs s.sun.d1.resid
  | 2 => satNs s.sun.hand.resid
  | _ => satNs ((s.sun.d1.t : Int) - s.sun.d0.t)

/-- SUN_INC0 and SUN_INC1: the increment in use with its slew term; 0 while the domain is stopped (R166). -/
def sunIncView (s : State) (d : Nat) : Nat :=
  if !domRuns s d then 0
  else
    let inc := baseInc s d
    let c := if d = 1 ∧ dpllMode s 1 = 4 then s.sun.d0 else ctrOf s d
    let part := slewMax s * inc / 1000000000
    if c.slewing then (if 0 ≤ c.resid then inc + part else inc - part) else inc

/-- How a residual is to be removed once an offset has been added to it (R183, R186): a pending step takes it; else the QC held on
the tick before and STEP_THR decide. -/
def removalFor (s : State) (qc : Nat) (c : TimeCtr) (resid : Int) : Removal :=
  if c.rem = .step then .step
  else if resid = 0 then .none
  else if qc = 7 then .step
  else if s.fld (sunB + 0x054) 29 0 * tuPerNs < resid.natAbs ∧ (s.flag (sunB + 0x054) 31 ∨ qc = 5) then .step
  else .slew

/-- The Sundial receives an offset for domain `d` (R183). -/
def handOffset (s : State) (d : Nat) (ofs : Int) : State :=
  let c := ctrOf s d
  let r := c.resid + ofs
  setCtr s d { c with resid := r, rem := removalFor s (qcHeld s d) c r, acc := 0 }

/-- A domain's time is set (R179). -/
def markSet (s : State) (d : Nat) : State := setCtr s d { ctrOf s d with set := true }

/-- Did a domain, or node time as 2, step within the 1 s before now (R173)? Node time's own steps are its active domains' and the handover's. -/
def steppedLately (s : State) (d : Nat) : Bool :=
  let f (x : Option Nat) : Bool := match x with
    | some e => decide (s.elapsed - e ≤ tuPerSec)
    | none => false
  f (ctrOf s d).stepAt

/-- DOM of a compact stamp: 0 node time, 1 domain 0, 2 domain 1 (R173). -/
def domCode (d : Nat) : Nat := if d = 2 then 0 else d + 1
/-- The time that a DOM field names. -/
def domOfCode (c : Nat) : Nat := if c = 0 then 2 else c - 1

/-- Bits 63:48 of a compact stamp of time `d` (R173), with the CARRIER bits of what carries it. -/
def stampTag (s : State) (d : Nat) (coarse : Bool) (carrier : Nat) : Nat :=
  domCode d * 2 ^ 14 + qcHeld s d * 2 ^ 11 + (if coarse then 2 ^ 10 else 0) + (if slewingNow s d then 2 ^ 9 else 0) +
    (if steppedLately s d then 2 ^ 8 else 0) + carrier % 256

/-- The NS and FRAC fields of a time (R173, R174). -/
def csBody (t : Nat) : Nat := t / tuPerNs % 2 ^ 32 * 2 ^ 16 + t % tuPerNs / 2 ^ 24

/-- A compact stamp of time `d` at instant `t` (R173). COARSE is set in bypass whatever refines it (R170). -/
def compactStamp (s : State) (d t : Nat) (coarse : Bool) (carrier : Nat) : Nat :=
  stampTag s d (coarse || inBypass s) carrier * 2 ^ 48 + csBody t

/-- When, after the last tick, an instant `sub` after it is placed: as it is, or in bypass on the nearest edge of the bypass clock (R170). -/
def placedSub (s : State) (sub : Nat) : Nat := if inBypass s then (if 2 * sub < s.sun.bypInc then 0 else s.sun.bypInc) else sub

/-- The four dwords of a full time (R172), lowest first. -/
def fullTime (t tag : Nat) : List Word :=
  let sec := t / tuPerSec
  let ns := t % tuPerSec / tuPerNs
  let frac := t % tuPerNs / 2 ^ 24
  let n := tag % 2 ^ 16 * 2 ^ 112 + sec % 2 ^ 48 * 2 ^ 48 + ns * 2 ^ 16 + frac
  [w32 n, w32 (n / 2 ^ 32), w32 (n / 2 ^ 64), w32 (n / 2 ^ 96)]

/-- The time that FT dwords 0 to 2 name; none when NS is above 999,999,999 (R172, R175). -/
def ftTime (w0 w1 w2 : Word) : Option Nat :=
  let ns := bits w0 31 16 + bits w1 15 0 * 2 ^ 16
  let sec := bits w1 31 16 + w2.toNat * 2 ^ 16
  if 999999999 < ns then none else some (sec * tuPerSec + ns * tuPerNs + bits w0 15 0 * 2 ^ 24)

/-- The signed difference of two times on the wrapping counter. -/
def timeDiff (a b : Nat) : Int :=
  let d := (((a : Int) - b) % (timeWrap : Int))
  if d < (timeWrap / 2 : Nat) then d else d - timeWrap

/-- An offset reduced to the nearest whole second, from -0.5 s to +0.5 s (R182). -/
def nearestSecond (x : Int) : Int := (x + (tuPerSec / 2 : Nat)) % (tuPerSec : Int) - (tuPerSec / 2 : Nat)

/-- The UTC second count of a node second, under SUN_UTC.UTC_OFFSET (R220). -/
def utcOffset (s : State) : Int := sbits (s.rd (sunB + 0x060)) 31 16

/-- The node second at which an announced leap second applies (R223): M + 1 for an insertion, M - 1 for a deletion. -/
def leapTarget (s : State) : Option Nat :=
  if s.flag (sunB + 0x060) 0 then
    let utc := ((nodeTime s / tuPerSec : Nat) : Int) - utcOffset s
    let m := (utc / 86400 + 1) * 86400 + utcOffset s
    some ((if s.flag (sunB + 0x060) 1 then m - 1 else m + 1).toNat)
  else none

/-- SUN_UTC takes a value and the announced leap second is reckoned anew (R223, R224, R310). -/
def loadUtc (s : State) (v : Word) : State :=
  let t := s.wr (sunB + 0x060) v
  if v = s.rd (sunB + 0x060) ∧ s.sun.leapAt.isSome then t else { t with sun := { t.sun with leapAt := leapTarget t } }

/-- Scale the bypass increment by DPLL0's frequency when NET_BYP selects OSCIN, rounded to the nearest (DESIGN CHOICE, log entry 10); as written
otherwise (R167, R168). -/
def scaledBypInc (s : State) : Nat :=
  let inc := s.rd64 (sunB + 0x0E0)
  if s.fld (clkB + 0x05C) 2 0 = 0 then (divRound ((inc : Int) * (10 ^ 12 + dpllFreqPpt s 0)) (10 ^ 12)).toNat else inc

/-- The bypass increment comes into use, scaled anew (R154, R168). -/
def loadBypInc (s : State) : State := { s with sun := { s.sun with bypInc := scaledBypInc s } }

end Sys2Proof.Machine
end

