-- ==== Sys2Proof/Machine/MonOps.lean ====
section
/-!
DEFINITION. MonOps.lean: the histogram units and performance counters of 15_monitoring_and_containment.md (R751 to R765),
as every engine of the chip feeds them.
-/
namespace Sys2Proof.Machine

/-- Where the MON block of Pavilion `r` starts. -/
def pmonB (r : Nat) : Nat := pavBase r + 0x70000

/-- One step of the integer square root: bit `k` and those below it are still to be found. -/
def isqrtGo (n : Nat) : Nat → Nat → Nat
  | 0, r => r
  | k + 1, r => if (r + 2 ^ k) * (r + 2 ^ k) ≤ n then isqrtGo n k (r + 2 ^ k) else isqrtGo n k r

/-- The integer square root of a number below 2^140. -/
def isqrt (n : Nat) : Nat := isqrtGo n 70 0

/-- BASE x 2^(i/4), rounded to the nearest unit (R753). -/
def logEdge (base i : Nat) : Nat :=
  let m := base * 2 ^ (i / 4)
  if i % 4 = 0 then m else (isqrt (isqrt (16 * m * m * m * m * 2 ^ (i % 4))) + 1) / 2

/-- Is the source of a unit signed (R752)? -/
def histSigned (inPav : Bool) (src : Nat) : Bool := if inPav then src == 2 else src == 1 || src == 4

/-- The address of the CFG register of a histogram unit. -/
def histReg (r : Option Nat) (u : Nat) : Nat :=
  (match r with
   | some r => pmonB r
   | none => monB) + 0x1000 + 0x200 * u

/-- The bin of a sample (R753). -/
def histBin (s : State) (a : Nat) (v : Int) : Nat :=
  let base := sbits (s.rd (a + 4)) 31 0
  if s.flag a 1 then ((List.range 63).filter fun i => decide ((logEdge base.toNat i : Int) ≤ v)).length
  else if v < base then 0
  else min 63 (((v - base).toNat / (s.rd (a + 8)).toNat) + 1)

/-- The unit's register holds a limit: signed or unsigned as the source is (R758). -/
def histLimit (s : State) (a : Nat) (sgn : Bool) : Int := if sgn then sbits (s.rd a) 31 0 else (s.rd a).toNat

/-- Raise the ALARM event of unit `u` (R758). -/
def histAlarm (s : State) (r : Option Nat) (u : Nat) : State :=
  match r with
  | some r => pavEvent s r 20 (pmonB r + 0x044) u
  | none => monEvent s u

/-- Do the units and counters of a MON block run (R774)? -/
def monRuns (s : State) (r : Option Nat) : Bool :=
  match r with
  | some r => !s.flag (pmonB r + 0x004) 3
  | none => true

/-- Unit `u` places a sample (R752, R753, R757, R758). -/
def histPlace (s : State) (r : Option Nat) (u : Nat) (x : Int) : State :=
  let a := histReg r u
  let sgn := histSigned r.isSome (s.fld a 6 4)
  let v := if sgn then clampI (-(2 ^ 31)) (2 ^ 31 - 1) x else clampI 0 (2 ^ 32 - 1) x
  let h := AMap.getD s.mon.units a {}
  let t := w32 (nodeTime s / tuPerNs)
  let b := histBin s a v
  let h1 : HistUnit :=
    { cnt := satAdd 64 h.cnt 1,
      mn := if h.cnt = 0 ∨ v < h.mn then v else h.mn,
      mnT := if h.cnt = 0 ∨ v < h.mn then t else h.mnT,
      mx := if h.cnt = 0 ∨ h.mx < v then v else h.mx,
      mxT := if h.cnt = 0 ∨ h.mx < v then t else h.mxT,
      bins := AMap.set h.bins b (satAdd 32 (AMap.getD h.bins b 0) 1) }
  let s1 := { s with mon := { s.mon with units := AMap.set s.mon.units a h1 } }
  if s.flag a 2 && (decide (histLimit s (a + 0x0C) sgn < v) || decide (v < histLimit s (a + 0x10) sgn)) then histAlarm s1 r u else s1

/-- A source of R752 gives a sample: every enabled unit of the block that selects it takes it. `cls` is the class of Pavilion SRC 1. -/
def histSample (s : State) (r : Option Nat) (src sel cls : Nat) (x : Int) : State :=
  if !monRuns s r then s
  else
    forEach (List.range (if r.isSome then 4 else 8)) s fun u t =>
      let a := histReg r u
      if t.flag a 0 && decide (t.fld a 6 4 = src) && decide (t.fld a 15 8 = sel) &&
         (!(r.isSome && src == 1) || decide (t.fld a 18 16 = cls)) then histPlace t r u x else t

/-- What a counted event carries for the filters of R762; a filter whose field is absent does not apply (R763). -/
structure PerfEv where
  ev : Nat
  master : Option Nat := none
  priv : Bool := false
  addr : Option Nat := none
  cls : Option Nat := none
  deriving DecidableEq, Repr

/-- Does an event pass the filters of the counter whose registers start at `a` (R762)? -/
def perfPass (s : State) (a : Nat) (e : PerfEv) : Bool :=
  let c := s.rd a
  bit c 8 && decide (bits c 7 0 = e.ev) &&
  (match e.master with
   | some m => bit c (16 + m) &&
       (match bits c 13 12 with
        | 1 => e.priv || m == 7
        | 2 => !(e.priv || m == 7)
        | _ => true)
   | none => true) &&
  (match e.addr with
   | some x => !bit c 11 || (w32 x &&& s.rd (a + 8)) == s.rd (a + 4)
   | none => true) &&
  (match e.cls with
   | some t => bit c (24 + t)
   | none => true)

/-- Counter `c` of a MON block counts `k` (R761, R765). -/
def perfAdd (s : State) (r : Option Nat) (a k : Nat) : State :=
  let old := s.rd64 (a + 0x10)
  let new := satAdd 64 old k
  let s1 := s.wr64 (a + 0x10) new
  if decide (new = 2 ^ 64 - 1) && decide (old ≠ 2 ^ 64 - 1) then
    match r with
    | some r => pavEvent s1 r 20 (pmonB r + 0x044) 4
    | none => monEvent s1 10
  else s1

/-- An event of R764 counts `k` in every counter whose filters it passes. An enabled counter has a CFG other than its reset
value, so only the listed registers are looked at. -/
def perfCount (s : State) (r : Option Nat) (e : PerfEv) (k : Nat) : State :=
  let base := (match r with
    | some r => pmonB r
    | none => monB) + 0x2000
  let n := if r.isSome then 8 else 16
  if k = 0 ∨ !monRuns s r then s
  else
    forEach ((s.regs.map (·.1)).filter fun a => decide (base ≤ a) && decide (a < base + 0x20 * n) && decide ((a - base) % 0x20 = 0)) s
      fun a t => if perfPass t a e then perfAdd t r a k else t

/-- An instant that counts toward RETIRE_LIM: kept under its key with those of the last RETIRE_WIN seconds. Answers how many there are (R770,
R773). -/
def windowHit (s : State) (key : Nat) : State × Nat :=
  let old := (AMap.getD s.mon.errs key []).filter fun t => decide (s.elapsed ≤ t + s.fld (monB + 0x04C) 7 0 * tuPerSec)
  let l := s.elapsed :: old
  ({ s with mon := { s.mon with errs := AMap.set s.mon.errs key l } }, l.length)

/-- RETIRE_LIM. -/
def retireLim (s : State) : Nat := s.fld (monB + 0x04C) 15 8

end Sys2Proof.Machine
end

