-- ==== Sys2Proof/Machine/ClkOps.lean ====
section
/-!
DEFINITION. ClkOps.lean: the reference slots, the DPLLs, reference selection and the holdover model of
03_reference_and_synthesis.md (R95 to R142, R824 to R828).
-/
namespace Sys2Proof.Machine

/-- MAC_CFG of port `p`: is it enabled in mode `md` (0 Ethernet, 1 trunk, 2 local)? -/
def portIs (s : State) (p md : Nat) : Bool :=
  decide (p < 128) && s.flag (macB p + 0x40) 0 && decide (s.fld (macB p + 0x40) 17 16 = md)

/-- Does the clock subsystem run (R36): the chip out of reset, and not in P3 but for a restart from it (R719)? -/
def clkRuns (s : State) : Bool := !s.held && (decide (s.pstate ≠ 3) || s.pwr.change == .restart)

/-- The beyond-register record of a slot. -/
def slotRec (s : State) (n : Nat) : RefSlot := AMap.getD s.clk.slots n {}
/-- Replace it. -/
def setSlotRec (s : State) (n : Nat) (r : RefSlot) : State := { s with clk := { s.clk with slots := AMap.put s.clk.slots n r {} } }
/-- The beyond-register record of a DPLL. -/
def loopRec (s : State) (d : Nat) : DpllSt := AMap.getD s.clk.dplls d {}
/-- Replace it. -/
def setLoopRec (s : State) (d : Nat) (r : DpllSt) : State := { s with clk := { s.clk with dplls := AMap.put s.clk.dplls d r {} } }

/-- A register of signed 32 bits that the spec does not say saturates takes `x`; a value outside its format is not stated and is
a free word (log entry 2). -/
def State.wrSigned (s : State) (a : Nat) (x : Int) : State :=
  if -(2 ^ 31) ≤ x ∧ x < 2 ^ 31 then s.wr a (BitVec.ofInt 32 x) else (s.wr a s.free).drawn

/-- A signed 32-bit value that saturates. -/
def sat32 (x : Int) : Word := BitVec.ofInt 32 (clampI (-(2 ^ 31)) (2 ^ 31 - 1) x)

/-- CLK_OSC_TRIM in ppt. -/
def oscTrim (s : State) : Int := sbits (s.rd (clkB + 0x054)) 31 0

/-- A fractional offset in ppt, referred to OSCIN with trim `old`, is referred to OSCIN with trim `new` (R96, R110), rounded to the
nearest ppt. -/
def reTrim (old new y : Int) : Int := divRound ((10 ^ 12 + y) * (10 ^ 12 + new)) (10 ^ 12 + old).toNat - 10 ^ 12

/-- Is a slot enabled? -/
def refEnabled (s : State) (n : Nat) : Bool := s.flag (refCfg n) 0
/-- Has it activity? -/
def refActive (s : State) (n : Nat) : Bool := s.flag (refStatus n) 3
/-- Is it QUALIFIED? -/
def refQual (s : State) (n : Nat) : Bool := decide (s.fld (refStatus n) 1 0 = 3)
/-- Is it DRIFTING? -/
def refDrift (s : State) (n : Nat) : Bool := s.flag (refStatus n) 7
/-- Its rank for DPLL `d`. -/
def refRank (s : State) (d n : Nat) : Nat := if d = 0 then s.fld (refCfg n) 11 8 else s.fld (refCfg n) 15 12
/-- CLK_REFn_FOFF in ppt. -/
def refFoff (s : State) (n : Nat) : Int := sbits (s.rd (clkB + 0x110 + 0x20 * n)) 31 0
/-- CLK_REFn_HIST. -/
def refHist (n : Nat) : Nat := clkB + 0x118 + 0x20 * n
/-- SOURCE of slots 5 to 7. -/
def refSource (s : State) (n : Nat) : Nat := s.fld (refCfg n) 31 24

/-- The multiple of the programmed limits that the monitors apply (R108). -/
def limitScale (s : State) : Nat := if !(loopRec s 0).hoValid && decide (s.rd (clkB + 0x054) = 0) then 16 else 1
/-- The accept limit in ppt. -/
def acceptLim (s : State) (n : Nat) : Nat := s.fld (clkB + 0x108 + 0x20 * n) 15 0 * 10 * limitScale s
/-- The reject limit in ppt. -/
def rejectLim (s : State) (n : Nat) : Nat := s.fld (clkB + 0x108 + 0x20 * n) 31 16 * 10 * limitScale s
/-- QUAL_TIME in ms. -/
def qualTime (s : State) : Nat := s.fld (clkB + 0x058) 7 0 * 1000
/-- SLOPE_WIN. -/
def slopeWin (s : State) : Nat := s.fld (clkB + 0x058) 15 8
/-- PROJ_WIN. -/
def projWin (s : State) : Nat := s.fld (clkB + 0x058) 31 16

/-- QUAL_LEFT: whole seconds left of a count of `ms`. -/
def qualLeft (s : State) (ms : Nat) : Nat := (qualTime s - ms + 999) / 1000

/-- The DPLLs that have slot `n` selected note the second of the model's grid in which it fails (R139). -/
def noteFailure (s : State) (n : Nat) : State :=
  forEach [0, 1, 2, 3] s fun d t =>
    if dpllSel t d = some n ∧ (loopRec t d).failSec.isNone then setLoopRec t d { loopRec t d with failSec := some t.clk.sec } else t

/-- Judge a slot's state anew from its activity, its offset and its limits (R101 to R107). A slot that is not enabled reads
DISABLED and nothing else; one that leaves QUALIFIED raises REF_QUAL. -/
def judgeSlot (s : State) (n : Nat) : State :=
  let old := s.rd (refStatus n)
  let wasQ := bits old 1 0 = 3
  let r := slotRec s n
  if !refEnabled s n then
    let s1 := setSlotRec (s.wr (refStatus n) 0) n { r with qualMs := 0, qualAge := 0, win := [] }
    if wasQ then clkEvent (noteFailure s1 n) 11 else s1
  else
    let f := (refFoff s n).natAbs
    let inA := decide (f ≤ acceptLim s n)
    let inR := decide (f ≤ rejectLim s n)
    let act := bit old 3
    let st := if !act || !inR then 1 else if wasQ then 3 else 2
    let ms := if st = 2 ∧ inA then r.qualMs else 0
    let left := if st = 3 then 0 else qualLeft s ms
    let v := fieldW 31 24 left ||| bitW 7 (bit old 7 && st == 3) ||| bitW 6 (bit old 6) ||| bitW 5 inA ||| bitW 4 inR |||
      bitW 3 act ||| fieldW 1 0 st
    let s1 := s.wr (refStatus n) v
    let s2 := setSlotRec s1 n (if st = 3 then r else { r with qualMs := ms, qualAge := 0, win := [] })
    let s3 := if bit old 4 && !inR then s2.orReg (refHist n) (bitW 2 true) else s2
    if wasQ ∧ st ≠ 3 then clkEvent (noteFailure s3 n) 11 else s3

/-- The DPLLs that have slot `n` selected stop using its phase (R130). -/
def dropPhase (s : State) (n : Nat) : State :=
  forEach [0, 1, 2, 3] s fun d t =>
    if dpllSel t d = some n then setLoopRec t d { loopRec t d with lost := true } else t

/-- A slot loses activity (R101, R106, R130). -/
def loseActivity (s : State) (n : Nat) : State :=
  if refEnabled s n && refActive s n then
    let s1 := (s.setFlag (refStatus n) 3 false).orReg (refHist n) (bitW 3 true)
    dropPhase (judgeSlot s1 n) n
  else s

/-- A slot shows a valid edge, pulse, message or word (R101). -/
def gainActivity (s : State) (n : Nat) : State :=
  if refEnabled s n && !refActive s n then judgeSlot (s.setFlag (refStatus n) 3 true) n else s

/-- The loop bandwidths of R131 in mHz, by code. -/
def bwTable : List Nat :=
  [1, 2, 5, 10, 20, 50, 100, 200, 500, 1000, 2000, 5000, 10000, 20000, 50000, 100000, 200000, 500000, 1000000, 2000000, 4000000]

/-- The largest code whose bandwidth is not above `m` mHz; code 0 where none is. -/
def maxBwCode (m : Nat) : Nat := (bwTable.filter (· ≤ m)).length - 1

/-- One tenth of the Sync rate of a port, in mHz (R132). -/
def syncTenth (s : State) (p : Nat) : Nat :=
  let l := sbits (s.rd (sunB + 0x1000 + 0x10 * p)) 23 20
  if l < 0 then 100 * 2 ^ l.natAbs else 100 / 2 ^ l.natAbs

/-- The highest bandwidth code that the slot's type allows (R132). -/
def bwLimit (s : State) (n : Nat) : Nat :=
  match slotType s n with
  | 0 => maxBwCode ((s.rd (clkB + 0x104 + 0x20 * n)).toNat * 100)
  | 1 => 0x06
  | 2 => maxBwCode (syncTenth s (refSource s n))
  | _ => 0x0F

/-- EFF_BW of a DPLL in state `st` with `sel` selected (R132). -/
def effBw (s : State) (d st : Nat) (sel : Option Nat) : Nat :=
  match sel with
  | none => 0
  | some n =>
    let bw := s.fld (dpllCfg d) 20 16
    let acq := s.fld (dpllCfg d) 12 8
    min (if st = 1 ∧ bw ≤ acq then acq else bw) (bwLimit s n)

/-- HO_VALID as DPLL `d` reports it (R138, R827, R828). -/
def hoValidOf (s : State) (d : Nat) : Bool :=
  if d ≤ 1 then (loopRec s 0).hoValid else decide (dpllMode s d ≠ 4) && (loopRec s d).hoValid

/-- CLK_STATUS.CQ follows the clock quality, under BYPASS (the CQ field). -/
def setCq (s : State) (q : Nat) : State :=
  let s1 := { s with clk := { s.clk with cq := q } }
  s1.setFld (clkB + 0x040) 11 8 (if inBypass s1 then 4 else q)

/-- The STATE register of a DPLL: state, whether a slot is selected, the slot number it reads, DISPUTE. -/
def stateWord (s : State) (d st : Nat) (valid : Bool) (slot : Nat) (disp : Bool) : Word :=
  fieldW 20 16 (effBw s d st (if valid then some slot else none)) ||| bitW 9 disp ||| bitW 8 (hoValidOf s d) |||
    bitW 7 valid ||| fieldW 6 4 slot ||| fieldW 1 0 st

/-- Did STATE, SEL_VALID or SEL_SLOT change? -/
def loopChanged (a b : Word) : Bool := a &&& 0xF3 != b &&& 0xF3

/-- A DPLL takes a state and a selection (R129). DPLL0 raises the event of the state it enters and moves the clock quality, which
ACQUIRE leaves alone; DPLL1 to DPLL3 raise DPLLd_CHG. -/
def setLoop (s : State) (d st : Nat) (valid : Bool) (slot : Nat) (disp : Bool) : State :=
  let old := s.rd (dpllState d)
  let v := stateWord s d st valid slot disp
  let s1 := s.wr (dpllState d) v
  if d = 0 then
    let s2 := match st with
      | 0 => setCq s1 3
      | 2 => setCq s1 (if disp then 1 else 0)
      | 3 => setCq s1 2
      | _ => s1
    if bits old 1 0 = st then s2
    else
      match st with
      | 0 => clkEvent s2 3
      | 2 => clkEvent s2 2
      | 3 => clkEvent s2 1
      | _ => s2
  else if loopChanged old v then clkEvent s1 (7 + d) else s1

/-- The registers of DPLLs in FOLLOW mirror DPLL0's (R827). -/
def mirrorLoops (s : State) : State :=
  forEach [1, 2, 3] s fun d t =>
    if dpllMode t d = 4 then
      let old := t.rd (dpllState d)
      let v := (t.rd (dpllState 0) &&& ~~~(bitW 8 true)) ||| bitW 8 (hoValidOf t d)
      let t1 := (((t.wr (dpllState d) v).wr (dpllPherr d) (t.rd (dpllPherr 0))).wr (dpllFreq d) (t.rd (dpllFreq 0))).wr
        (dpllBuild d) (t.rd (dpllBuild 0))
      if loopChanged old v then clkEvent t1 (7 + d) else t1
    else t

/-- EFF_BW and HO_VALID are read anew after a set-up write. -/
def refreshLoop (s : State) (d : Nat) : State :=
  if dpllMode s d = 4 then s
  else if d = 1 ∧ dpllMode s 1 = 5 then s.wr (dpllState 1) (bitW 8 (hoValidOf s 1))
  else s.wr (dpllState d) (stateWord s d (dpllSt s d) (dpllSel s d).isSome (s.fld (dpllState d) 6 4) (s.flag (dpllState d) 9))

/-- The same for every DPLL, and those in FOLLOW mirror the outcome (R132, R827). -/
def refreshLoops (s : State) : State := mirrorLoops (forEach [0, 1, 2, 3] s fun d t => refreshLoop t d)

/-- The last offset of slot `n` for domain `dm`, as the domain stands now (R135, R181). -/
def slotOffset (s : State) (n dm : Nat) : Option Int :=
  let r := slotRec s n
  (if dm = 0 then r.ofs0 else r.ofs1).map fun x => x - (ctrOf s dm).adj

/-- Keep an offset of slot `n` for domain `dm`, taken now. -/
def keepOffset (s : State) (n dm : Nat) (x : Int) : State :=
  let r := slotRec s n
  let y := some (x + (ctrOf s dm).adj)
  setSlotRec s n (if dm = 0 then { r with ofs0 := y } else { r with ofs1 := y })

/-- Domain `dm` starts to follow a slot that carries time: its offset is handed over, now or when the slot first gives one (R135,
R179, R183). -/
def handOver (s : State) (n dm : Nat) : State :=
  let s1 := match slotOffset s n dm with
    | some x => setLoopRec (handOffset s dm x) dm { loopRec s dm with handPending := false }
    | none => setLoopRec s dm { loopRec s dm with handPending := true }
  markSet s1 dm

/-- An offset that a followed slot gives while one is still to be handed over. -/
def handIfPending (s : State) (n dm : Nat) : State :=
  if (loopRec s dm).handPending && followed s dm == some n then
    match slotOffset s n dm with
    | some x => setLoopRec (handOffset s dm x) dm { loopRec s dm with handPending := false }
    | none => s
  else s

/-- The domains that DPLL `d` drives: its own, and domain 1 with DPLL0 while DPLL1 mirrors it (R113). -/
def domainsOf (s : State) (d : Nat) : List Nat :=
  if d = 0 then (if dpllMode s 1 = 4 then [0, 1] else [0]) else if d = 1 then [1] else []

/-- A DPLL selects a slot: it acquires or stays as it was, absorbs the slot's phase `ofs` (in ps) into its build-out, and hands the
slot's time offset to the Sundial (R116, R129, R134, R135). -/
def selectSlot (s : State) (d n : Nat) (ofs : Int) : State :=
  let st := if dpllSt s d = 0 ∨ dpllSt s d = 3 then 1 else dpllSt s d
  let s1 := s.wrSigned (dpllBuild d) (sbits (s.rd (dpllBuild d)) 31 0 + ofs)
  let s2 := setLoopRec s1 d { loopRec s1 d with lockMs := 0, lost := false, failSec := none, handPending := false }
  let s3 := if d ≤ 1 then s2.orReg (refHist n) (bitW 5 true) else s2
  let s4 := if slotType s n = 0 then s3 else forEach (domainsOf s d) s3 fun dm t => handOver t n dm
  let s5 := setLoop s4 d st true n false
  if d = 0 then clkEvent s5 0 else s5

/-- The mean of integers, rounded to the nearest (log entry 10). -/
def meanOf (l : List Int) : Int := divRound (l.foldl (· + ·) 0) l.length

/-- The standard error of the mean of bins in 10^-6 ppt: their sample standard deviation over the root of their number (R142). -/
def stdErr (ys : List Int) : Nat :=
  let n := ys.length
  let sum : Int := ys.foldl (· + ·) 0
  let sq : Int := ys.foldl (fun a y => a + y * y) 0
  if n < 2 then 0 else isqrt ((((n : Int) * sq - sum * sum).toNat * 10 ^ 12) / (n * n * (n - 1)))

/-- CLK_HO_CFG.AVG and GUARD. -/
def hoAvg (s : State) : Nat := s.fld (clkB + 0x400) 31 16
def hoGuard (s : State) : Nat := s.fld (clkB + 0x400) 15 8

/-- The estimate over the AVG bins that end GUARD seconds before second `upTo` of the model's grid begins: y0, T0 of the sensor that TSEL selects, and
s_y (R137, R139, R142); none while fewer exist. -/
def estimate (s : State) (bins : List Bin) (upTo : Nat) : Option (Int × Option Int × Nat) :=
  let b := (bins.filter fun x => decide (x.sec + 1 + hoGuard s ≤ upTo)).take (hoAvg s)
  if b.length < hoAvg s then none
  else
    let ys := b.map (·.y)
    let ts := b.filterMap fun x => AMap.get x.temps (s.fld (clkB + 0x400) 3 2)
    some (meanOf ys, if ts = [] then none else some (meanOf ts), stdErr ys)

/-- T0 as CLK_HO_T0 reads it. -/
def t0Word (t : Option Int) : Word :=
  match t with
  | some x => w32 (codeOf 16 x)
  | none => 0x8000

/-- Present a y0 and T0 in CLK_HO_Y0 and CLK_HO_T0 (R139). -/
def showModel (s : State) (y : Int) (t : Option Int) : State :=
  (s.wrSigned (clkB + 0x404) y).wr (clkB + 0x41C) (t0Word t)

/-- The present reading, in 0.25 degC, of the sensor with a TSEL code: external inputs 0 and 1, internal sensor 0; none while it reads 0x8000
(R142, R767). -/
def sensorReading (s : State) (k : Nat) : Option Int :=
  let n := match k with
    | 0 => 16
    | 1 => 17
    | _ => 0
  let v := s.fld (monB + 0x100 + 4 * n) 15 0
  if v = 0x8000 then none else some (signedOf 16 v)

/-- That of the sensor that TSEL selects. -/
def tselReading (s : State) : Option Int := sensorReading s (s.fld (clkB + 0x400) 3 2)

/-- The temperature that the holdover of a DPLL uses: the present reading, else the selected sensor's last valid one of the episode, else T0
(R142). -/
def hoTemp (s : State) (r : DpllSt) : Option Int :=
  match tselReading s with
  | some x => some x
  | none => match AMap.get r.lastTemps (s.fld (clkB + 0x400) 3 2) with
    | some x => some x
    | none => r.t0

/-- Readings just taken enter the present second of the model's grid (R137) and the holdover episodes in progress (R142), each under its sensor. -/
def noteTemps (s : State) : State :=
  forEach [0, 1, 2] s fun k t =>
    let a := AMap.getD t.clk.temps k {}
    match sensorReading t k with
    | some v =>
      let t1 := { t with clk := { t.clk with temps := AMap.put t.clk.temps k { a with sum := a.sum + v, cnt := a.cnt + 1 } {} } }
      forEach [0, 1, 2, 3] t1 fun d u =>
        if dpllSt u d = 3 then setLoopRec u d { loopRec u d with lastTemps := AMap.set (loopRec u d).lastTemps k v } else u
    | none => { t with clk := { t.clk with temps := AMap.put t.clk.temps k { a with bad := true } {} } }

/-- The mean temperature over a second of each sensor whose every reading was valid (R137). -/
def secondTemps (s : State) : AMap Int :=
  (List.range 3).filterMap fun k =>
    let a := AMap.getD s.clk.temps k {}
    if a.bad ∨ a.cnt = 0 then none else some (k, divRound a.sum a.cnt)

/-- The model value of R140 in ppt for a holdover record, rounded to the nearest (log entry 10). -/
def modelFreq (s : State) (r : DpllSt) : Int :=
  let den := 86400 * 16000
  let ageTerm : Int := if s.flag (clkB + 0x400) 0 then sbits (s.rd (clkB + 0x408)) 31 0 * r.age * 16000 else 0
  let tempTerm : Int :=
    match s.flag (clkB + 0x400) 1, tselReading s, r.t0 with
    | true, some t, some t0 =>
      let dt := t - t0
      sbits (s.rd (clkB + 0x40C)) 31 16 * dt * (86400 * 40) + sbits (s.rd (clkB + 0x40C)) 15 0 * dt * dt * 86400
    | _, _, _ => 0
  divRound (r.y0 * den + ageTerm + tempTerm) den

/-- The frozen model with which DPLL `d` enters holdover: y0, T0, s_y (R139, R828). The bins end GUARD seconds before the selected slot failed; where
holdover is entered with no failure of a slot (FORCE_HOLDOVER, or MANUAL onto a slot that is not QUALIFIED), before the entry (DESIGN CHOICE, log entry 158). -/
def frozenModel (s : State) (d : Nat) : Int × Option Int × Nat :=
  let own := loopRec s d
  let upTo := own.failSec.getD s.clk.sec
  let keep (r : DpllSt) : Int × Option Int × Nat := (r.y0, r.t0, r.sy)
  if d = 1 then
    let z := loopRec s 0
    if dpllSt s 0 = 3 then keep z else (estimate s z.bins upTo).getD (keep z)
  else (estimate s own.bins upTo).getD (keep own)

/-- A DPLL's record as it stands down: no slot, no count, no whole second in LOCKED. -/
def DpllSt.idle (r : DpllSt) : DpllSt := { r with lockMs := 0, wholeSec := false, lost := false, failSec := none, handPending := false }

/-- A DPLL enters HOLDOVER (R129, R139, R141, R142). -/
def enterHoldover (s : State) (d : Nat) (disp : Bool) : State :=
  let m := frozenModel s d
  let r : DpllSt := { (loopRec s d).idle with y0 := m.1, t0 := m.2.1, sy := m.2.2, formed := true, age := 0, lastTemps := [], err := 0 }
  let r1 := { r with d := dpllFreqPpt s d - modelFreq s r }
  let s1 := setLoopRec s d r1
  let s2 := if d = 0 then ((showModel s1 m.1 m.2.1).wr (clkB + 0x414) 0).wr (clkB + 0x418) 0 else s1
  setLoop s2 d 3 false (s.fld (dpllState d) 6 4) disp

/-- A DPLL enters FREERUN: the local oscillator gives its frequency (R129; the frequency is DEDUCED, log entry 11). -/
def enterFreerun (s : State) (d : Nat) (disp : Bool) : State :=
  let s1 := setLoopRec s d (loopRec s d).idle
  setLoop (s1.wr (dpllFreq d) 0) d 0 false (s.fld (dpllState d) 6 4) disp

/-- No slot is left to follow (R129): ACQUIRE and LOCKED go to HOLDOVER with a valid model and to FREERUN without one. -/
def fallBack (s : State) (d : Nat) (disp : Bool) : State :=
  if dpllSt s d = 0 ∨ dpllSt s d = 3 then setLoop s d (dpllSt s d) false (s.fld (dpllState d) 6 4) disp
  else if hoValidOf s d then enterHoldover s d disp
  else enterFreerun s d disp

/-- Two slots agree (R111): by the accept limits as the monitors apply them, so by 16 times the programmed ones under R108 (DESIGN CHOICE, log
entry 159). -/
def refsAgree (s : State) (a b : Nat) : Bool := decide ((refFoff s a - refFoff s b).natAbs ≤ min (acceptLim s a) (acceptLim s b))

/-- Do the slots of a list all agree? -/
def allAgree (s : State) (l : List Nat) : Bool := l.all fun a => l.all fun b => refsAgree s a b

/-- An enabled, QUALIFIED slot that is not DRIFTING: a candidate for any rank, and a witness (R114, R120). -/
def refSound (s : State) (n : Nat) : Bool := refEnabled s n && refQual s n && !refDrift s n

/-- What a DPLL in AUTO decides on a tick: stay as it is (on its slot, or with none), switch to a slot, or stay in an unresolved
disagreement of the slots listed. -/
inductive Choice where
  | stay
  | pick (n : Nat)
  | dispute (among : List Nat)
  deriving DecidableEq, Repr

/-- The chosen member of a list of slots that agree: the current slot if it is among them, else the lowest (R119). -/
def pickOf (l : List Nat) (cur : Option Nat) : Option Nat :=
  match cur with
  | some c => if l.contains c then some c else l.head?
  | none => l.head?

/-- The decision of R114 to R128 and R825 for DPLL `d` whose current slot, if it has not failed, is `cur`. A resolved supported set that leaves out
a current slot of equal rank switches under R122 and stays under R115, R118 and the pseudocode: it stays (DEDUCED, log entry 160). -/
def autoChoice (s : State) (d : Nat) (cur : Option Nat) : Choice :=
  let cand := (List.range 8).filter fun n => refSound s n && decide (refRank s d n ≠ 0)
  match cand with
  | [] => .stay
  | c0 :: _ =>
    let best := cand.foldl (fun a n => min a (refRank s d n)) (refRank s d c0)
    let s0 := cand.filter fun n => refRank s d n = best
    let resolved : Option (List Nat) :=
      if allAgree s s0 then some s0
      else
        let w := s0.filter fun x => (List.range 8).any fun y => y != x && refSound s y && refsAgree s x y
        let w1 := if w = [] ∧ hoValidOf s d then
            s0.filter fun x => decide ((refFoff s x - sbits (s.rd (clkB + 0x404)) 31 0).natAbs ≤ acceptLim s x)
          else w
        if w1 = [] ∨ !allAgree s w1 then none else some w1
    match resolved with
    | none => .dispute s0
    | some l =>
      match cur with
      | none => match pickOf l none with
        | some n => .pick n
        | none => .stay
      | some c =>
        let toward (m : List Nat) : Choice := match pickOf m (some c) with
          | some n => if n = c then .stay else .pick n
          | none => .stay
        if refDrift s c ∨ refRank s d c = 0 then toward l
        else
          let waited := l.filter fun x => decide (s.fld (dpllCfg d) 31 24 * 1000 ≤ (slotRec s x).qualAge)
          if best < refRank s d c ∧ s.flag (dpllCfg d) 7 ∧ waited ≠ [] then toward waited else .stay

/-- DISPUTE of DPLL `d` as it stands: kept while its state does not change. -/
def setDispute (s : State) (d : Nat) (b : Bool) : State :=
  if s.flag (dpllState d) 9 = b then s
  else setLoop s d (dpllSt s d) (dpllSel s d).isSome (s.fld (dpllState d) 6 4) b

/-- One DPLL's selection on a selection tick (R112 to R128); `offs` are the slots' phases against its output. Answers the state
and the slots of an unresolved disagreement. -/
def selectOn (s : State) (d : Nat) (offs : List Int) : State × List Nat :=
  let cur := match dpllSel s d with
    | some n => if refQual s n then some n else none
    | none => none
  match dpllMode s d with
  | 0 =>
    match autoChoice s d cur with
    | .stay => (if cur.isSome then setDispute s d false else fallBack s d false, [])
    | .pick n => (selectSlot s d n (offs.getD n 0), [])
    | .dispute l =>
      let s1 := if s.flag (dpllState d) 9 then s else clkEvent s 4
      let s2 := forEach l s1 fun n t => t.orReg (refHist n) (bitW 0 true)
      (if cur.isSome then setDispute s2 d true else fallBack s2 d true, l)
  | 1 =>
    let n := s.fld (dpllCfg d) 6 4
    if refEnabled s n && refQual s n then
      (if cur = some n then setDispute s d false else selectSlot s d n (offs.getD n 0), [])
    else (fallBack s d false, [])
  | _ => (s, [])

/-- DISPUTANT of every slot (CLK_REFn_STATUS). -/
def setDisputants (s : State) (l : List Nat) : State :=
  forEach (List.range 8) s fun n t =>
    if t.flag (refStatus n) 6 = l.contains n then t else t.setFlag (refStatus n) 6 (l.contains n)

/-- The frequency at which DPLL `d` drives its outputs: DPLL2 and DPLL3 within 100 ppm of the network path's (R136, DEDUCED, log entry 161). -/
def clampLoop (s : State) (d : Nat) (y : Int) : Int :=
  let f0 := dpllFreqPpt s 0
  let lim := (10 ^ 12 + f0) / 10 ^ 4
  if d < 2 then y else clampI (f0 - lim) (f0 + lim) y

/-- A DPLL that follows a slot measures its phase and frequency for a millisecond (R129, R130). -/
def measureLoop (s : State) (d : Nat) (m : LoopMeas) : State :=
  let r := loopRec s d
  if (dpllSt s d = 1 ∨ dpllSt s d = 2) ∧ dpllMode s d ≠ 4 ∧ !r.lost then
    let s1 := (s.wr (dpllPherr d) (sat32 m.pherr)).wrSigned (dpllFreq d) (clampLoop s d (reTrim 0 (oscTrim s) m.freq))
    let ok := decide (m.pherr.natAbs ≤ s.fld (clkB + 0x204 + 0x40 * d) 15 0 * 1000)
    setLoopRec s1 d { r with lockMs := if dpllSt s d = 1 ∧ ok then r.lockMs + 1 else 0 }
  else s

/-- A millisecond passes for a slot: its count toward QUALIFIED, or its time since (R104, R105, R117). -/
def ageSlot (s : State) (n : Nat) : State :=
  let r := slotRec s n
  let v := s.rd (refStatus n)
  if bits v 1 0 = 3 then setSlotRec s n { r with qualAge := r.qualAge + 1 }
  else if bits v 1 0 = 2 ∧ bit v 5 then
    let ms := min (r.qualMs + 1) (qualTime s)
    (setSlotRec s n { r with qualMs := ms }).setFld (refStatus n) 31 24 (qualLeft s ms)
  else s

/-- The value of the least-squares line `proj` seconds after the newest of `win` (newest first), rounded to the nearest (R125). -/
def projectLine (win : List Int) (proj : Nat) : Int :=
  let n := win.length
  let ys := win.reverse
  let sum := ys.foldl (· + ·) 0
  let sxy := (ys.foldl (fun (p : Int × Int) y => (p.1 + p.2 * y, p.2 + 1)) (0, 0)).1
  let num := 12 * sxy - 6 * ((n : Int) - 1) * sum
  divRound (sum * 2 * (n * n - 1 : Nat) + num * ((n - 1 + 2 * proj : Nat))) (2 * n * (n * n - 1))

/-- A QUALIFIED slot takes its newest FOFF into its slope fit; PROJ and DRIFTING follow (R125, R126). The fit takes the values since the slot
qualified, one for each update, and PROJ keeps its value until SLOPE_WIN of them exist (DEDUCED, log entry 12). -/
def fitSlope (s : State) (n : Nat) : State :=
  if refQual s n then
    let r := slotRec s n
    let w := (refFoff s n :: r.win).take 255
    let s1 := setSlotRec s n { r with win := w }
    if w.length < slopeWin s then (if refDrift s n then s1.setFlag (refStatus n) 7 false else s1)
    else
      let p := sat32 (projectLine (w.take (slopeWin s)) (projWin s))
      let s2 := s1.wr (clkB + 0x114 + 0x20 * n) p
      let drift := decide (rejectLim s n < (sbits p 31 0).natAbs)
      let s3 := s2.setFlag (refStatus n) 7 drift
      if drift && !refDrift s n then clkEvent (s3.orReg (refHist n) (bitW 1 true)) 5 else s3
  else s

/-- Every value that is referred to OSCIN follows a change of CLK_OSC_TRIM (R96, R110). A slot never measured keeps FOFF 0, and a
y0 never formed keeps 0. -/
def rebaseTrim (s : State) (old new : Int) : State :=
  let go (t : State) (a : Nat) : State := t.wr a (sat32 (reTrim old new (sbits (t.rd a) 31 0)))
  let s1 := forEach (List.range 8) s fun n t =>
    let r := slotRec t n
    if r.measured then
      go (go (setSlotRec t n { r with win := r.win.map (reTrim old new) }) (clkB + 0x110 + 0x20 * n)) (clkB + 0x114 + 0x20 * n)
    else t
  let s2 := forEach [0, 1, 2, 3] s1 fun d t =>
    let r := loopRec t d
    let t1 := setLoopRec t d
      { r with bins := r.bins.map fun b => { b with y := reTrim old new b.y }, y0 := if r.formed then reTrim old new r.y0 else r.y0 }
    if dpllSt t d = 0 then t1 else go t1 (dpllFreq d)
  if (loopRec s 0).formed then go s2 (clkB + 0x404) else s2

/-- The most bins that any AVG and GUARD can need. -/
def maxBins : Nat := 65535 + 255 + 1

/-- The end of a second of the model's grid for DPLL `d` with mean frequency `y` and the sensors' mean temperatures (R137 to R139): a bin where the
whole second was LOCKED, the running estimate outside HOLDOVER, HO_VALID with its trim load (R109). -/
def binSecond (s : State) (d : Nat) (y : Int) (temps : AMap Int) : State :=
  let r := loopRec s d
  if dpllMode s d = 4 ∨ dpllSt s d = 3 then s
  else
    let made := decide (dpllSt s d = 2) && r.wholeSec
    let bins := if made then (⟨s.clk.sec, reTrim 0 (oscTrim s) y, temps⟩ :: r.bins).take maxBins else r.bins
    let est := estimate s bins (s.clk.sec + 1)
    let r1 : DpllSt := match est with
      | some (y0, t0, sy) => { r with bins := bins, y0 := y0, t0 := t0, sy := sy, formed := true }
      | none => { r with bins := bins }
    let r2 := { r1 with wholeSec := decide (dpllSt s d = 2) }
    let valid := !r.hoValid && made && decide (hoAvg s ≤ bins.length)
    let s1 := setLoopRec s d { r2 with hoValid := r.hoValid || valid }
    let s2 := if d = 0 ∧ est.isSome then showModel s1 r2.y0 r2.t0 else s1
    let s3 := if valid && d == 0 && decide (s.rd (clkB + 0x054) = 0) then
        let sum : Int := (bins.take (hoAvg s)).foldl (fun a b => a + b.y) 0
        let n : Int := (hoAvg s * 10 ^ 12 : Nat)
        let trim := divRound (-sum * 10 ^ 12) (n + sum).toNat
        rebaseTrim (s2.wrSigned (clkB + 0x054) trim) 0 trim
      else s2
    if valid then (if d = 0 then refreshLoop (refreshLoop s3 0) 1 else refreshLoop s3 d) else s3

/-- A DPLL becomes LOCKED (R129): its bins start anew. -/
def becomeLocked (s : State) (d : Nat) : State :=
  let s1 := setLoopRec s d { loopRec s d with bins := [], wholeSec := false }
  setLoop s1 d 2 true (s.fld (dpllState d) 6 4) (s.flag (dpllState d) 9)

/-- A DPLL leaves FOLLOW for AUTO, MANUAL or a forced state: it keeps the STATE, the slot and the build-out that it mirrored, and enters the holdover
that it showed on a model of its own, or free run with none (R113, R827, R828; DESIGN CHOICE, log entry 162). -/
def leaveFollow (s : State) (d : Nat) : State :=
  let z := loopRec s 0
  let s1 := setLoopRec s d { (loopRec s d).idle with bins := [], lost := z.lost, failSec := z.failSec }
  if dpllSt s d = 3 then (if hoValidOf s1 d then enterHoldover s1 d false else enterFreerun s1 d false) else s1

/-- A domain that has come to follow a slot that carries time, as DPLL1 takes to FOLLOW, has that slot's offset handed over (R135, R179, R831). -/
def followStarts (s : State) : State :=
  match dpllSel s 0 with
  | some n => if (dpllSt s 0 = 1 ∨ dpllSt s 0 = 2) ∧ slotType s n ≠ 0 then handOver s n 1 else s
  | none => s

/-- A write of CLK_DPLLd_CFG takes effect (R113, R129, R826, R827): FORCE_HOLDOVER and FORCE_FREERUN act at once, OFF stops DPLL1,
FOLLOW mirrors DPLL0; the other modes act at the next selection tick. -/
def applyMode (s : State) (d oldMode : Nat) : State :=
  let mode := dpllMode s d
  if mode = oldMode then mirrorLoops (refreshLoop s d)
  else if mode = 5 then
    let s2 := setLoopRec s 1 (loopRec s 1).idle
    mirrorLoops (setLoop (((s2.wr (dpllPherr 1) 0).wr (dpllFreq 1) 0).wr (dpllBuild 1) 0) 1 0 false 0 false)
  else if mode = 4 then
    let s2 := mirrorLoops (setLoopRec s d (loopRec s d).idle)
    if d = 1 then followStarts s2 else s2
  else
    let s1 := if oldMode = 4 then leaveFollow s d else s
    let s2 := refreshLoop s1 d
    let stays := setDispute s2 d false
    mirrorLoops (
      if mode = 2 then (if dpllSt s2 d = 0 then stays else if hoValidOf s2 d then fallBack s2 d false else enterFreerun s2 d false)
      else if mode = 3 then (if dpllSt s2 d = 0 then stays else enterFreerun s2 d false)
      else s2)

/-- OSCIN's nominal frequency by OSC_FREQ, in units of 100 kHz (R143). -/
def oscNominal (c : Word) : Nat :=
  match bits c 1 0 with
  | 0 => 100
  | 1 => 200
  | 2 => 250
  | _ => 500

/-- The frequency in Hz of a bypass source: 0 OSCIN, 1 to 4 REFIN0 to REFIN3. What a REFIN carries is taken as its slot's NOM (DESIGN CHOICE, log
entry 163). -/
def bypHz (s : State) (code : Nat) : Nat :=
  if code = 0 then oscNominal (s.rd (clkB + 0x050)) * 100000 else max 1 (s.rd (refCfg (code - 1) + 4)).toNat

/-- Does the network bypass clock lie within 100 ppm of 156.25 MHz (R154)? -/
def netNear (s : State) : Bool :=
  let c := s.fld (clkB + 0x05C) 2 0
  let y : Int := if c = 0 then 0 else refFoff s (c - 1)
  decide (((bypHz s c : Int) * (10 ^ 12 + y) - 156250000 * 10 ^ 12).natAbs ≤ 15625 * 10 ^ 12)

/-- CLK_OUTk_CFG; DELAY and STATUS lie 0x0C and 0x10 above it. -/
def clkOutA (k : Nat) : Nat := clkB + 0x300 + 0x20 * k
/-- The record of output `k`. -/
def clkOut (s : State) (k : Nat) : ClkOut := AMap.getD s.clk.outs k {}
/-- Replace it. -/
def setClkOut (s : State) (k : Nat) (x : ClkOut) : State := { s with clk := { s.clk with outs := AMap.put s.clk.outs k x {} } }

/-- The delay that CLK_OUTk_DELAY asks for, in fine steps (R147). -/
def delayAsked (s : State) (k : Nat) : Nat := s.fld (clkOutA k + 0x0C) 31 16 * 1024 + s.fld (clkOutA k + 0x0C) 9 0

/-- The length of a period of output `k`: DIV and FRAC in 2^-24 VCO periods, steered by the DPLL that SRC names (R136, R146); in bypass that of BYP_SRC
divided by BYP_DIV, in 2^-40 ns (R154). -/
def outPeriod (s : State) (k : Nat) : Nat :=
  let c := s.rd (clkOutA k)
  if inBypass s then bits c 31 24 * (10 ^ 9 * 2 ^ 40) / bypHz s (bits c 18 16)
  else
    let p : Nat := (s.rd (clkOutA k + 4)).toNat * 2 ^ 24 + s.fld (clkOutA k + 8) 23 0
    let d := if bits c 1 0 = 0 then 0 else bits c 1 0 + 1
    let own : Int := 10 ^ 12 + dpllFreqPpt s 0
    let want : Int := 10 ^ 12 + clampLoop s d (dpllFreqPpt s d)
    ((p : Int) * own / want).toNat

/-- The next edge of an output's divider, for a period of `per`; `walk` says that delays walk, `en` is its enable. A falling edge takes up an enable,
and what a cue has changed (R150, R151); a period begins with a rising edge, one fine step late or early while the delay walks (R148), and the output
stops low at the end of the period in which its enable went (R150). -/
def ClkOut.edge (x : ClkOut) (per asked : Nat) (walk en : Bool) : ClkOut :=
  if x.high then
    let want := if x.lateEn then en else x.want
    { x with high := false, want := want, lateEn := false, on := x.on || want, tgt := if x.lateDelay then asked else x.tgt, lateDelay := false }
  else
    let up := walk && decide (x.pos < x.tgt)
    let down := walk && decide (x.tgt < x.pos)
    { x with
      high := true, phase := 0, on := x.on && x.want
      per := if up then per + 2 ^ 14 else if down then per - 2 ^ 14 else per
      pos := if up then x.pos + 1 else if down then x.pos - 1 else x.pos }

/-- An output's divider runs for `left` units, at most `fuel` edges; `out` gathers the edges that leave the ball, the newest first, each as its level
and the units that were left. -/
def ClkOut.run (per asked : Nat) (walk en : Bool) : Nat → Nat → ClkOut × List (Bool × Nat) → ClkOut × List (Bool × Nat)
  | 0, _, z => z
  | fuel + 1, left, (x, out) =>
    let due := (if x.high then x.per / 2 else x.per) - x.phase
    if left < due then ({ x with phase := x.phase + left }, out)
    else
      let y := ClkOut.edge { x with phase := x.phase + due } per asked walk en
      ClkOut.run per asked walk en fuel (left - due) (y, if (if x.high then x.on else y.on) then (y.high, left - due) :: out else out)

/-- Output `k` over a tick of the Sundial from node time `before`, which moves by `inc`: 8 VCO periods, or the tick's own length in bypass. After a fatal
fault it stops low after the period in progress (R780). -/
def tickClkOut (s : State) (k before inc : Nat) : State :=
  let byp := inBypass s
  let len := if byp then s.sun.bypInc else 2 ^ 27
  let x := clkOut s k
  let y := if s.flag (monB + 0x048) 31 then { x with want := false, lateEn := false } else x
  let z := ClkOut.run (outPeriod s k) (delayAsked s k) (!byp) (s.flag (clkB + 0x060) k) 4096 len (y, [])
  let s1 := setClkOut s k z.1
  let s2 := if s.flag (clkOutA k + 0x10) 2 = z.1.on then s1 else s1.setFlag (clkOutA k + 0x10) 2 z.1.on
  let s3 := if !s.flag (clkOutA k + 0x10) 1 && (clkOut s k).lateDelay && !z.1.lateDelay && decide (z.1.pos ≠ z.1.tgt) then
      s2.setFlag (clkOutA k + 0x10) 1 true else s2
  forEach z.2.reverse s3 fun e t => t.emit (.edge (.clkout k) (e.1 != s.flag (clkOutA k) 4) (before + (len - e.2) * inc / len))

/-- The outputs over a tick. -/
def tickClkOuts (s : State) (before inc : Nat) : State := forEach (List.range 8) s fun k t => tickClkOut t k before inc

/-- The outputs go to their bypass sources, or come back with their programmed delays (R153, R154, R157): a new period begins to run on. -/
def switchClkOuts (s : State) : State :=
  let byp := inBypass s
  forEach (List.range 8) s fun k t =>
    let x := clkOut t k
    let y := { x with phase := 0, per := outPeriod t k }
    let t1 := t.setFlag (clkOutA k + 0x10) 0 byp
    if byp then setClkOut t1 k y
    else setClkOut (t1.setFlag (clkOutA k + 0x10) 1 false) k { y with high := false, pos := delayAsked t k, tgt := delayAsked t k, lateDelay := false }

/-- A write of CLK_OUT_EN (R150), a cue's from the next falling edge on (R151). -/
def outEnWritten (s : State) (cue : Bool) : State :=
  forEach (List.range 8) s fun k t =>
    let x := clkOut t k
    let en := t.flag (clkB + 0x060) k
    if cue then (if en = x.want then t else setClkOut t k { x with lateEn := true }) else setClkOut t k { x with want := en, lateEn := false }

/-- A write of CLK_OUTk_DELAY retargets the walk from its present position (R148, R149), a cue's from the next falling edge on (R151). -/
def outDelayWritten (s : State) (k : Nat) (cue : Bool) : State :=
  let x := clkOut s k
  if cue then setClkOut s k { x with lateDelay := true }
  else (setClkOut s k { x with tgt := delayAsked s k, lateDelay := false }).setFlag (clkOutA k + 0x10) 1 (decide (x.pos ≠ delayAsked s k))

end Sys2Proof.Machine
end

