-- ==== Sys2Proof/Machine/Clk.lean ====
section
/-!
DEFINITION. Clk.lean: the events of the reference slots, the DPLLs and the holdover model
(03_reference_and_synthesis.md), one meaning per row of the table. The rows that are register writes stand in
ClkWrites.lean; loss and return of lock, which reach every engine, stand in Bypass.lean.
-/
namespace Sys2Proof.Machine

/-- Does what arrives count as valid on the slot (R824)? Answers none where nothing of the slot's TYPE arrived. -/
def arrivalValid (s : State) (n : Nat) (x : Arrival) : Option Bool :=
  match slotType s n, x with
  | 0, .edge => some true
  | 0, .pps _ _ => some true
  | 1, .edge => some (!refActive s n)
  | 1, .pps iv _ => some (!refActive s n || decide ((10 ^ 12 : Int) + oscTrim s - 10 ^ 6 ≤ iv))
  | 2, .ptp _ => if portIs s (refSource s n) 0 ∧ s.fld (sunB + 0x100C + 0x10 * refSource s n) 2 0 = 3 then some true else none
  | 3, .word => if portIs s (refSource s n) 1 then some true else none
  | _, _ => none

/-- The offsets that a valid arrival gives for the two domains (R135, R181, R182): a PPS on a REFIN is reduced to the nearest whole
second; slot 4 gives its offset with its time message, slot 7 with the time word. -/
def arrivalOffsets (s : State) (n : Nat) (x : Arrival) : State :=
  match slotType s n, x with
  | 1, .pps _ x =>
    let sub := placedSub s x
    if n < 4 then
      keepOffset (keepOffset s n 0 (nearestSecond (-((s.sun.d0.t + sub : Nat) : Int)))) n 1
        (nearestSecond (-((s.sun.d1.t + sub : Nat) : Int)))
    else s
  | 2, .ptp o => keepOffset (keepOffset s n 0 o) n 1 (o + s.sun.d0.t - s.sun.d1.t)
  | _, _ => s

/-- An arrival on a slot (R101, R824): a valid one gives activity and its offset; a pulse more than 1 us early loses activity. -/
def arrive (s : State) (n : Nat) (x : Arrival) : State :=
  if !clkRuns s ∨ !refEnabled s n then s
  else
    match arrivalValid s n x with
    | some true =>
      let s1 := gainActivity (arrivalOffsets s n x) n
      handIfPending (handIfPending s1 n 0) n 1
    | some false => loseActivity s n
    | none => s

/-- REF_PULSE_ARRIVAL (R824). -/
def execRefPulseArrival (n : Fin 8) (x : Arrival) (s : State) : Result := .next (arrive s n x)

/-- REF_ACTIVITY_LOST (R101, R106, R130). -/
def execRefActivityLost (n : Fin 8) (s : State) : Result := .next (if clkRuns s then loseActivity s n else s)

/-- FOFF_UPDATE (R102): `raw` is the slot's offset from raw OSCIN in ppt, none where the gate held no complete interval. -/
def execFoffUpdate (n : Fin 8) (raw : Option Int) (s : State) : Result :=
  if clkRuns s && refEnabled s n && refActive s n then
    let s1 := match raw with
      | some y => setSlotRec (s.wr (clkB + 0x110 + 0x20 * n.val) (sat32 (reTrim 0 (oscTrim s) y))) n { slotRec s n with measured := true }
      | none => s
    .next (fitSlope (judgeSlot s1 n) n)
  else .next s

/-- SLOT_QUALIFIED (R104): valid once the count is complete. -/
def execSlotQualified (n : Fin 8) (s : State) : Result :=
  if clkRuns s ∧ s.fld (refStatus n) 1 0 = 2 ∧ s.flag (refStatus n) 5 ∧ qualTime s ≤ (slotRec s n).qualMs then
    let s1 := s.wr (refStatus n) (putBits (putBits (s.rd (refStatus n)) 31 24 0) 1 0 3)
    let s2 := setSlotRec s1 n { slotRec s n with qualMs := 0, qualAge := 0, win := [] }
    .next (clkEvent (s2.orReg (refHist n) (bitW 4 true)) 11)
  else .next s

/-- SELECTION_TICK (R112): a millisecond of the counts and loops, then one decision of each DPLL. -/
def execSelectionTick (meas : List LoopMeas) (s : State) : Result :=
  if !clkRuns s then .next s
  else
    let m (d : Nat) : LoopMeas := meas.getD d ⟨0, 0, []⟩
    let s1 := forEach (List.range 8) s fun n t => ageSlot t n
    let s2 := forEach [0, 1, 2, 3] s1 fun d t => measureLoop t d (m d)
    let p0 := selectOn s2 0 (m 0).offs
    let p1 := selectOn p0.1 1 (m 1).offs
    let p2 := selectOn p1.1 2 (m 2).offs
    let p3 := selectOn p2.1 3 (m 3).offs
    .next (mirrorLoops (setDisputants p3.1 (p0.2 ++ p1.2)))

/-- DPLL_LOCKED (R129): valid once the phase error has stayed within LOCK_WIN for LOCK_TIME. -/
def execDpllLocked (d : Fin 4) (s : State) : Result :=
  if clkRuns s ∧ dpllSt s d = 1 ∧ dpllMode s d ≠ 4 ∧ s.fld (clkB + 0x204 + 0x40 * d.val) 23 16 * 1000 ≤ (loopRec s d).lockMs then
    .next (mirrorLoops (becomeLocked s d))
  else .next s

/-- HOLDOVER_BIN (R137): the end of a second of the model's grid; `y0`, `y2`, `y3` are the mean frequencies of DPLL0, DPLL2, DPLL3 over
it, in ppt of raw OSCIN. -/
def execHoldoverBin (y0 y2 y3 : Int) (s : State) : Result :=
  if !clkRuns s then .next s
  else
    let ts := secondTemps s
    let s1 := { s with clk := { s.clk with temps := [] } }
    let s2 := binSecond (binSecond (binSecond s1 0 y0 ts) 2 y2 ts) 3 y3 ts
    .next (mirrorLoops { s2 with clk := { s2.clk with sec := s2.clk.sec + 1 } })

/-- HOLDOVER_SECOND (R140 to R142): a second in HOLDOVER of DPLL `d`. -/
def execHoldoverSecond (d : Fin 4) (s : State) : Result :=
  if clkRuns s ∧ dpllSt s d = 3 ∧ dpllMode s d ≠ 4 then
    let r := loopRec s d
    let age := r.age + 1
    let k := s.fld (clkB + 0x400) 3 2
    let last := match tselReading s with
      | some x => AMap.set r.lastTemps k x
      | none => r.lastTemps
    let r1 := { r with age := age, lastTemps := last, d := if 0 ≤ r.d then max 0 (r.d - 1000) else min 0 (r.d + 1000) }
    let dt : Nat := match hoTemp s r1, r.t0 with
      | some t, some t0 => (t - t0).natAbs
      | _, _ => 0
    let unc := s.rd (clkB + 0x410)
    let err := r.err + r.sy + bits unc 31 16 * age * 100000 / 86400 + bits unc 15 0 * dt * 25000
    let s1 := setLoopRec s d { r1 with err := err }
    let s2 := s1.wrSigned (dpllFreq d) (clampLoop s1 d (modelFreq s1 r1 + r1.d))
    let s3 := if d.val = 0 then
        (s2.wr (clkB + 0x414) (w32 (min (err / 1000000000) (2 ^ 32 - 1)))).wr (clkB + 0x418) (w32 (min age (2 ^ 32 - 1)))
      else s2
    .next (refreshQc (mirrorLoops s3))
  else .next s

/-- DELAY_WALK_DONE (R148): valid once output `k` has walked to its target, out of bypass. -/
def execDelayWalkDone (k : Fin 8) (s : State) : Result :=
  if clkRuns s ∧ s.flag (clkOutA k + 0x10) 1 ∧ (clkOut s k).pos = (clkOut s k).tgt ∧ !inBypass s then .next (s.setFlag (clkOutA k + 0x10) 1 false)
  else .next s

/-- BYPASS_INC_SCALE (R168): valid in bypass on OSCIN. -/
def execBypassIncScale (s : State) : Result :=
  if clkRuns s ∧ inBypass s ∧ s.fld (clkB + 0x05C) 2 0 = 0 then .next (loadBypInc s) else .next s

end Sys2Proof.Machine
end

