-- ==== Sys2Proof/Machine/Crc.lean ====
section
/-!
DEFINITION. Crc.lean: the check sums of the spec: the CRC-16 of R210, which R355 uses too, and the CRC-32 of R273, which is
also the frame check sequence of IEEE 802.3.
-/
namespace Sys2Proof.Machine

/-- One bit of the CRC-16 of R210: polynomial x^16 + x^12 + x^5 + 1, most significant bit first. -/
def crc16Bit (c : Nat) (b : Bool) : Nat :=
  let top := (c / 2 ^ 15 % 2 == 1) != b
  let d := c * 2 % 2 ^ 16
  if top then d ^^^ 0x1021 else d

/-- One byte of it. -/
def crc16Byte (c : Nat) (x : Byte) : Nat := [7, 6, 5, 4, 3, 2, 1, 0].foldl (fun a i => crc16Bit a (x.getLsbD i)) c

/-- The CRC-16 of R210 over bytes. -/
def crc16 (l : List Byte) : Nat := l.foldl crc16Byte 0xFFFF

/-- One bit of the reflected CRC-32. -/
def crc32Bit (c : Nat) (b : Bool) : Nat :=
  let low := (c % 2 == 1) != b
  if low then (c / 2) ^^^ 0xEDB88320 else c / 2

/-- One byte of it. -/
def crc32Byte (c : Nat) (x : Byte) : Nat := [0, 1, 2, 3, 4, 5, 6, 7].foldl (fun a i => crc32Bit a (x.getLsbD i)) c

/-- The CRC-32 of R273 over bytes. -/
def crc32 (l : List Byte) : Nat := l.foldl crc32Byte 0xFFFFFFFF ^^^ 0xFFFFFFFF

end Sys2Proof.Machine
end

