-- ==== Sys2Proof/Machine/SunOut.lean ====
section
/-!
DEFINITION. SunOut.lean: the time outputs of the Sundial (R216 to R222): PPS 0 and 1, timecode 2 and 3, word clocks 4 to 7;
and what a Sundial tick does before its rarer consequences, which are rows of their own.
-/
namespace Sys2Proof.Machine

/-- The CFG and ADJ registers of time output `k`. -/
def outCfg (k : Nat) : Nat :=
  if k < 2 then sunB + 0x100 + 0x10 * k else if k < 4 then sunB + 0x120 + 0x10 * (k - 2) else sunB + 0x140 + 0x10 * (k - 4)
/-- See `outCfg`. -/
def outAdj (k : Nat) : Nat :=
  if k < 2 then sunB + 0x104 + 0x10 * k else if k < 4 then sunB + 0x128 + 0x10 * (k - 2) else sunB + 0x144 + 0x10 * (k - 4)

/-- Is the output enabled? -/
def outEnabled (s : State) (k : Nat) : Bool := s.flag (outCfg k) 0

/-- ADJ of an output in 2^-40 ps. -/
def outTarget (s : State) (k : Nat) : Int := sbits (s.rd (outAdj k)) 31 0 * 2 ^ 40

/-- The record of an output. -/
def outRec (s : State) (k : Nat) : TimeOut := AMap.getD s.sun.outs k {}
/-- Replace it. -/
def setOutRec (s : State) (k : Nat) (o : TimeOut) : State := { s with sun := { s.sun with outs := AMap.set s.sun.outs k o } }

/-- The ball of a time output. -/
def outBall (k : Nat) : Ball := if k < 2 then .pps k else if k < 4 then .ltc (k - 2) else .wclk (k - 4)

/-- RATE in an output's CFG; a PPS output has none. -/
def outRateCfg (s : State) (k : Nat) : Nat := if k < 2 then 0 else if k < 4 then s.fld (outCfg k) 2 1 else s.fld (outCfg k) 3 1

/-- The rate at which an output whose grid has RATE `r` passes boundaries, as a fraction per second: PPS once, timecode once a frame, a word clock
twice a period (R216, R219, R222). -/
def rateOf (k r : Nat) : Nat × Nat :=
  if k < 2 then (1, 1)
  else if k < 4 then
    match r with
    | 0 => (24, 1)
    | 1 => (25, 1)
    | 2 => (30000, 1001)
    | _ => (30, 1)
  else
    match r with
    | 0 => (64000, 1)
    | 1 => (88200, 1)
    | 2 => (96000, 1)
    | 3 => (176400, 1)
    | 4 => (192000, 1)
    | 5 => (352800, 1)
    | _ => (384000, 1)

/-- An offset in 2^-40 ps as 2^-40 ns. -/
def adjTu (x : Int) : Int := Int.fdiv x 1000

/-- The index of the last boundary of an output's grid at or before node time `t`. -/
def TimeOut.index (o : TimeOut) (k t : Nat) : Int :=
  let q := rateOf k o.rate
  Int.fdiv (((t : Int) - adjTu o.adj) * q.1) (tuPerSec * q.2 : Nat)

/-- The node time of boundary `i`: the boundary of the second's grid, shifted by the offset. -/
def TimeOut.instant (o : TimeOut) (k : Nat) (i : Int) : Int :=
  let q := rateOf k o.rate
  adjTu o.adj - Int.fdiv (-(i * (tuPerSec * q.2 : Nat))) q.1

/-- The nearest 12.5 ps step to an instant (Outputs, before R216). -/
def edgeStep (x : Int) : Int := divRound (divRound (x * 80) (2 ^ 40) * 2 ^ 40) 80

/-- Where an edge due at `x` is placed: to 12.5 ps steps; in bypass on the nearest of the two ticks around it (R170). -/
def placeEdge (s : State) (x : Int) (before now : Nat) : Nat :=
  if inBypass s then (if x - before < now - x then before else now) else (edgeStep x).toNat

/-- The drop-frame address of frame `n` since midnight (SMPTE ST 12-1, R220): hours, minutes, seconds, frames. -/
def dropFrame (n : Nat) : Nat × Nat × Nat × Nat :=
  let d := n / 17982
  let m := n % 17982
  let x := n + 18 * d + (if 2 ≤ m then 2 * ((m - 2) / 1798) else 0)
  (x / 108000 % 24, x / 1800 % 60, x / 30 % 60, x % 30)

/-- The 80 bits of a frame of timecode with an address, user bits, binary group flags 0b00 and the sync word (R219, R221). The layout is that of
SMPTE ST 12-1, which the spec names and does not print (PRESUMED, log entry 165): the drop-frame flag is bit 10, and the polarity correction, bit
59 at 25 frames per second and bit 27 at the other rates, makes the number of zeros even. -/
def ltcBits (rate : Nat) (a : Nat × Nat × Nat × Nat) (ub : Word) : List Bool :=
  let fld (n x : Nat) : List Bool := (List.range n).map fun i => x.testBit i
  let user (i : Nat) : List Bool := fld 4 (bits ub (4 * i + 3) (4 * i))
  let body (pol : Bool) : List Bool :=
    fld 4 (a.2.2.2 % 10) ++ user 0 ++ fld 2 (a.2.2.2 / 10) ++ [rate == 2, false] ++ user 1 ++
    fld 4 (a.2.2.1 % 10) ++ user 2 ++ fld 3 (a.2.2.1 / 10) ++ [pol && rate != 1] ++ user 3 ++
    fld 4 (a.2.1 % 10) ++ user 4 ++ fld 3 (a.2.1 / 10) ++ [false] ++ user 5 ++
    fld 4 (a.1 % 10) ++ user 6 ++ fld 2 (a.1 / 10) ++ [false, pol && rate == 1] ++ user 7 ++ fld 16 0xBFFC
  body (((body false).filter fun b => !b).length % 2 == 1)

/-- The time address of a frame of RATE `rt` that starts at node time `b` (R220, R221, with the leap second of R223). -/
def ltcAddress (s : State) (k rt : Nat) (b : Nat) : Nat × Nat × Nat × Nat :=
  let cfg := s.rd (outCfg k)
  let sec : Int := (b / tuPerSec : Nat)
  let utc : Int :=
    match s.sun.leapAt with
    | some l =>
      let off := utcOffset s
      if s.flag (sunB + 0x060) 1 then (if (l : Int) ≤ sec then sec - (off - 1) else sec - off)
      else if (l : Int) ≤ sec then sec - (off + 1)
      else if (l : Int) = sec + 1 then sec - off - 1
      else sec - off
    | none => sec - utcOffset s
  let scaled := (if bit cfg 3 then sec else utc) + 60 * sbits cfg 31 16
  let day := (scaled % 86400).toNat
  let frac := b % tuPerSec
  match rt with
  | 2 => dropFrame ((day * tuPerSec + frac) * 30000 / (1001 * tuPerSec))
  | r =>
    let rate := if r = 0 then 24 else if r = 1 then 25 else 30
    (day / 3600, day / 60 % 60, day % 60, frac * rate / tuPerSec)

/-- Is a field output turned off after a short, by its bit of PWR_FIELD_STAT (R741)? -/
def fieldOff (s : State) (b : Nat) : Bool := s.flag (pwrB + 0x0A0) b

/-- Does a time output stay low at its boundary `i`: after a fatal fault (R780); turned off after a short (R741); PPS_OUT0 while the Lodge emits
it, up to the second at which the Sundial takes it back (R719, R726, R808); the others from second S of an entry to P3 (R718)? -/
def outMuted (s : State) (k : Nat) (i : Int) : Bool :=
  s.flag (monB + 0x048) 31 || fieldOff s k ||
    (if k = 0 then
      s.sun.ppsLodge && !(match s.pwr.loaded with
        | some w => decide ((w : Int) < i)
        | none => false)
     else s.pwr.change == .railsOff)

/-- An output goes high or low at node time `p`. -/
def driveOut (s : State) (k : Nat) (high : Bool) (p : Nat) : State :=
  (setOutRec s k { outRec s k with high := high }).emit (.edge (outBall k) high p)

/-- A PPS pulse rises at node time `p` (R216): its end is reckoned from its rise. -/
def raisePps (s : State) (k p now : Nat) : State :=
  let o := { outRec s k with ends := s.elapsed + s.fld (outCfg k) 31 12 * 1000 * tuPerNs - (now - p) }
  driveOut (setOutRec s k o) k true p

/-- Where an edge due at the elapsed time `e`, which has passed, is placed on node time. -/
def placeAt (s : State) (e before now : Nat) : Nat := placeEdge s ((now : Int) - (s.elapsed - e : Nat)) before now

/-- An output starts: it takes its RATE and its offset at once, and its next edge is the first aligned one after `t` (R217, R218). -/
def startOut (s : State) (k : Nat) (o : TimeOut) (t : Nat) : State :=
  let n := { o with adj := outTarget s k, acc := 0, rate := outRateCfg s k, busy := false, restart := false }
  setOutRec s k { n with last := n.index k t }

/-- A word clock or timecode output is at a boundary `i` where a period or a frame may start, due at `x` and placed at `p`: the one in progress has
ended. A RATE written meanwhile takes the output to its new grid (R217). -/
def startPeriod (s : State) (k : Nat) (i x : Int) (p before : Nat) : State :=
  let o := outRec s k
  if !outEnabled s k || outMuted s k i then setOutRec s k { o with busy := false, restart := false }
  else if o.restart then startOut s k o before
  else if outRateCfg s k ≠ o.rate then
    let n := { o with rate := outRateCfg s k, busy := false }
    setOutRec s k { n with last := n.index k before }
  else
    let s1 := setOutRec s k { o with busy := true }
    if k < 4 then
      s1.emit (.ltcFrame (k - 2) p (ltcBits o.rate (ltcAddress s k o.rate (x - adjTu o.adj).toNat) (s.rd (sunB + 0x124 + 0x10 * (k - 2)))))
    else if o.high then s1 else driveOut s1 k true p

/-- An output passes boundary `i`, due at node time `x` and placed at `p`. -/
def outBoundary (s : State) (k : Nat) (i x : Int) (p before now : Nat) : State :=
  if k < 2 then (if outEnabled s k && !outMuted s k i then raisePps s k p now else s)
  else if k < 4 ∨ i % 2 = 0 then startPeriod s k i x p before
  else if (outRec s k).high then driveOut s k false p
  else s

/-- A PPS pulse that has lasted its WIDTH falls, on a 12.5 ps step (R216). -/
def endPps (s : State) (k before now : Nat) : State :=
  let o := outRec s k
  if k < 2 ∧ o.high ∧ o.ends ≤ s.elapsed then driveOut s k false (placeAt s o.ends before now) else s

/-- The edge of the second on which a step has landed falls, ADJ after the step (R187). -/
def payOwed (s : State) (k before now : Nat) : State :=
  let o := outRec s k
  match o.owed with
  | some e =>
    if e ≤ s.elapsed then
      let s1 := setOutRec s k { o with owed := none }
      if outEnabled s k && !outMuted s k o.last then raisePps s1 k (placeAt s e before now) now else s1
    else s
  | none => s

/-- The offset of an output walks by one tick (R218). -/
def walkOut (s : State) (k inc : Nat) : State :=
  let goal := outTarget s k
  let o := outRec s k
  let total := slewMax s * inc * 1000 + o.acc
  let amt := min (total / 1000000000) (goal - o.adj).natAbs
  let adj := if o.adj ≤ goal then o.adj + amt else o.adj - amt
  if goal = o.adj then s else setOutRec s k { o with adj := adj, acc := if adj = goal then 0 else total % 1000000000 }

/-- One tick of an output: a PPS pulse ends, a boundary is passed, the offset walks while node time does not slew (R216 to R218). -/
def tickOut (s : State) (k before now inc : Nat) (slewed : Bool) : State :=
  let s1 := payOwed (endPps s k before now) k before now
  let o := outRec s1 k
  let i := o.index k now
  let s2 := if i ≤ o.last then s1
    else
      let x := o.instant k i
      outBoundary (setOutRec s1 k { o with last := i }) k i x (placeEdge s x before now) before now
  if slewed then s2 else walkOut s2 k inc

/-- The outputs that a tick must look at: enabled, or with a pulse, a period or a frame in progress. -/
def liveOuts (s : State) : List Nat := (List.range 8).filter fun k => outEnabled s k || (outRec s k).high || (outRec s k).busy

/-- The outputs meet node time after it has been set anew: their next boundaries are those after it, without an edge. -/
def settleOuts (s : State) : State :=
  forEach (AMap.keys s.sun.outs) s fun k t => setOutRec t k { outRec t k with last := (outRec t k).index k (nodeTime t) }

/-- The outputs meet a step of node time (R187): the edge of the second on which it lands has been emitted on this tick, or falls ADJ after it; the
next one falls on the next whole second of the stepped counter. A word clock takes the level that its grid has at the stepped time. -/
def stepOuts (s : State) : State :=
  let now := nodeTime s
  forEach (AMap.keys s.sun.outs) s fun k t =>
    let o := outRec t k
    if k < 2 then
      let owed := if outEnabled t k ∧ 0 < adjTu o.adj then some (s.elapsed + (adjTu o.adj).toNat) else o.owed
      setOutRec t k { o with last := (now / tuPerSec : Nat), owed := owed }
    else
      let i := o.index k now
      let t1 := setOutRec t k { o with last := i }
      if 4 ≤ k ∧ o.busy ∧ o.high ≠ decide (i % 2 = 0) then driveOut t1 k (decide (i % 2 = 0)) now else t1

/-- A write of an output's CFG takes effect (R217, R218): an output that starts takes its offset at once and starts at its next
boundary, or when the period or frame that it still finishes has ended; one that stops finishes its pulse, period or frame. A RATE written while
the output runs takes it to the new grid at the end of the period or frame in progress (DESIGN CHOICE, log entry 166). -/
def outCfgWritten (b s : State) (k : Nat) : State :=
  let o := outRec s k
  if outEnabled s k && !outEnabled b k then
    (if o.busy then setOutRec s k { o with restart := true } else startOut s k o (nodeTime s))
  else if outEnabled s k && !o.busy && outRateCfg s k != o.rate then
    let n := { o with rate := outRateCfg s k }
    setOutRec s k { n with last := n.index k (nodeTime s) }
  else if !outEnabled s k then setOutRec s k { o with restart := false }
  else s

/-- The levels of the outputs are cut low (R780). -/
def cutOuts (s : State) : State :=
  let s1 := forEach (AMap.keys s.sun.outs) s fun k t =>
    let t1 := if (outRec t k).high then driveOut t k false (nodeTime t) else t
    setOutRec t1 k { outRec t1 k with busy := false, owed := none }
  let pins := (s1.sun.pulses.map fun e => e.2.2).eraseDups
  forEach pins { s1 with sun := { s1.sun with pulses := [] } } fun k t => t.emit (.edge (.trig k) false (nodeTime t))

/-- The pulses of compare units that have ended: each pin falls when no unit's pulse holds it, at the end of the last one (R226, before R225). -/
def endPulses (s : State) : State :=
  let now := nodeTime s
  let done := (s.sun.pulses.filter fun e => e.2.1 ≤ s.elapsed).map (·.2)
  let left := AMap.keep s.sun.pulses fun _ e => decide (s.elapsed < e.1)
  let pins := (done.map (·.2)).eraseDups.filter fun k => !(left.any fun e => e.2.2 == k)
  forEach pins { s with sun := { s.sun with pulses := left } } fun k t =>
    let e := (done.filter fun x => x.2 == k).foldl (fun a x => max a x.1) 0
    t.emit (.edge (.trig k) false (placeAt s e s.sun.before now))

/-- Since when the other domain has been strictly better (R192). -/
def judgeBetter (s : State) : State :=
  let a := activeDom s
  let other := 1 - a
  let now := decide (qcHeld s other < qcHeld s a)
  if now then (if s.sun.better.isSome then s else { s with sun := { s.sun with better := some s.elapsed } })
  else if s.sun.better.isSome then { s with sun := { s.sun with better := none } } else s

/-- The counters move by one tick (R162, R165, R167, R191): each running domain by its increment and slew, domain 1 in FOLLOW by exactly what domain
0 adds, and the handover residual by its own slew on a tick on which the active domain does not slew. A residual that domain 1 has to slew in
FOLLOW is less by what domain 0 slews (DESIGN CHOICE, log entry 167). -/
def tickCounters (s : State) : State :=
  let smax := slewMax s
  let act := activeDom s
  let actSlews := domSlews s act
  let inc0 := baseInc s 0
  let inc1 := baseInc s 1
  let d0 := if domRuns s 0 then s.sun.d0.advance smax inc0 else { s.sun.d0 with carried := false }
  let d1 := if !domRuns s 1 then { s.sun.d1 with carried := false }
    else if dpllMode s 1 = 4 then s.sun.d1.move inc0 (s.sun.d0.slewTerm smax inc0).1 s.sun.d1.acc
    else s.sun.d1.advance smax inc1
  let h := s.sun.hand
  let h1 := if h.slewing && !actSlews then
      let p := slewPart h smax (if act = 0 then inc0 else inc1)
      { h with resid := h.resid - p.1, acc := p.2 }
    else h
  let s1 := { s with
    elapsed := s.elapsed + (if inBypass s then s.sun.bypInc else nominalInc),
    sun := { s.sun with d0 := d0, d1 := d1, hand := h1 } }
  { s1 with
    sun := { s1.sun with
      before := nodeTime s,
      hand := { h1 with carried := decide (nodeTime s1 / tuPerSec ≠ nodeTime s / tuPerSec) } } }

/-- A Sundial tick but for the replicas (R162, R177, R192, R216 to R218). -/
def tickSundial (s : State) : State :=
  if s.sun.stopped then s
  else
    let slewed := slewingNow s 2
    let before := nodeTime s
    let s1 := tickCounters s
    let now := nodeTime s1
    let inc := baseInc s (activeDom s)
    let s2 := forEach (liveOuts s1) s1 fun k t => tickOut t k before now inc slewed
    judgeBetter (refreshQc (endPulses s2))

end Sys2Proof.Machine
end

