-- ==== Sys2Proof/Machine/Sun.lean ====
section
/-!
DEFINITION. Sun.lean: the events of the Sundial's counters (R184 to R195, R223, R230), one meaning per row of the table. A tick
itself stands with the Pavilion replicas, in Contain.lean; compare units and time words stand in SunCmp.lean and SunTrk.lean.
-/
namespace Sys2Proof.Machine

/-- A domain, or the handover as 2, is at its whole second with a step pending (R185, R191). -/
def stepDue (s : State) (d : Nat) : Bool := decide ((ctrOf s d).rem = .step) && (ctrOf s d).carried

/-- The whole residual is added to the counter (R185). Node time steps with its active domain and with its handover (R191, R194). -/
def stepCounter (s : State) (d : Nat) : State :=
  let c := ctrOf s d
  let t := if d = 2 then c.t else ((c.t : Int) + c.resid) % (timeWrap : Int) |>.toNat
  let s0 := setCtr s d
    { c with t := t, resid := 0, rem := .none, acc := 0, stepAt := some s.elapsed, carried := false, adj := c.adj + c.resid }
  let s1 : State := if d = activeDom s then { s0 with sun := { s0.sun with hand := { s0.sun.hand with stepAt := some s.elapsed } } } else s0
  sunEvent s1 0

/-- SLEW_DONE (R184): valid once a residual that slews has reached zero. -/
def execSlewDone (d : Fin 3) (s : State) : Result :=
  let c := ctrOf s d
  if c.rem = .slew ∧ c.resid = 0 then .next (sunEvent (setCtr s d { c with rem := .none, acc := 0 }) 1) else .next s

/-- ACTIVE has changed from node time `node` on (R190, R191): the handover residual makes node time continuous. -/
def switchDomain (s : State) (node : Nat) : State :=
  let d := activeDom s
  let r := timeDiff (ctrOf s d).t node
  let c : TimeCtr := { s.sun.hand with rem := .none }
  let h := { c with resid := r, rem := removalFor s (qcHeld s d) c r, acc := 0, carried := false }
  sunEvent { s with sun := { s.sun with hand := h, better := none } } 4

/-- AUTO_DOMAIN_SWITCH (R192): valid once the other domain's QC has been strictly lower for SW_HOLD seconds with AUTO 1. -/
def execAutoDomainSwitch (s : State) : Result :=
  match s.sun.better with
  | some e =>
    if s.flag (sunB + 0x05C) 4 ∧ s.fld (sunB + 0x05C) 15 8 * tuPerSec ≤ s.elapsed - e then
      .next (switchDomain (s.setFld (sunB + 0x05C) 0 0 (1 - activeDom s)) (nodeTime s))
    else .next s
  | none => .next s

/-- LEAP_SECOND (R223): valid once node time has reached the leap second's instant. -/
def execLeapSecond (s : State) : Result :=
  match s.sun.leapAt with
  | some l =>
    if l ≤ nodeTime s / tuPerSec then
      let off := utcOffset s + (if s.flag (sunB + 0x060) 1 then -1 else 1)
      let v := putBits (putBits (s.rd (sunB + 0x060)) 31 16 (codeOf 16 off)) 0 0 0
      .next (sunEvent ({ s.wr (sunB + 0x060) v with sun := { s.sun with leapAt := none } }) 5)
    else .next s
  | none => .next s

/-- TIME_SET_DONE (R230): valid once the residual of a pending set has been removed. -/
def execTimeSetDone (s : State) : Result :=
  match s.sun.setDom with
  | some d =>
    if (ctrOf s d).rem = .none then
      .next (sunEvent (markSet ({ s with sun := { s.sun with setDom := none } }.setFlag (sunB + 0x068) 31 false) d) 6)
    else .next s
  | none => .next s

/-- A set of domain `d` to time `t` is taken (R229, R230). With MODE 1 what is left of an earlier offset is slewed with it, a pending step
included (DESIGN CHOICE, log entry 164). -/
def takeSet (s : State) (d t : Nat) (slew : Bool) : State :=
  let c := ctrOf s d
  let r := c.resid + timeDiff t c.t
  let s1 := setCtr s d { c with resid := r, rem := if slew then .slew else .step, acc := 0 }
  { s1.setFlag (sunB + 0x068) 31 true with sun := { s1.sun with setDom := some d } }

/-- The three counters are captured on one tick (R173, the SUN_CAP_CMD row of R231). -/
def captureAll (s : State) : State :=
  forEach [2, 0, 1] s fun d t =>
    let n := if d = 2 then 0 else d + 1
    let ws := fullTime (timeOf s d) (stampTag s d true 0)
    let a := sunB + 0x080 + 0x10 * n
    ((((t.wr a (ws.getD 0 0)).wr (a + 4) (ws.getD 1 0)).wr (a + 8) (ws.getD 2 0)).wr (a + 12) (ws.getD 3 0))

end Sys2Proof.Machine
end

