-- ==== Sys2Proof/Machine/HifOps.lean ====
section
/-!
DEFINITION. HifOps.lean: rings, completion queues and event rings (12_host_rings.md R609 to R625, R652 to R658), as every
engine that reports to the host uses them.
-/
namespace Sys2Proof.Machine

/-- HIF_RINGn_CFG. -/
def ringCfg (n : Nat) : Nat := hifB + 0x2000 + 0x20 * n
/-- HIF_CQc_CFG. -/
def cqCfg (c : Nat) : Nat := hifB + 0x6000 + 0x20 * c

/-- TYPE of a ring. -/
def ringType (s : State) (n : Nat) : Nat := s.fld (ringCfg n) 3 1
/-- Is the ring enabled? -/
def ringEn (s : State) (n : Nat) : Bool := s.flag (ringCfg n) 0
/-- Its size in entries (R610). -/
def ringSize (s : State) (n : Nat) : Nat := 2 ^ s.fld (ringCfg n) 8 4
/-- Its base address. -/
def ringBase (s : State) (n : Nat) : Nat := s.rd64 (ringCfg n + 4)
/-- Its producer index P. -/
def ringP (s : State) (n : Nat) : Nat := s.fld (ringCfg n + 0x0C) 31 16
/-- Its consumer index C. -/
def ringC (s : State) (n : Nat) : Nat := s.fld (ringCfg n + 0x0C) 15 0
/-- Its completion queue. -/
def ringCq (s : State) (n : Nat) : Nat := s.fld (ringCfg n) 31 24
/-- Is it ACTIVE (R612)? -/
def ringActive (s : State) (n : Nat) : Bool := s.flag (hifB + 0x080 + 4 * (n / 32)) (n % 32)
/-- Its ACTIVE bit. -/
def setActiveRing (s : State) (n : Nat) (b : Bool) : State := s.setFlag (hifB + 0x080 + 4 * (n / 32)) (n % 32) b

/-- The record of a ring. -/
def ringRec (s : State) (n : Nat) : RingSt := AMap.getD s.hif.rings n {}
/-- Replace it. -/
def setRingRec (s : State) (n : Nat) (r : RingSt) : State := { s with hif := { s.hif with rings := AMap.put s.hif.rings n r {} } }
/-- The record of a completion queue. -/
def cqRec (s : State) (c : Nat) : CqSt := AMap.getD s.hif.cqs c {}
/-- Replace it. -/
def setCqRec (s : State) (c : Nat) (r : CqSt) : State := { s with hif := { s.hif with cqs := AMap.put s.hif.cqs c r {} } }

/-- Entries that lie between the consumer and the producer of an index register. -/
def usedOf (p c size : Nat) : Nat := (p + size - c) % size

/-- Descriptors or entries in a ring (R611). -/
def ringUsed (s : State) (n : Nat) : Nat := usedOf (ringP s n) (ringC s n) (ringSize s n)

/-- Is the queue enabled? -/
def cqEn (s : State) (c : Nat) : Bool := s.flag (cqCfg c) 0
/-- The size of a completion queue (R620). -/
def cqSize (s : State) (c : Nat) : Nat := 2 ^ (s.fld (cqCfg c) 4 1 + 6)
/-- Its producer and consumer indices. -/
def cqP (s : State) (c : Nat) : Nat := s.fld (cqCfg c + 0x0C) 31 16
def cqC (s : State) (c : Nat) : Nat := s.fld (cqCfg c + 0x0C) 15 0
/-- Unconsumed entries. -/
def cqUsed (s : State) (c : Nat) : Nat := usedOf (cqP s c) (cqC s c) (cqSize s c)
/-- Is the queue full (R622)? -/
def cqFull (s : State) (c : Nat) : Bool := decide (cqSize s c - 1 ≤ cqUsed s c)
/-- Is it ARMED? -/
def cqArmed (s : State) (c : Nat) : Bool := s.flag (hifB + 0x0A0 + 4 * (c / 32)) (c % 32)
/-- Its ARMED bit. -/
def setArmed (s : State) (c : Nat) (b : Bool) : State := s.setFlag (hifB + 0x0A0 + 4 * (c / 32)) (c % 32) b

/-- `k` entries of queue `c` have been written and are unannounced (R656, R658). -/
def announceLater (s : State) (c k : Nat) : State :=
  let q := cqRec s c
  setCqRec s c { q with unann := q.unann + k, newest := s.elapsed, oldest := if q.unann = 0 then s.elapsed else q.oldest }

/-- Write one completion entry (R608, R623 to R625). -/
def writeCompletion (s : State) (n : Nat) (x : Completion) : State :=
  let c := ringCq s n
  let q := cqRec s c
  let p := cqP s c
  let carrier := (if q.phase then 0x80 else 0) + (if x.stamp.isSome then 0x40 else 0) + x.trunc % 32
  let stamp := match x.stamp with
    | some v => v / 2 ^ 56 * 2 ^ 56 + carrier * 2 ^ 48 + v % 2 ^ 48
    | none => compactStamp s 2 (nodeTime s) true carrier
  let dws := [fieldW 31 24 n ||| fieldW 23 16 x.status ||| fieldW 15 0 x.desc, x.info, w32 stamp, w32 (stamp / 2 ^ 32)]
  let s1 := s.emit (.dma (s.rd64 (cqCfg c + 4) + 16 * p) dws)
  let p' := (p + 1) % cqSize s c
  let s2 := setCqRec s1 c { q with phase := if p' = 0 then !q.phase else q.phase }
  let s3 := announceLater (s2.setFld (cqCfg c + 0x0C) 31 16 p') c 1
  let s4 := s3.count (ringCfg n + (if x.status = 0 then 0x10 else 0x14))
  if cqFull s4 c then hifEvent s4 2 else s4

/-- A descriptor of ring `n` completes: its entry is written, or waits while the queue is full (R614, R622) or the host port down (R639). A completion whose
queue is no longer enabled is dropped. -/
def complete (s : State) (n : Nat) (x : Completion) : State :=
  let r := ringRec s n
  let s1 := setRingRec s n { r with busy := false }
  if !cqEn s (ringCq s n) then s1
  else if r.wait ≠ [] ∨ cqFull s (ringCq s n) ∨ hostPortDown s then setRingRec s n { r with busy := false, wait := r.wait ++ [x] }
  else writeCompletion s1 n x

/-- Ring `n` can have its next descriptor taken: a host-written ring of that type, enabled, not empty, with no descriptor in progress
and none waiting, while the host port is up (R612, R614, R622, R639). -/
def canTake (s : State) (n ty : Nat) : Bool :=
  ringEn s n && decide (ringType s n = ty) && decide (ringP s n ≠ ringC s n) && !(ringRec s n).busy && (ringRec s n).wait == [] &&
    !hostPortDown s && s.alive

/-- Take the next descriptor: C advances, and its index is answered (R611, R614). -/
def takeDesc (s : State) (n : Nat) : State × Nat :=
  let i := ringC s n
  (setRingRec (s.setFld (ringCfg n + 0x0C) 15 0 ((i + 1) % ringSize s n)) n { ringRec s n with busy := true }, i)

/-- Write an event of ETYPE `ty` with source field `src` whose entries hold the dwords 1 to 7 listed (R652, R653). Answers
whether it found room; an event that did not is counted in HIF_RINGn_DROP of an enabled event ring. -/
def eventWrite (s : State) (n ty src : Nat) (parts : List (List Word)) : State × Bool :=
  let en := ringEn s n && decide (ringType s n = 6)
  if !en then (s, false)
  else if hostPortDown s ∨ ringSize s n - 1 < ringUsed s n + parts.length then (s.count (ringCfg n + 0x1C), false)
  else
    let m := parts.length
    let s1 := (parts.zip (List.range m)).foldl (fun t (e : List Word × Nat) =>
      let r := ringRec t n
      let p := ringP t n
      let d0 := bitW 31 r.phase ||| fieldW 30 26 ty ||| fieldW 25 21 e.2 ||| fieldW 20 16 (m - 1) ||| fieldW 15 0 src
      let body := (e.1 ++ List.replicate 7 0).take 7
      let p' := (p + 1) % ringSize t n
      let t1 := t.emit (.dma (ringBase t n + 32 * p) (d0 :: body))
      setRingRec (t1.setFld (ringCfg n + 0x0C) 31 16 p') n { r with phase := if p' = 0 then !r.phase else r.phase }) s
    (announceLater (s1.count (ringCfg n + 0x10) m) (ringCq s n) m, true)

/-- The two dwords of a 64-bit value, low first. -/
def dwPair (v : Nat) : List Word := [w32 v, w32 (v / 2 ^ 32)]

end Sys2Proof.Machine
end

