-- ==== Sys2Proof/Machine/NvmOps.lean ====
section
/-!
DEFINITION. NvmOps.lean: the bytes of the NVM, its window and its writes (14_power_and_feeds.md R742 to R747, R750), and the calibration
records (05_interval_measurement_and_calibration.md R271 to R273).
-/
namespace Sys2Proof.Machine

/-- A byte of the NVM: 0 where nothing has been written (DESIGN CHOICE, log entry 22). -/
def nvmByte (s : State) (a : Nat) : Byte := AMap.getD s.nvm.bytes a 0
/-- `n` bytes from `a`. -/
def nvmBytes (s : State) (a n : Nat) : List Byte := (List.range n).map fun i => nvmByte s (a + i)
/-- The dword at `a`. -/
def nvmWord (s : State) (a : Nat) : Word := w32 (natOfBytes (nvmBytes s a 4))

/-- Bytes are stored. -/
def nvmStore (s : State) (a : Nat) : List Byte → State
  | [] => s
  | b :: t => nvmStore { s with nvm := { s.nvm with bytes := AMap.put s.nvm.bytes a b 0 } } (a + 1) t

/-- The NVM byte that window offset `o` of the block reaches (R743). -/
def nvmAddr (s : State) (o : Nat) : Nat := s.fld (nvmB + 0x048) 6 0 * 32768 + (o - 0x8000)
/-- NVM_WIN as read. -/
def nvmWinView (s : State) (o : Nat) : Word := nvmWord s (nvmAddr s o)

/-- A write of the NVM starts or waits behind those in progress; NVM_BUSY reads 1. -/
def startNvm (s : State) (j : NvmJob) : State :=
  { s with nvm := { s.nvm with jobs := s.nvm.jobs ++ [j] } }.setFlag (nvmB + 0x044) 0 true

/-- The code of a window write after the checks of R89: E_LOCKED in a read-only area, E_BUSY while a write is in progress (R742, R743). -/
def nvmWinOwn (s : State) (o : Nat) : Nat :=
  if nvmAddr s o < 0x80000 then 0x02 else if s.flag (nvmB + 0x044) 0 then 0x0B else 0

/-- A window write is taken. -/
def nvmWinApply (s : State) (o : Nat) (m : Master) (v : Word) : State := startNvm s ⟨nvmAddr s o, bytesOfWord v, some (o, m)⟩

/-- The oldest write completes (R743, R275): one that fails verification latches E_ABORTED for its master, or raises CAL_NVM; what its bytes
then hold the spec does not state (log entry 2). -/
def finishNvm (s : State) (fail : Bool) : State :=
  match s.nvm.jobs with
  | [] => s
  | j :: l =>
    let data := if fail then (List.range j.data.length).map fun i => Config.freeByte (s.fresh + i) else j.data
    let s1 := nvmStore { s with nvm := { s.nvm with jobs := l }, fresh := if fail then s.fresh + j.data.length else s.fresh } j.addr data
    let s2 := s1.setFlag (nvmB + 0x044) 0 (decide (l ≠ []))
    if !fail then s2
    else
      match j.win with
      | some (o, m) => latchErr s2 ⟨.nvm, 0, 0⟩ 0x0A o m
      | none => tdcEvent s2 3

/-- Where the two slots of a calibration record stand (PRESUMED, log entry 23): `kind` as in R272. -/
def recordAt (kind item rate : Nat) : Nat :=
  64 * (match kind with
    | 1 => item
    | 2 => 16 + item
    | 3 => 32 + item * 8 + rate
    | _ => 1056 + item)

/-- Is the slot at `a` usable for a record (R274)? -/
def slotGood (s : State) (a kind item rate : Nat) : Bool :=
  decide (nvmWord s (a + 28) = w32 (crc32 (nvmBytes s a 28))) &&
    nvmWord s a == fieldW 31 24 kind ||| fieldW 23 16 item ||| fieldW 15 8 1 ||| fieldW 7 0 rate

/-- The seconds of a record slot. -/
def slotSecs (s : State) (a : Nat) : Nat := (nvmWord s (a + 8)).toNat + bits (nvmWord s (a + 12)) 15 0 * 2 ^ 32

/-- The slot that holds a record's value (R274). -/
def goodSlot (s : State) (kind item rate : Nat) : Option Nat :=
  let a := recordAt kind item rate
  match slotGood s a kind item rate, slotGood s (a + 32) kind item rate with
  | true, true => some (if slotSecs s a < slotSecs s (a + 32) then a + 32 else a)
  | true, false => some a
  | false, true => some (a + 32)
  | false, false => none

/-- VAL0 and VAL1 of a record, if a slot is usable. -/
def recordValue (s : State) (kind item rate : Nat) : Option (Word × Word) :=
  (goodSlot s kind item rate).map fun a => (nvmWord s (a + 16), nvmWord s (a + 20))

/-- An accepted value goes to its record, to the two slots alternately: to the one not written last, or at first to the one that does not hold the
present value (R271, R272); `secs` are the TAI seconds. -/
def storeRecord (s : State) (kind item rate secs : Nat) (temp : Int) (v0 v1 : Word) : State :=
  let a := recordAt kind item rate
  let last := match AMap.get s.nvm.lastSlot a with
    | some k => k
    | none => if goodSlot s kind item rate = some a then 0 else 1
  let at_ := if last = 0 then a + 32 else a
  let ws := [fieldW 31 24 kind ||| fieldW 23 16 item ||| fieldW 15 8 1 ||| fieldW 7 0 rate, w32 (codeOf 16 temp), w32 secs,
    w32 (secs / 2 ^ 32 % 2 ^ 16), v0, v1, 0]
  let b := ws.flatMap bytesOfWord
  if s.flag (tdcB + 0x050) 3 then
    startNvm { s with nvm := { s.nvm with lastSlot := AMap.set s.nvm.lastSlot a (1 - last) } } ⟨at_, b ++ bytesOfNat 4 (crc32 b), none⟩
  else s

end Sys2Proof.Machine
end

