-- ==== Sys2Proof/Machine/TdcOps.lean ====
section
/-!
DEFINITION. TdcOps.lean: the channels and difference units of 05_interval_measurement_and_calibration.md (R233 to R252): arming,
one measurement, its result, and the interpolator's calibration pairs.
-/
namespace Sys2Proof.Machine

/-- TDC_CHn_CFG. -/
def tdcCfg (n : Nat) : Nat := tdcB + 0x400 + 0x40 * n
/-- TDC_DIFFu_CFG. -/
def diffCfg (u : Nat) : Nat := tdcB + 0x800 + 0x20 * u

/-- The record of a channel. -/
def tdcCh (s : State) (n : Nat) : TdcCh := AMap.getD s.tdc.chs n {}
/-- Replace it. -/
def setTdcCh (s : State) (n : Nat) (c : TdcCh) : State := { s with tdc := { s.tdc with chs := AMap.put s.tdc.chs n c {} } }
/-- The record of a difference unit. -/
def tdcDiff (s : State) (u : Nat) : TdcDiff := AMap.getD s.tdc.diffs u {}
/-- Replace it. -/
def setTdcDiff (s : State) (u : Nat) (x : TdcDiff) : State := { s with tdc := { s.tdc with diffs := AMap.put s.tdc.diffs u x {} } }

/-- TDC_CHn_CFG.ARM. -/
def tdcArm (s : State) (n : Nat) : Nat := s.fld (tdcCfg n) 3 2
/-- Is the channel armed now (TDC_STATUS.ARMED)? -/
def tdcArmed (s : State) (n : Nat) : Bool := s.flag (tdcB + 0x040) n

/-- Is the Lodge counter being aligned with OSCIN, at an entry to P3 or at its exit (R234, R718, R719)? -/
def lodgeAligns (s : State) : Bool := s.pwr.change == .lastSecond || s.pwr.change == .restart

/-- CAL_OWNED of a channel: channels 8 to 11 while TRK_EN is 1 (R268), channel 14 until the bus latency is measured, channel 15 while the Lodge counter
is aligned (R234), and the channels held by a run. -/
def calOwned (s : State) (n : Nat) : Bool :=
  (decide (8 ≤ n) && decide (n ≤ 11) && s.flag (tdcB + 0x050) 1) || (n == 14 && !s.tdc.latDone) || (n == 15 && lodgeAligns s) ||
    s.tdc.hold.contains n || s.gns.jobs.any fun e => e.2.marker == some n

/-- Arm a channel now (R242). -/
def armNow (s : State) (n : Nat) : State :=
  setTdcCh (s.setFlag (tdcB + 0x040) n true) n
    { tdcCh s n with edges := 0, gateWait := none, quietAt := s.elapsed, armedAt := s.elapsed, offAt := none }

/-- Disarm a channel as of elapsed time `e`: an edge before then is still measured (R242). -/
def disarmAt (s : State) (n e : Nat) : State :=
  let x := tdcCh s n
  setTdcCh (s.setFlag (tdcB + 0x040) n false) n { x with gateWait := none, offAt := if tdcArmed s n then some e else x.offAt }

/-- Disarm a channel now. -/
def disarmCh (s : State) (n : Nat) : State := disarmAt s n s.elapsed

/-- A gate-mode channel samples its gate high: it arms from the second tick after (R242). -/
def gateHigh (s : State) (n : Nat) : State :=
  if tdcArmed s n then s else setTdcCh s n { tdcCh s n with gateWait := some 2 }

/-- The ticks that gate-mode channels wait for pass (R242). -/
def tickGates (s : State) : State :=
  forEach ((AMap.keys s.tdc.chs).filter fun n => (tdcCh s n).gateWait.isSome) s fun n t =>
    match (tdcCh t n).gateWait with
    | some (k + 2) => setTdcCh t n { tdcCh t n with gateWait := some (k + 1) }
    | some _ => armNow t n
    | none => t

/-- Compare unit `c` fires: the channels in compare mode on it arm (R242). -/
def armOnCompare (s : State) (c : Nat) : State :=
  forEach (List.range 16) s fun n t =>
    if tdcArm t n = 3 ∧ t.fld (tdcCfg n) 7 4 = c ∧ !(tdcCh t n).retired then armNow t n else t

/-- The increment of time `d` in use with its slew term (R239): node time moves with its active domain and its handover. -/
def incOf (s : State) (d : Nat) : Nat :=
  if d < 2 then sunIncView s d
  else
    let a := activeDom s
    let inc := sunIncView s a
    let h := s.sun.hand
    if h.slewing && !(ctrOf s a).slewing then
      let part := slewMax s * inc / 1000000000
      if 0 ≤ h.resid then inc + part else inc - part
    else inc

/-- A channel counts a lost edge or result: TDC_CHn_MISS and MISS (R243, R247, R254). -/
def tdcMiss (s : State) (n : Nat) : State := tdcEvent (s.count (tdcCfg n + 0x2C)) 1

/-- One more cell is retired (R770): the record, the count and CELL_RETIRED. -/
def recordRetire (s : State) (kind pav index code : Nat) (spare : Bool) : State :=
  let v := fieldW 31 28 kind ||| fieldW 27 24 pav ||| fieldW 23 16 index ||| fieldW 15 8 code ||| bitW 0 spare
  latchSource ((s.wr (monB + 0x054) v).count (monB + 0x200)) 490

/-- A calibration run of KIND `kind` (as in R272) and ITEM `item` is discarded, with the disagreement `diff` (R264). -/
def calDisagree (s : State) (kind item diff : Nat) : State :=
  let v := fieldW 31 24 kind ||| fieldW 23 16 item ||| fieldW 15 0 (min diff 0xFFFF)
  tdcEvent ((s.wr (tdcB + 0x064) v).count (tdcB + 0x068)) 2

/-- An accepted interpolator value goes to its record when there is none or it differs from the stored one by more than INT_TOL codes, at most once
per 10 s per channel (R271). -/
def storeInterp (s : State) (n w1 w2 : Nat) : State :=
  let x := tdcCh s n
  let tol := s.fld (tdcB + 0x058) 7 0 * 256
  let differs := match recordValue s 1 n 0 with
    | some (a, b) => decide (tol < ((w1 : Int) - bits a 19 0).natAbs) || decide (tol < ((w2 : Int) - bits b 19 0).natAbs)
    | none => true
  let due := match x.storedAt with
    | some e => decide (e + 10 * tuPerSec ≤ s.elapsed)
    | none => true
  if s.flag (tdcB + 0x050) 3 && differs && due then
    storeRecord (setTdcCh s n { x with storedAt := some s.elapsed }) 1 n 0 (nodeTime s / tuPerSec) x.temp (w32 w1) (w32 w2)
  else s

/-- A raw calibration pair of a channel (R237, R238, R253, R770). Answers whether it may be used. A complete block of 256 is a run, with
the block before it as its repeat; an accepted run is the target of W1 and W2, reached in 256 steps. A pair lets the values that move over pairs take
a step (R266). -/
def takePair (s : State) (n c1 c2 : Nat) : State × Bool :=
  let s1 := s.wr (tdcCfg n + 0x14) (fieldW 27 16 c2 ||| fieldW 11 0 c1)
  let x := tdcCh s1 n
  let sensor := sbits (s.rd (monB + 0x100 + 4 * 8)) 15 0
  if c2 < c1 + 1946 ∨ c1 + 2150 < c2 then
    let x1 := { x with bad := x.bad + 1 }
    if x1.bad = 256 ∧ !x.retired then
      let s2 := (setTdcCh s1 n { x1 with retired := true }).setFlag (tdcB + 0x040) n false
      (recordRetire (latchErr s2 ⟨.tdc, 0, 0⟩ 0x07 (0x400 + 0x40 * n) .host) 4 0xF n 0x07 false, false)
    else (setTdcCh s1 n x1, false)
  else
    let k := x.pairs + 1
    let a := x.sum1 + c1
    let b := x.sum2 + c2
    let y := { x with
      bad := 0, wDue := if x.wSteps = 0 then 0 else x.wDue + 1, gDue := if x.gSteps = 0 then 0 else x.gDue + 1,
      temp := if x.pairs = 0 then sensor else x.temp }
    if k < 256 then (setTdcCh s1 n { y with pairs := k, sum1 := a, sum2 := b }, true)
    else
      let x1 := { y with pairs := 0, sum1 := 0, sum2 := 0, prev := some (a, b) }
      match x.prev with
      | none => (setTdcCh s1 n x1, true)
      | some (p, q) =>
        let da := ((a : Int) - p).natAbs
        let db := ((b : Int) - q).natAbs
        let tol := s.fld (tdcB + 0x058) 7 0 * 256
        if da ≤ tol ∧ db ≤ tol then
          let w1 := (a + p + 1) / 2
          let w2 := (b + q + 1) / 2
          (storeInterp (setTdcCh s1 n { x1 with w1 := w1, w2 := w2, wSteps := 256, wDue := 0 }) n w1 w2, true)
        else (calDisagree (setTdcCh s1 n x1) 1 n ((max da db + 128) / 256), true)

/-- The edge time of code `c` when the stop tick reads `tstop` of time `d`, in 2^-16 ns, rounded once, to the nearest (R239). -/
def edgeOf (s : State) (n d c tstop : Nat) : Int :=
  let w1 : Int := s.fld (tdcCfg n + 0x18) 19 0
  let w2 : Int := s.fld (tdcCfg n + 0x1C) 19 0
  let num := 256 * (c : Int) - w1
  let den := w2 - w1
  let g2 := sbits (s.rd (tdcCfg n + 0x24)) 31 0
  let ofs := sbits (s.rd (tdcCfg n + 0x20)) 31 0
  let inc : Int := incOf s d
  let one := den * den * 65536
  divRound (tstop * one - inc * (one + num * den * 65536 + g2 * num * (den - num))) (one * 2 ^ 24).toNat - ofs

/-- A compact stamp's NS and FRAC as one number of 2^-16 ns. -/
def csTime (v : Nat) : Nat := v % 2 ^ 48

/-- The signed difference of two compact stamps, in 2^-16 ns (R176). -/
def csDiff (a b : Nat) : Int := signedOf 48 (csTime a + 2 ^ 48 - csTime b)

/-- A difference unit counts an unpaired result (R250). -/
def unpaired (s : State) (u : Nat) : State := s.count (diffCfg u + 0x14)

/-- A difference is made (R251): LAST, the block's MEAN, the stream and the histogram. -/
def giveDiff (s : State) (u : Nat) (d : Int) (b : Nat) : State :=
  let raw := codeOf 64 d
  let s1 := s.wr64 (diffCfg u + 4) raw
  let x := tdcDiff s1 u
  let len := 2 ^ s.fld (diffCfg u) 3 1
  let sum := x.sum + d
  let s2 := if len ≤ x.num + 1 then
      (setTdcDiff s1 u { x with openA := none, sum := 0, num := 0 }).wr64 (diffCfg u + 0x0C) (codeOf 64 (divRound sum len))
    else setTdcDiff s1 u { x with openA := none, sum := sum, num := x.num + 1 }
  let s3 := if s.flag (diffCfg u) 15 then (eventWrite s2 (s.fld (diffCfg u) 23 16) 0x02 u [0 :: (dwPair raw ++ dwPair b)]).1 else s2
  histSample s3 none 1 u 0 d

/-- A result of channel `n` reaches the difference units (R249, R250). -/
def feedDiffs (s : State) (n v : Nat) : State :=
  forEach (List.range 8) s fun u t =>
    if !t.flag (diffCfg u) 0 then t
    else
      let isA := decide (t.fld (diffCfg u) 7 4 = n)
      let isB := decide (t.fld (diffCfg u) 11 8 = n)
      let x := tdcDiff t u
      if isA then
        let t1 := if x.openA.isSome then unpaired t u else t
        setTdcDiff t1 u { x with openA := some v }
      else if isB then
        match x.openA with
        | none => unpaired t u
        | some a =>
          let d := csDiff v a
          if d < 0 then unpaired t u
          else if d ≤ 2 ^ t.fld (diffCfg u) 28 24 * 65536 then giveDiff t u d v
          else unpaired (unpaired (setTdcDiff t u { x with openA := none }) u) u
      else t

/-- A result leaves a channel (R246, R247): MEAS, the difference units, the interval histogram, then the FIFO or the ring. One
streamed result makes one entry (DESIGN CHOICE, log entry 13). -/
def giveResult (s : State) (n v : Nat) : State :=
  let s1 := feedDiffs (s.count (tdcCfg n + 0x28)) n v
  let s2 := match AMap.get s1.mon.last n with
    | some p => histSample s1 none 2 n 0 ((csDiff v p * 1000) / 65536)
    | none => s1
  let s3 := { s2 with mon := { s2.mon with last := AMap.set s2.mon.last n v } }
  if s.flag (tdcCfg n) 23 then
    let e := eventWrite s3 (s.fld (tdcCfg n) 31 24) 0x01 1 [0 :: dwPair v]
    if e.2 then e.1 else tdcMiss e.1 n
  else
    let x := tdcCh s3 n
    if 64 ≤ x.fifo.length then tdcMiss s3 n
    else
      let s4 := setTdcCh s3 n { x with fifo := x.fifo ++ [v] }
      if x.fifo.length + 1 = 32 then tdcEvent s4 0 else s4

/-- An edge at elapsed time `e` has been taken in the present arming: the channel disarms after COUNT of them (R242). -/
def countEdge (s : State) (n e : Nat) : State :=
  let x := { tdcCh s n with edges := (tdcCh s n).edges + 1, quietAt := s.elapsed }
  let s1 := setTdcCh s n x
  let c := s.fld (tdcCfg n) 20 16
  let lim := if tdcArm s n = 3 ∧ c = 0 then 1 else c
  if lim ≠ 0 ∧ lim ≤ x.edges then disarmAt s1 n e else s1

/-- The time that the channel's DOM selects: 2 node, 0 or 1 a domain. -/
def tdcDom (s : State) (n : Nat) : Nat := domOfCode (s.fld (tdcCfg n) 22 21)

/-- Was a channel armed at elapsed time `e`: it is armed since before then, or was disarmed after it (R242)? -/
def armedThen (s : State) (n e : Nat) : Bool :=
  let x := tdcCh s n
  decide (x.armedAt ≤ e) && (tdcArmed s n || match x.offAt with
    | some o => decide (e ≤ o)
    | none => false)

/-- One edge at the channel's stop tick (R236 to R243, R254): its polarity, its code, and the calibration pair before it. The edge lay one or two
ticks before; what counts is whether the channel was armed then. -/
def measureEdge (s : State) (n : Nat) (fall : Bool) (c c1 c2 : Nat) : State :=
  let pol := s.fld (tdcCfg n) 1 0
  let x := tdcCh s n
  let d := tdcDom s n
  let tstop := timeOf s d
  let at_ := if inBypass s then s.elapsed - s.sun.bypInc
    else s.elapsed - (((tstop / 2 ^ 24 : Nat) : Int) - edgeOf s n d c tstop).toNat * 2 ^ 24
  if !armedThen s n at_ ∨ x.retired ∨ (pol = 0 ∧ fall) ∨ (pol = 1 ∧ !fall) then s
  else if s.tdc.hold.contains n then tdcMiss s n
  else
    let carrier := n * 16 + (if fall then 8 else 0) + 4
    let early := match x.lastEdge with
      | some e => decide (at_ < e + 50 * tuPerNs)
      | none => false
    if early then tdcMiss (setTdcCh s n { x with quietAt := s.elapsed }) n
    else
      let s1 := setTdcCh s n { x with lastEdge := some at_ }
      if inBypass s then
        giveResult (countEdge s1 n at_) n (stampTag s d true carrier * 2 ^ 48 + csBody (tstop - s.sun.bypInc))
      else
        let p := takePair s1 n c1 c2
        let s2 := countEdge (p.1.wr (tdcCfg n + 0x10) (fieldW 11 0 c)) n at_
        if !p.2 then s2.count (tdcCfg n + 0x30)
        else if 256 * c + 32 * 256 < s.fld (tdcCfg n + 0x18) 19 0 ∨ s.fld (tdcCfg n + 0x1C) 19 0 + 32 * 256 < 256 * c then
          s2.count (tdcCfg n + 0x30)
        else
          let e := (edgeOf s n d c tstop * 2 ^ 24 % (timeWrap : Int)).toNat
          giveResult s2 n (stampTag s d false carrier * 2 ^ 48 + csBody e)

/-- The oldest result of a channel is read and removed (R248): its halves, 0 where the FIFO is empty. -/
def popResult (s : State) (n : Nat) : State × Nat :=
  match (tdcCh s n).fifo with
  | v :: t => (setTdcCh s n { tdcCh s n with fifo := t }, v)
  | [] => (s, 0)

/-- TDC_CHn_STATUS as read. -/
def tdcStatusView (s : State) (n : Nat) : Word :=
  bitW 9 (calOwned s n) ||| bitW 8 (tdcArmed s n) ||| fieldW 6 0 (tdcCh s n).fifo.length

/-- Is a SRC legal for the channel (TDC_CHn_CFG)? -/
def tdcSrcLegal (n x : Nat) : Bool :=
  if n < 8 then x == 0 else if n < 12 then true else if n < 14 then decide (x ≤ 6) else if n = 14 then decide (x ≤ 7) else decide (x ≤ 1)

/-- Value checks of the TDC block's writes (the field tables, R252, R279): 0x01, 0x06 or none. -/
def tdcValue (s : State) (e : Eff) (i : Nat) (v : Word) : Nat :=
  match e with
  | .tdcChCfg =>
    if !tdcSrcLegal i (bits v 15 8) then 0x01 else if bits v 3 2 = 2 ∧ 3 < bits v 7 4 then 0x01 else 0
  | .tdcDiffCfg =>
    if bit v 0 ∧ (bits v 11 8 = bits v 7 4 ∨ tdcDom s (bits v 11 8) ≠ tdcDom s (bits v 7 4)) then 0x01 else 0
  | .tdcCalCmd =>
    if !s.flag (tdcB + 0x050) (bits v 9 8) then 0x01
    else if (if bits v 9 8 = 0 then 15 else 127) < bits v 7 0 then 0x06 else 0
  | _ => 0

/-- Refusals of the TDC block after the checks of R89 (R235, R244, R252, R771, R279). -/
def tdcOwn (s : State) (e : Eff) (a i : Nat) (v : Word) : Nat :=
  let old := s.rd a
  match e with
  | .tdcChCfg =>
    if calOwned s i then 0x0B
    else if bits old 3 2 ≠ 0 ∧ (bits old 15 8 ≠ bits v 15 8 ∨ bits old 1 0 ≠ bits v 1 0 ∨ bits old 22 21 ≠ bits v 22 21 ∨
        bits old 7 4 ≠ bits v 7 4) then 0x0B
    else if bits v 3 2 ≠ 0 ∧ (tdcCh s i).retired then 0x07
    else 0
  | .tdcDiffCfg =>
    if bit old 0 ∧ (bits old 11 8 ≠ bits v 11 8 ∨ bits old 7 4 ≠ bits v 7 4 ∨ bits old 28 24 ≠ bits v 28 24) then 0x0B
    else 0
  | .tdcCalCmd => if (AMap.getD s.tdc.items (256 * bits v 9 8 + bits v 7 0) {}).run then 0x0B else 0
  | _ => 0

/-- A write of TDC_CHn_CFG takes effect (R242): `b` is the state before the store, `s` the one after it. A write that leaves ARM as it is leaves the
arming as it is, but for continuous mode, where a channel that has disarmed itself is armed from the write (DESIGN CHOICE, log entry 171). -/
def chCfgWritten (b s : State) (n : Nat) : State :=
  match tdcArm s n with
  | 0 => disarmCh s n
  | 1 => if tdcArm b n = 1 ∧ tdcArmed s n then s else armNow s n
  | 2 =>
    if tdcArm b n = 2 then s
    else
      let t := disarmCh s n
      if s.tdc.gates.contains (s.fld (tdcCfg n) 7 4) then gateHigh t n else t
  | _ => if tdcArm b n = 3 then s else disarmCh s n

/-- A write of TDC_DIFFu_CFG takes effect: TDC_STATUS shows EN, a unit that starts has no open result, and a new AVG_LOG starts a new block (R251;
DESIGN CHOICE, log entry 171). -/
def diffCfgWritten (b s : State) (u : Nat) : State :=
  let en := s.flag (diffCfg u) 0
  let t := s.setFlag (tdcB + 0x040) (16 + u) en
  if en && !b.flag (diffCfg u) 0 then setTdcDiff t u {}
  else if b.fld (diffCfg u) 3 1 ≠ s.fld (diffCfg u) 3 1 then setTdcDiff t u { tdcDiff t u with sum := 0, num := 0 }
  else t

end Sys2Proof.Machine
end

