-- ==== Sys2Proof/Machine/SunCmp.lean ====
section
/-!
DEFINITION. SunCmp.lean: the compare units (R225 to R228) and the steps of the counters, which can carry node time past an armed
target (R185, R227).
-/
namespace Sys2Proof.Machine

/-- SUN_CMPc_CFG and STATUS. -/
def cmpCfg (c : Nat) : Nat := sunB + 0x200 + 0x20 * c
/-- See `cmpCfg`. -/
def cmpStatus (c : Nat) : Nat := sunB + 0x210 + 0x20 * c

/-- Is the unit armed? -/
def cmpArmed (s : State) (c : Nat) : Bool := s.flag (cmpCfg c) 0

/-- The target of an armed unit, in full. -/
def cmpTarget (s : State) (c : Nat) : Nat := AMap.getD s.sun.cmp c 0

/-- The NS and FRAC registers of a unit against node time: their signed difference in 2^-16 ns (R176). -/
def cmpAhead (s : State) (c : Nat) : Int :=
  let now := nodeTime s
  let d := signedOf 32 ((s.rd (cmpCfg c + 4)).toNat + 2 ^ 32 - now / tuPerNs % 2 ^ 32)
  d * 65536 + (s.fld (cmpCfg c + 8) 15 0 : Int) - (now % tuPerNs / 2 ^ 24 : Nat)

/-- The full time that lies `d` units of 2^-16 ns after node time, on the 2^-16 ns grid. -/
def aheadTime (s : State) (d : Int) : Nat := (((nodeTime s / 2 ^ 24 : Nat) : Int) + d).toNat * 2 ^ 24

/-- The unit's target registers take a time: periodic units show the target they wait for (R226). -/
def setTarget (s : State) (c t : Nat) : State :=
  let s1 := (s.wr (cmpCfg c + 4) (w32 (t / tuPerNs))).wr (cmpCfg c + 8) (w32 (t % tuPerNs / 2 ^ 24))
  { s1 with sun := { s1.sun with cmp := AMap.set s1.sun.cmp c t } }

/-- Arming takes effect (R225): the target is fixed, the firing count restarts, LATE clears. -/
def armUnit (s : State) (c : Nat) : State :=
  let s1 := { s with sun := { s.sun with cmp := AMap.set s.sun.cmp c (aheadTime s (cmpAhead s c)) } }
  s1.wr (cmpStatus c) (bitW 16 true)

/-- The unit is disarmed (R228): a pulse in progress completes. -/
def disarmUnit (s : State) (c : Nat) : State :=
  { (s.setFlag (cmpCfg c) 0 false).setFlag (cmpStatus c) 16 false with sun := { s.sun with cmp := AMap.del s.sun.cmp c } }

/-- A unit fires with its pulse rising at `rise` (R226, R227): count, pin, source, armed TDC channels. -/
def fireUnit (s : State) (c rise : Nat) (late : Bool) : State :=
  let st := s.rd (cmpStatus c)
  let s1 := s.wr (cmpStatus c) (putBits st 15 0 (min (bits st 15 0 + 1) 0xFFFF) ||| bitW 18 late)
  let cfg := s.rd (cmpCfg c)
  let s2 := if bit cfg 3 && !s.flag (monB + 0x048) 31 && !fieldOff s (8 + bits cfg 5 4) then
      { s1.emit (.edge (.trig (bits cfg 5 4)) true rise) with
        sun := { s1.sun with
          pulses := AMap.set s1.sun.pulses c (s1.elapsed + bits cfg 31 16 * 100 * tuPerNs - (nodeTime s - rise), bits cfg 5 4) } }
    else s1
  let s3 := armOnCompare s2 c
  let s4 := if bit cfg 1 then s3 else disarmUnit s3 c
  if bit cfg 2 then latchSource s4 (96 + c) else s4

/-- PERIOD of a unit in 2^-40 ns. -/
def cmpPeriod (s : State) (c : Nat) : Nat := (s.rd (cmpCfg c + 0x0C)).toNat * tuPerNs

/-- COMPARE_FIRE (R226): valid once node time has reached an armed unit's target. -/
def execCompareFire (c : Fin 16) (s : State) : Result :=
  let t := cmpTarget s c
  if cmpArmed s c ∧ t ≤ nodeTime s then
    let s1 := fireUnit s c (placeEdge s t s.sun.before (nodeTime s)) false
    .next (if s.flag (cmpCfg c) 1 then setTarget s1 c (t + cmpPeriod s c) else s1)
  else .next s

/-- A forward step has carried node time from `before` past armed targets (R227): each such unit fires once, late, on this tick. -/
def lateFires (s : State) (before : Nat) : State :=
  let now := nodeTime s
  forEach ((List.range 16).filter fun c => cmpArmed s c && decide (before < cmpTarget s c) && decide (cmpTarget s c ≤ now)) s fun c x =>
    let t := cmpTarget x c
    let p := cmpPeriod x c
    let x1 := fireUnit x c now true
    if x.flag (cmpCfg c) 1 ∧ p ≠ 0 then setTarget x1 c (t + ((now - t) / p + 1) * p) else x1

/-- The day at whose end an announced leap second applies is reckoned anew once node time has stepped back from `before` (R223). -/
def rebaseLeap (s : State) (before : Nat) : State :=
  if nodeTime s < before ∧ s.sun.leapAt.isSome then { s with sun := { s.sun with leapAt := leapTarget s } } else s

/-- DOMAIN_STEP (R185, R187, R191, R194, R227): valid on the tick at which the domain, or node time as 2, reaches a whole second with a
step pending. The outputs meet a step of node time. -/
def execDomainStep (d : Fin 3) (s : State) : Result :=
  if stepDue s d then
    let t := stepCounter s d
    .next (if d.val = 2 ∨ d.val = activeDom s then lateFires (stepOuts (rebaseLeap t (nodeTime s))) (nodeTime s) else t)
  else .next s

/-- Value checks of the Sundial's writes (R169, R175, R200, R201, R225, R231): 0x01, 0x06 or none. `old` is the register before. -/
def sunValue (s : State) (e : Eff) (a i : Nat) (v : Word) : Nat :=
  match e with
  | .sunBypInc => if a = sunB + 0x0E4 ∧ bits v 15 8 = 0 then 0x06 else 0
  | .sunSetCmd => if (ftTime (s.rd (sunB + 0x0D0)) (s.rd (sunB + 0x0D4)) (s.rd (sunB + 0x0D8))).isNone then 0x06 else 0
  | .sunCmpCfg =>
    if bit v 3 ∧ bits v 31 16 = 0 then 0x06
    else if bit v 0 ∧ bit v 1 ∧
        ((s.rd (cmpCfg i + 0x0C)).toNat < 1000 ∨ 2147483647 < (s.rd (cmpCfg i + 0x0C)).toNat) then 0x06
    else 0
  | .sunPtCfg =>
    if bits v 5 4 ≠ 1 then 0
    else if bits v 3 2 = 0 then 0x01
    else
      let tr := bits v 9 8
      let ls := sbits v 23 20
      let la := sbits v 19 16
      match bits v 11 10 with
      | 0 => if ls < -1 ∨ 1 < ls ∨ la < 0 ∨ 4 < la then 0x06 else 0
      | 1 => if tr = 0 then 0x01 else if ls < -7 ∨ -1 < ls ∨ la < -3 ∨ 1 < la then 0x06 else 0
      | _ => if tr ≠ 1 then 0x01 else if ls < -4 ∨ 1 < ls ∨ la < 0 ∨ 4 < la then 0x06 else 0
  | _ => 0

/-- Is SUN_PTp_ASYM the calibration's (R259)? -/
def asymOwned (s : State) (p : Nat) : Bool := s.flag (tdcB + 0x050) 2 && s.flag (tdcB + 0x3000 + 0x10 * p) 0 && portIs s p 1

/-- Refusals of the Sundial's writes after the checks of R89 (R193, R225, R228, R229, R259). -/
def sunOwn (s : State) (e : Eff) (a i : Nat) (v : Word) : Nat :=
  match e with
  | .sunDomCtrl => if s.flag a 0 ≠ bit v 0 ∧ qcHeld s (if bit v 0 then 1 else 0) = 7 then 0x0D else 0
  | .sunSetCmd => if followsTime s (bits v 1 0 - 1) ∨ s.sun.setDom.isSome then 0x0B else 0
  | .sunCmpCfg => if bit v 0 ∧ !s.flag a 0 ∧ cmpAhead s i ≤ 0 then 0x0F else 0
  | .sunCmpTgt => if cmpArmed s i then 0x0B else 0
  | .sunPtAsym => if asymOwned s i then 0x0B else 0
  | _ => 0

/-- A change of SUN_PTp_CFG restarts the port's instance (R202): LISTENING while MODE is PTP on a configured Ethernet port, else DISABLED. -/
def restartPtp (s : State) (p : Nat) : State :=
  let on := decide (s.fld (sunB + 0x1000 + 0x10 * p) 5 4 = 1) && portIs s p 0
  let t := s.wr (sunB + 0x100C + 0x10 * p) (if on then 1 else 0)
  forEach [5, 6] t fun n x => if refSource x n = p then loseActivity x n else x

/-- What a write of the Sundial does beyond storing: `b` is the state before the store, `s` the one after it, `v` the word written. -/
def sunApply (b s : State) (e : Eff) (i : Nat) (v : Word) : State :=
  match e with
  | .sunDomCtrl => if activeDom b ≠ activeDom s then switchDomain s (nodeTime b) else s
  | .sunUtc => loadUtc b v
  | .sunPtAsym => { s with tdc := { s.tdc with asymEnds := s.tdc.asymEnds.filter (· ≠ i) } }
  | .sunCapCmd => if bit v 0 then captureAll s else s
  | .sunSetCmd =>
    match ftTime (s.rd (sunB + 0x0D0)) (s.rd (sunB + 0x0D4)) (s.rd (sunB + 0x0D8)) with
    | some t => takeSet s (bits v 1 0 - 1) t (bit v 4)
    | none => s
  | .sunBypInc => if inBypass s then loadBypInc s else s
  | .sunPpsCfg => outCfgWritten b s i
  | .sunLtcCfg => outCfgWritten b s (2 + i)
  | .sunWcCfg => outCfgWritten b s (4 + i)
  | .sunCmpCfg =>
    if cmpArmed s i && !cmpArmed b i then armUnit s i else if !cmpArmed s i && cmpArmed b i then disarmUnit s i else s
  | .sunPtCfg =>
    refreshLoops (if b.rd (sunB + 0x1000 + 0x10 * i) &&& 0xFF000F3E = v &&& 0xFF000F3E then s else restartPtp s i)
  | _ => s

end Sys2Proof.Machine
end

