-- ==== Sys2Proof/Machine/GnsOps.lean ====
section
/-!
DEFINITION. GnsOps.lean: the Belvedere's inputs, notches, channels, time solution and snapshots (06_belvedere_gnss.md R280 to R317).
-/
namespace Sys2Proof.Machine

/-- GNS_CHc_CFG. -/
def chanCfg (c : Nat) : Nat := gnsB + 0x2000 + 0x80 * c
/-- GNS_FEn_CFG. -/
def feCfg (n : Nat) : Nat := gnsB + 0x080 + 0x20 * n
/-- GNS_NTnm_CFG. -/
def ntCfg (n m : Nat) : Nat := gnsB + 0x100 + 0x40 * n + 0x10 * m
/-- GNS_GRTj_CFG. -/
def grtCfg (j : Nat) : Nat := gnsB + 0x1000 + 0x40 * j

/-- Has DPLL0 selected the Belvedere's slot, so that it runs in P2 (R36, R335)? -/
def gnsSelected (s : State) : Bool := dpllSel s 0 == some 4

/-- Is the block enabled, clocked and not gated (R36, R334, R335, R336), its sample clocks not stopped by a fatal fault (R780)? -/
def gnsRuns (s : State) : Bool := s.flag (gnsB + 0x004) 0 && !inBypass s && s.alive && !s.flag (monB + 0x048) 31 &&
  (decide (s.pstate < 2) || gnsSelected s)

def gnsCh (s : State) (c : Nat) : GnsCh := AMap.getD s.gns.chs c {}
def setGnsCh (s : State) (c : Nat) (x : GnsCh) : State := { s with gns := { s.gns with chs := AMap.put s.gns.chs c x {} } }
def gnsIn (s : State) (n : Nat) : GnsIn := AMap.getD s.gns.ins n {}
def setGnsIn (s : State) (n : Nat) (x : GnsIn) : State := { s with gns := { s.gns with ins := AMap.put s.gns.ins n x {} } }
def snapRec (s : State) (k : Nat) : Snap := AMap.getD s.gns.snaps k {}
def setSnapRec (s : State) (k : Nat) (x : Snap) : State := { s with gns := { s.gns with snaps := AMap.put s.gns.snaps k x {} } }
def jobRec (s : State) (j : Nat) : Grotto := AMap.getD s.gns.jobs j {}
def setJobRec (s : State) (j : Nat) (x : Grotto) : State := { s with gns := { s.gns with jobs := AMap.put s.gns.jobs j x {} } }

/-- The sample rate of an input in Hz (R281). -/
def sampleRate (s : State) (n : Nat) : Nat :=
  match s.fld (feCfg n) 1 0 with
  | 0 => 20000000
  | 1 => 40000000
  | 2 => 62500000
  | _ => 80000000

/-- A sample period of an input: the count of the VCO divided by 500, 250, 160 or 125, in 2^-40 of the VCO's nominal period (R281). -/
def fePeriod (s : State) (n : Nat) : Nat :=
  match s.fld (feCfg n) 1 0 with
  | 0 => 500 * 2 ^ 40
  | 1 => 250 * 2 ^ 40
  | 2 => 160 * 2 ^ 40
  | _ => 125 * 2 ^ 40

/-- The count of the VCO in one tick of the Sundial: 128 periods of 0.1 ns. -/
def vcoPerTick : Nat := 128 * 2 ^ 40

/-- The multiples of `h` that lie after `a`, up to `b`. -/
def gridIn (a b h : Nat) : List Nat := (List.range (b / h - a / h)).map fun i => (a / h + 1 + i) * h

/-- How long before the last tick the VCO's count was `e`, in 2^-40 ns. -/
def sinceVco (s : State) (e : Nat) : Nat := (s.gns.vco - e) / 10

/-- A component of a sample from its ball levels (R283): its BITS low lines, in two's complement or offset binary. -/
def component (s : State) (n : Nat) (x : Byte) : Int :=
  let b := s.fld (feCfg n) 7 4
  if s.flag (feCfg n) 9 then ((x.toNat % 2 ^ b : Nat) : Int) - (2 ^ (b - 1) : Nat) else signedOf b x.toNat

/-- A sample of an input, I and Q, from the levels of its balls (R283). -/
def sampleOfBalls (s : State) (n : Nat) (x : Byte × Byte) : Int × Int :=
  if s.flag (feCfg n) 10 then (component s n x.2, component s n x.1) else (component s n x.1, component s n x.2)

/-- Does a sample stand at full scale: a component at its greatest or its least value (DEDUCED, log entry 173)? -/
def fullScale (s : State) (n : Nat) (x : Int × Int) : Bool :=
  let m : Int := (2 ^ (s.fld (feCfg n) 7 4 - 1) : Nat)
  x.1 == m - 1 || x.1 == -m || x.2 == m - 1 || x.2 == -m

/-- The input of a signal (R285). -/
def sigInput (sig : Nat) : Nat := if sig < 4 then 0 else 1

/-- The carrier of a signal in Hz (R285). -/
def sigCarrier (sig : Nat) (k : Int) : Int :=
  match sig with
  | 0 => 1575420000
  | 1 => 1575420000
  | 2 => 1561098000
  | 3 => 1602000000 + 562500 * k
  | _ => 1176450000

/-- The highest PRN of a signal (R285). -/
def sigPrn (sig : Nat) : Nat :=
  match sig with
  | 0 => 32
  | 1 => 36
  | 2 => 63
  | 3 => 24
  | 4 => 32
  | _ => 36

/-- The chips of a signal's code period (R285): its chip rate times the period. -/
def sigChips (sig : Nat) : Nat :=
  match sig with
  | 0 => 1023
  | 1 => 4092
  | 2 => 2046
  | 3 => 511
  | _ => 10230

/-- The code period of a signal in ms (R285). -/
def sigMs (sig : Nat) : Nat := if sig = 1 then 4 else 1

/-- The constellation of a signal: 0 GPS, 1 Galileo, 2 BeiDou, 3 GLONASS (R285, R308). -/
def sigConst (sig : Nat) : Nat :=
  match sig with
  | 0 => 0
  | 4 => 0
  | 2 => 2
  | 3 => 3
  | _ => 1

/-- Does a signal, PRN and K break R286? -/
def sigRefused (s : State) (sig prn k : Nat) : Bool :=
  let n := sigInput sig
  let kk := signedOf 4 k
  let off := sigCarrier sig kk - (s.rd (feCfg n + 4)).toNat * 1000
  decide (2 * sampleRate s n < 5 * off.natAbs) || prn == 0 || decide (sigPrn sig < prn) || (sig == 3 && (decide (kk < -7) || decide (6 < kk))) ||
    (decide (4 ≤ sig) && decide (sampleRate s n < 40000000))

/-- GNS_STATUS.JAMn. -/
def jamLevel (s : State) (n : Nat) : Nat := if n = 0 then s.fld (gnsB + 0x040) 9 8 else s.fld (gnsB + 0x040) 13 12

/-- Is notch `m` of input `n` locked (R289)? -/
def notchLocked (s : State) (n m : Nat) : Bool := s.fld (ntCfg n m) 1 0 == 2 || s.fld (ntCfg n m + 0x0C) 1 0 == 2

/-- The baseline of an input in 0.1 dBFS (R291). -/
def baseline (s : State) (n : Nat) : Int := let b := (gnsIn s n).base; if b = [] then 0 else meanOf b

/-- Do more than 5 % of an input's samples of the last 10 ms stand at full scale (R290)? -/
def saturated (s : State) (n : Nat) : Bool :=
  decide (sampleRate s n / 100 < 20 * ((gnsIn s n).last.map (·.2)).sum)

/-- The JAM level whose condition holds (R290). -/
def jamNow (s : State) (n : Nat) : Nat :=
  let x := gnsIn s n
  if saturated s n then 3
  else if x.base ≠ [] ∧ baseline s n + 10 * s.fld (feCfg n) 23 16 < x.pwr then 2
  else if (List.range 4).any fun m => notchLocked s n m then 1 else 0

/-- Is the solution valid for the second (R304)? One that solves nothing (FIXMODE 0) is not. -/
def solutionValid (s : State) : Bool :=
  decide (s.fld (gnsB + 0x200) 15 12 ≤ s.fld (gnsB + 0x040) 31 24) && decide (s.gns.tacc ≤ (s.rd (gnsB + 0x208)).toNat) &&
    s.gns.uses.all (fun n => jamLevel s n != 3) && !s.flag (gnsB + 0x040) 6 && s.flag (gnsB + 0x200) 0 && s.fld (gnsB + 0x040) 19 16 != 0

/-- Validity is judged anew; GNS_STATUS.PPS_VALID shows it and a change raises FIX_CHG (R304). When it ends is kept for R307. -/
def judgeFix (s : State) (fixChanged : Bool) : State :=
  let v := solutionValid s
  let lost := if !v && s.gns.lostAt.isNone then some s.elapsed else s.gns.lostAt
  let s1 := { s with gns := { s.gns with valid := v, lostAt := lost } }.setFlag (gnsB + 0x040) 7 v
  if fixChanged || v != s.gns.valid then gnsEvent s1 1 else s1

/-- An input's JAM level follows its condition; a change raises JAM_CHG (R290), and the solution is judged anew (R304). -/
def judgeJam (s : State) (n : Nat) : State :=
  let j := jamNow s n
  if j = jamLevel s n then s
  else judgeFix (gnsEvent (if n = 0 then s.setFld (gnsB + 0x040) 9 8 j else s.setFld (gnsB + 0x040) 13 12 j) 2) false

/-- An input's power for a millisecond, and the samples that came in it (R290, R291): the baseline takes the reading while the level is 0 or 1. -/
def takePower (s : State) (n : Nat) (pwr : Int) : State :=
  let x := gnsIn s n
  let base := if jamLevel s n ≤ 1 then (pwr :: x.base).take 60000 else x.base
  let s1 := setGnsIn s n { x with pwr := pwr, base := base, now := (0, 0), last := (x.now :: x.last).take 10 }
  judgeJam (s1.wr (feCfg n + 8) (fieldW 31 16 (codeOf 16 (baseline s1 n)) ||| fieldW 15 0 (codeOf 16 pwr))) n

/-- The width of a notch in Hz. -/
def notchWidth (s : State) (n m : Nat) : Nat :=
  match s.fld (ntCfg n m) 5 4 with
  | 0 => 50000
  | 1 => 200000
  | _ => 1000000

/-- Where a locked notch stands, in Hz from the LO. -/
def notchAt (s : State) (n m : Nat) : Int :=
  if s.fld (ntCfg n m) 1 0 = 2 then sbits (s.rd (ntCfg n m + 4)) 31 0 else sbits (s.rd (ntCfg n m + 8)) 31 0

/-- The strongest line that an adaptive notch may lock onto (R287), against the noise floor `fl`; it ignores fixed notches (R289). The width is that of the
notch it must keep away from (DEDUCED, log entry 174). -/
def bestLine (s : State) (n m : Nat) (lines : List Line) (fl : Int) : Option Line :=
  let ok := lines.filter fun x => decide (fl + s.fld (ntCfg n m) 15 8 < x.db) &&
    (List.range 4).all fun q => q == m || s.fld (ntCfg n q) 1 0 != 1 || !notchLocked s n q ||
      decide (2 * notchWidth s n q < (x.freq - notchAt s n q).natAbs)
  ok.foldl (fun (b : Option Line) x => match b with
    | some y => if y.db < x.db then some x else some y
    | none => some x) none

/-- A notch whose MODE changes, or a fixed one whose FREQ is written, stands as its MODE says (R289): one of MODE adaptive starts to search. A write that
leaves MODE at adaptive leaves a lock as it is (R288). `b` is the state before the write. -/
def notchMode (b s : State) (n m : Nat) : State :=
  let mode := s.fld (ntCfg n m) 1 0
  if mode = 1 ∧ b.fld (ntCfg n m) 1 0 = 1 then s
  else
    let was := notchLocked b n m
    let s1 := s.wr (ntCfg n m + 0x0C) (fieldW 1 0 mode)
    let s2 := s1.wr (ntCfg n m + 8) (if mode = 2 then s.rd (ntCfg n m + 4) else 0)
    let s3 := judgeJam { s2 with gns := { s2.gns with notches := AMap.del s2.gns.notches (4 * n + m) } } n
    if was = (mode == 2) then s3 else gnsEvent s3 7

/-- The channels that the time solution uses (R303): of those that run, every one that firmware owns and judges in lock, and every host-owned one whose
USE_IN_FIX is 1; satellites below ELEV are not used. -/
def fixChans (s : State) (x : Solution) : List (Fin 64) :=
  (List.finRange 64).filter fun c =>
    s.flag (chanCfg c) 0 && (if s.flag (chanCfg c) 21 then s.flag (chanCfg c) 22 else x.lock.contains c) &&
      x.elev.all fun e => e.1 != c || decide ((s.fld (gnsB + 0x200) 7 1 : Int) ≤ e.2)

/-- The satellites among channels, each once: constellation and PRN. -/
def satsOf (s : State) (l : List (Fin 64)) : List (Nat × Nat) :=
  l.foldl (fun (a : List (Nat × Nat)) (c : Fin 64) =>
    let x := (sigConst (s.fld (chanCfg c) 3 1), s.fld (chanCfg c) 9 4)
    if a.contains x then a else x :: a) []

/-- The FIXMODE of a solution (R308): 0 without one, else as POS_MODE says. -/
def fixMode (s : State) (x : Solution) : Nat := if x.fix then s.fld (gnsB + 0x200) 9 8 + 1 else 0

/-- The solution of a second is formed from the channels of R303: GNS_STATUS and its validity (R304). -/
def takeSolution (s : State) (x : Solution) : State :=
  let old := s.rd (gnsB + 0x040)
  let l := fixChans s x
  let sats := satsOf s l
  let const := ((List.range 4).map fun k => if sats.any fun e => e.1 == k then 2 ^ k else 0).sum
  let s1 := s.wr (gnsB + 0x040) (putBits (putBits (putBits old 31 24 sats.length) 23 20 const) 19 16 (fixMode s x))
  let uses := (List.range 2).filter fun n => l.any fun c => sigInput (s.fld (chanCfg c) 3 1) == n
  judgeFix { s1 with gns := { s1.gns with tacc := x.tacc.toNat, uses := uses } } (bits old 19 16 != fixMode s x)

/-- GNS_SNAP_STAT of slot `k`. -/
def snapState (s : State) (k : Nat) : Nat := s.fld (gnsB + 0x40C) (4 * k + 2) (4 * k)
/-- Set it. -/
def setSnapState (s : State) (k x : Nat) : State := s.setFld (gnsB + 0x40C) (4 * k + 2) (4 * k) x

/-- What a capture has of input `n`. -/
def Snap.input (x : Snap) (n : Nat) : SnapIn := if n = 0 then x.in0 else x.in1
/-- Replace it. -/
def Snap.setInput (x : Snap) (n : Nat) (y : SnapIn) : Snap := if n = 0 then { x with in0 := y } else { x with in1 := y }

/-- The containers of samples, oldest first (R315): for BITS 2 two samples a byte, the earlier in the low nibble, I in the low half of each (DEDUCED, log
entry 175); for BITS 3 and 4 one byte, I in the low nibble; else two bytes, I first. -/
def containers (b : Nat) : List (Int × Int) → List Byte
  | [] => []
  | [x] => if b = 2 then [BitVec.ofNat 8 (codeOf 2 x.1 + 4 * codeOf 2 x.2)] else contain1 b x
  | x :: y :: l =>
    if b = 2 then BitVec.ofNat 8 (codeOf 2 x.1 + 4 * codeOf 2 x.2 + 16 * codeOf 2 y.1 + 64 * codeOf 2 y.2) :: containers b l
    else contain1 b x ++ (contain1 b y ++ containers b l)
where
  /-- The container of one sample. -/
  contain1 (b : Nat) (x : Int × Int) : List Byte :=
    if b ≤ 4 then [BitVec.ofNat 8 (codeOf 4 x.1 + 16 * codeOf 4 x.2)] else [BitVec.ofInt 8 x.1, BitVec.ofInt 8 x.2]

/-- The 64-byte header of a region (R315). -/
def snapHeader (s : State) (x : SnapIn) (n status : Nat) : List Byte :=
  let cfg := s.rd (feCfg n)
  let dws := [fieldW 31 24 1 ||| fieldW 23 16 n ||| fieldW 15 8 (bits cfg 7 4) ||| fieldW 7 0 (bits cfg 1 0),
      s.rd (feCfg n + 4), w32 x.got.length, fieldW 31 24 status ||| fieldW 23 16 x.jam] ++
    fullTime x.t0 x.tag ++ List.replicate 7 0
  let body := dws.flatMap bytesOfWord
  body ++ bytesOfWord (w32 (crc32 body))

/-- How many samples a capture is to record of an input (R313). -/
def snapWant (s : State) (x : Snap) (n : Nat) : Nat := if bit x.cfg n then sampleRate s n / 1000 * bits x.cfg 23 16 else 0

/-- The region of an input: its header and its samples in their containers (R315). -/
def snapRegion (s : State) (x : Snap) (n status : Nat) : List Byte :=
  if bit x.cfg n then
    snapHeader s (x.input n) n status ++ containers (s.fld (feCfg n) 7 4) (x.input n).got.reverse
  else []

/-- A capture ends with the samples recorded so far (R315 to R317): its slot is HELD. -/
def endCapture (s : State) (k status : Nat) : State :=
  let x := snapRec s k
  let s1 := setSnapRec s k { cfg := x.cfg, start := x.start, in0 := { x.in0 with got := [] }, in1 := { x.in1 with got := [] },
                             reg0 := snapRegion s x 0 status, reg1 := snapRegion s x 1 status }
  gnsEvent ((setSnapState s1 k 3).wr (gnsB + 0x410 + 4 * k) (w32 (max x.in0.got.length x.in1.got.length))) 4

/-- Every capture armed or in progress is cut short with the samples recorded so far (R316, R336). -/
def cutCaptures (s : State) : State :=
  forEach (List.range 4) s fun k t => if snapState t k = 1 ∨ snapState t k = 2 then endCapture t k 0x0E else t

/-- The host's acquisition ends with a code (R334, R336). -/
def endAcq (s : State) (code : Nat) : State :=
  if s.flag (gnsB + 0x30C) 31 then
    gnsEvent ({ s with gns := { s.gns with acqs := s.gns.acqs.filter (· != AcqWho.host) } }.wr (gnsB + 0x30C)
      (bitW 30 true ||| fieldW 23 16 code)) 3
  else s

/-- The input whose live samples the host's acquisition captures, if one is in progress (R292). -/
def acqInput (s : State) : Option Nat :=
  if s.flag (gnsB + 0x30C) 31 ∧ bits s.gns.acq.req 31 29 = 0 then some (sigInput (bits s.gns.acq.req 3 1)) else none

/-- The samples that the host's acquisition captures: COH x NONCOH code periods of its signal (R292). -/
def acqWant (s : State) : Nat :=
  let r := s.gns.acq.req
  bits r 17 14 * (bits r 23 18 + 1) * sigMs (bits r 3 1) * (sampleRate s (sigInput (bits r 3 1)) / 1000)

/-- Does anything use input `n` (R284)? -/
def inputBusy (s : State) (n : Nat) : Bool :=
  ((List.range 64).any fun c => s.flag (chanCfg c) 0 && sigInput (s.fld (chanCfg c) 3 1) == n) ||
    acqInput s == some n ||
    ((List.range 4).any fun k => (snapState s k == 1 || snapState s k == 2) && bit (snapRec s k).cfg n)

/-- GNS_FEn_PHASE as read (R282): where the last edge of the sample grid fell in node time against whole sample periods, in ps. -/
def fePhaseView (s : State) (n : Nat) : Word :=
  let p : Int := fePeriod s n
  let x := (10 * (nodeTime s : Int) - (s.gns.vco : Int)) % p
  let y := if p < 2 * x then x - p else x
  BitVec.ofInt 32 (divRound (y * 100) (2 ^ 40))

/-- The samples a MODE 1 job takes of each tap: NSEG segments of 2^SEG_LOG (R322). -/
def grtSamples (s : State) (j : Nat) : Nat := (s.fld (grtCfg j) 21 12 + 1) * 2 ^ s.fld (grtCfg j) 11 8

/-- GNS_GRTj_STAT.STATE. -/
def grtState (s : State) (j : Nat) : Nat := s.fld (grtCfg j + 0x14) 2 0

/-- The channel state of GNS_CHc_STATUS: 0 IDLE, 1 RUNNING, 2 GROTTO. -/
def chanState (s : State) (c : Nat) : Nat := s.fld (chanCfg c + 0x14) 1 0

/-- The Grotto pool's lowest channel whose EN is 0 and that no job holds (R318). -/
def freeChan (s : State) : Option Nat :=
  let lo := s.fld (gnsB + 0x048) 22 16
  ((List.range 64).filter (lo ≤ ·)).find? fun c => !s.flag (chanCfg c) 0 && chanState s c != 2

/-- Does the port of a job run a trunk (R329)? -/
def grtPort (s : State) (j : Nat) : Nat := s.fld (grtCfg j + 4) 6 0

/-- The marker channels that jobs hold (R268, R327). -/
def markersHeld (s : State) : List Nat := s.gns.jobs.filterMap fun e => e.2.marker

/-- The lowest marker channel that no job holds (R268, R327). -/
def freeMarker (s : State) : Option Nat := [8, 9, 10, 11].find? fun n => !(markersHeld s).contains n

/-- A job claims a pool channel, and in MODE 2 a marker channel too, or waits for them (R318, R319, R327). It starts no earlier than it claims them. That a
ranging job waits for a marker channel as for a pool channel is a DESIGN CHOICE (log entry 177). -/
def claimChannel (s : State) (j : Nat) : State :=
  let ranging := s.fld (grtCfg j) 1 0 == 2
  match freeChan s, freeMarker s with
  | some c, m =>
    if ranging && m.isNone then s.setFld (grtCfg j + 0x14) 2 0 1
    else
      let s1 := (s.setFld (chanCfg c + 0x14) 1 0 2).setFld (grtCfg j + 0x14) 2 0 2
      setJobRec s1 j { jobRec s1 j with chan := some c, marker := if ranging then m else none, start := max (jobRec s1 j).start (nodeTime s1) }
  | none, _ => s.setFld (grtCfg j + 0x14) 2 0 1

/-- GO is taken on a job slot (R318, R319): results cleared, the channel claimed. -/
def startGrotto (s : State) (j start : Nat) (forPort : Option Nat) : State :=
  let s1 := forEach [0x14, 0x18, 0x1C, 0x20, 0x24, 0x28, 0x2C] s fun o t => t.wr (grtCfg j + o) 0
  claimChannel (setJobRec s1 j { goAt := s.elapsed, start := start, forPort := forPort }) j

/-- The result event of a job (R333, R654). -/
def grtStream (s : State) (j : Nat) : State :=
  if s.flag (grtCfg j) 23 then
    (eventWrite s (s.fld (grtCfg j) 31 24) 0x05 j [[0x14, 0x18, 0x1C, 0x20, 0x24, 0x28, 0x2C].map fun o => s.rd (grtCfg j + o)]).1
  else s

/-- A job ends (R331, R333): its channel is free again; a failed job's results read 0; OWNER returns to 0 (R330). -/
def endGrotto (s : State) (j : Nat) (code : Nat) (conf : Bool) : State :=
  let x := jobRec s j
  let s1 := match x.chan with
    | some c => s.setFld (chanCfg c + 0x14) 1 0 (if s.flag (chanCfg c) 0 then 1 else 0)
    | none => s
  let s2 := if code = 0 then s1 else forEach [0x18, 0x1C, 0x20, 0x24, 0x28, 0x2C] s1 fun o t => t.wr (grtCfg j + o) 0
  let s3 := s2.wr (grtCfg j + 0x14) (fieldW 31 24 code ||| bitW 3 (conf && code == 0) ||| fieldW 2 0 (if code = 0 then 3 else 4))
  let s4 := setJobRec (s3.setFlag (grtCfg j) 22 false) j {}
  grtStream (gnsEvent { s4 with gns := { s4.gns with acqs := s4.gns.acqs.filter (· != AcqWho.job j) } } 5) j

/-- Is a job in progress? -/
def grtLive (s : State) (j : Nat) : Bool := grtState s j == 1 || grtState s j == 2

/-- Every job in progress that satisfies `p` ends with E_ABORTED (R331, R335, R336). -/
def abortGrotto (s : State) (p : State → Nat → Bool) : State :=
  forEach (List.range 8) s fun j t => if grtLive t j && p t j then endGrotto t j 0x0A false else t

/-- The sample clock of an input stops at its low level (R334, R336). -/
def stopFeClk (s : State) (n : Nat) : State :=
  if (gnsIn s n).clk then (setGnsIn s n { gnsIn s n with clk := false }).emit (.edge (.feClk n) false (nodeTime s)) else s

/-- Every acquisition, capture and job ends (R316, R331, R334, R336). -/
def gnsStop (s : State) : State := abortGrotto (cutCaptures (endAcq s 0x0A)) fun _ _ => true

/-- The clocks enter bypass: sample clocks stop, acquisitions, captures and jobs end (R316, R331, R334). -/
def gnsBypass (s : State) : State := gnsStop (stopFeClk (stopFeClk s 0) 1)

/-- The Belvedere is switched off by its EN, by P2 or by a fatal fault (R335, R336, R780); its sample clocks stop low after the period in progress
(`feTick`). -/
def gnsOff (s : State) : State := gnsStop s

/-- A domain 0 time as a sample's stamp. -/
def sampleStamp (s : State) (t : Nat) : Nat := compactStamp s 0 t false 0

/-- The samples of one code period for the phases of a channel: 256 fs units to the chip. -/
def codeUnits (s : State) (c : Nat) : Nat :=
  let sig := s.fld (chanCfg c) 3 1
  sigChips sig * 256 * sampleRate s (sigInput sig)

/-- An epoch of a channel: INT code periods (R296). -/
def epochUnits (s : State) (c : Nat) : Nat :=
  (match s.fld (chanCfg c) 18 16 with
   | 0 => 1
   | 1 => 2
   | 2 => 4
   | 3 => 10
   | _ => 20) * codeUnits s c

/-- A channel takes a sample that came at domain 0 time `t` (R296, R297): its NCOs move on, and its epoch ends with the sample that completes its code
periods. -/
def chanSample (s : State) (c t : Nat) : State :=
  let x := gnsCh s c
  if x.ended.isSome then setGnsCh s c { x with extra := x.extra + 1 }
  else
    let ph := x.phase + x.code.toNat
    setGnsCh s c { x with phase := ph, cycles := x.cycles + signedOf 48 x.carr,
                          ended := if (epochUnits s c : Int) ≤ ph then some (sampleStamp s t) else none }

/-- Does a capture record a sample that came when the VCO's count was `e`, at node time `t` (R313)? -/
def snapTakes (s : State) (x : Snap) (n e t : Nat) : Bool :=
  bit x.cfg n && decide ((x.input n).got.length < snapWant s x n) &&
    (match x.start with
     | some b => if bits x.cfg 9 8 = 1 then decide (b ≤ t) else decide (b ≤ e)
     | none => false)

/-- A sample of input `n` that came when the VCO's count was `e`, from the levels of its balls (R280 to R283, R290, R292, R296, R313): clipping, captures, the host's
acquisition and the channels take it. -/
def feSample (s : State) (n e : Nat) (balls : Byte × Byte) : State :=
  let v := sampleOfBalls s n balls
  let t0 := s.sun.d0.t - sinceVco s e
  let full := fullScale s n v
  let x := gnsIn s n
  let s1 := setGnsIn (if full then s.count (feCfg n + 0x10) else s) n { x with now := (x.now.1 + 1, x.now.2 + (if full then 1 else 0)) }
  let s2 := forEach (List.range 4) s1 fun k t =>
    let r := snapRec t k
    let y := r.input n
    if (snapState t k = 1 ∨ snapState t k = 2) ∧ snapTakes t r n e (nodeTime t - sinceVco t e) then
      let y1 : SnapIn := if y.got = [] then { t0 := t0, tag := stampTag t 0 false 0, jam := jamLevel t n, got := [v] } else { y with got := v :: y.got }
      setSnapRec t k (r.setInput n y1)
    else t
  let s3 := if s2.gns.acqs.head? = some .host ∧ acqInput s2 = some n ∧ s2.gns.acq.got < acqWant s2 then
      { s2 with gns := { s2.gns with acq := { s2.gns.acq with got := s2.gns.acq.got + 1, t0 := if s2.gns.acq.got = 0 then t0 else s2.gns.acq.t0 } } }
    else s2
  forEach ((List.range 64).filter fun c => s3.flag (chanCfg c) 0 && chanState s3 c == 1 && sigInput (s3.fld (chanCfg c) 3 1) == n) s3 fun c t =>
    chanSample t c t0

/-- The sample clock of input `n` over a tick that began with the VCO's count at `v0` (R281): its edges appear on its ball, and each rising one takes a
sample; `balls` are the levels of its inputs. It is driven while the input's EN is 1 and the block runs, and stops low after the period in progress. -/
def feTick (s : State) (n v0 : Nat) (balls : List (Byte × Byte)) : State :=
  let p := fePeriod s n
  if !(gnsRuns s && s.flag (feCfg n) 8) then
    match (gridIn v0 s.gns.vco (p / 2)).find? fun e => e / (p / 2) % 2 = 1 with
    | some e => if (gnsIn s n).clk then (setGnsIn s n { gnsIn s n with clk := false }).emit (.edge (.feClk n) false (nodeTime s - sinceVco s e)) else s
    | none => s
  else
    let s1 := forEach (gridIn v0 s.gns.vco (p / 2)) s fun e t =>
      let up := decide (e / (p / 2) % 2 = 0)
      if (gnsIn t n).clk = up then t
      else (setGnsIn t n { gnsIn t n with clk := up }).emit (.edge (.feClk n) up (nodeTime t - sinceVco t e))
    forEach (gridIn v0 s.gns.vco p).zipIdx s1 fun e t => feSample t n e.1 (balls.getD e.2 (0, 0))

/-- The Belvedere on a tick of the Sundial (R281, R310): the VCO counts on unless the clocks are in bypass, and both sample clocks follow it; `sec` is
domain 0's second before the tick. -/
def gnsTick (s : State) (sec : Nat) (fe0 fe1 : List (Byte × Byte)) : State :=
  let v0 := s.gns.vco
  let s1 := { s with gns := { s.gns with vco := if inBypass s then v0 else v0 + vcoPerTick, sec0 := sec } }
  feTick (feTick s1 0 v0 fe0) 1 v0 fe1

/-- The sample clocks are aligned at chip reset: the VCO's count stands as node time does (R282). -/
def alignVco (s : State) : State := { s with gns := { s.gns with vco := 10 * nodeTime s } }

end Sys2Proof.Machine
end

