-- ==== Sys2Proof/Machine/Gns.lean ====
section
/-!
DEFINITION. Gns.lean: the events of the Belvedere (R287 to R317, R318, R319, R328, R329), one meaning per row of the table.
-/
namespace Sys2Proof.Machine

/-- Count a millisecond of a locked notch whose line stays below THR - 3 dB, or begin the count anew (R288). -/
def notchMs (s : State) (key : Nat) (low : Bool) : State :=
  let x := AMap.getD s.gns.notches key {}
  { s with gns := { s.gns with notches := AMap.put s.gns.notches key { x with lowMs := if low then x.lowMs + 1 else 0 } {} } }

/-- NOTCH_SEARCH (R287, R288, R290): a millisecond of notch `k` of input `n`, valid 1 ms after the last one. `lines` is the spectrum of the input and
`fl` its noise floor, in dB on one scale; `follow` is the line that a locked notch follows. The input's power comes with notch 0. -/
def execNotchSearch (n : Fin 2) (k : Fin 4) (lines : List Line) (depth : Byte) (pwr : BitVec 16) (fl : Int) (follow : Option Line)
    (s : State) : Result :=
  let key := 4 * n.val + k.val
  let x := AMap.getD s.gns.notches key {}
  if !gnsRuns s ∨ !s.flag (feCfg n) 8 ∨ s.elapsed < x.next then .next s
  else
    let a := ntCfg n k
    let sa := { s with gns := { s.gns with notches := AMap.put s.gns.notches key { x with next := s.elapsed + 1000000 * tuPerNs } {} } }
    let s0 := if k.val = 0 then takePower sa n (signedOf 16 pwr.toNat) else sa
    if s0.fld a 1 0 ≠ 1 then .next s0
    else if s0.fld (a + 0x0C) 1 0 = 2 then
      match follow with
      | some x =>
        let s1 := notchMs s0 key (decide (x.db + 3 < fl + s0.fld a 15 8))
        .next ((s1.wr (a + 8) (BitVec.ofInt 32 x.freq)).wr (a + 0x0C) (fieldW 15 8 depth.toNat ||| fieldW 1 0 2))
      | none => .next (notchMs s0 key true)
    else
      match bestLine s0 n k lines fl with
      | some x =>
        let s1 := (s0.wr (a + 8) (BitVec.ofInt 32 x.freq)).wr (a + 0x0C) (fieldW 15 8 depth.toNat ||| fieldW 1 0 2)
        .next (judgeJam (gnsEvent s1 7) n)
      | none => .next s0

/-- NOTCH_RELEASE (R288): valid once a locked adaptive notch's line has stayed below THR - 3 dB for 100 ms. -/
def execNotchRelease (n : Fin 2) (k : Fin 4) (s : State) : Result :=
  let a := ntCfg n k
  if s.fld a 1 0 = 1 ∧ s.fld (a + 0x0C) 1 0 = 2 ∧ 100 ≤ (AMap.getD s.gns.notches (4 * n.val + k.val) {}).lowMs then
    let s1 := (s.wr (a + 8) 0).wr (a + 0x0C) (fieldW 1 0 1)
    .next (judgeJam (gnsEvent { s1 with gns := { s1.gns with notches := AMap.del s1.gns.notches (4 * n.val + k.val) } } 7) n)
  else .next s

/-- Code periods in ms that an acquisition sums coherently, as COH code periods last (R292). -/
def acqCohMs (s : State) : Nat := bits s.gns.acq.req 17 14 * sigMs (bits s.gns.acq.req 3 1)

/-- The Doppler bins of an acquisition: from DOP_CTR - SPAN upward, 1/(2 COH x code period) apart, up to DOP_CTR + SPAN (R292). -/
def acqBins (s : State) : Nat := 2 * bits s.gns.acq.dop 31 16 * (2 * acqCohMs s) / 1000 + 1

/-- The Doppler of bin `i` in 0.25 Hz, to the nearest. -/
def acqDoppler (s : State) (i : Nat) : Int :=
  let c := acqCohMs s
  divRound (4 * (sbits s.gns.acq.dop 15 0 - bits s.gns.acq.dop 31 16) * c + 2000 * i) c

/-- Domain 0 time of the first sample that the host's acquisition searches: of the live input, or of a held snapshot slot (R292). -/
def acqStart (s : State) : Nat :=
  let src := bits s.gns.acq.req 31 29
  if src = 0 then s.gns.acq.t0 else ((snapRec s (src - 1)).input (sigInput (bits s.gns.acq.req 3 1))).t0

/-- ACQ_DONE (R292, R293, R295): the host's request completes with its best cell, once its turn has come and its samples are captured: half-chip
`code`, Doppler bin `dop`; the code phase refers to sample `i` of those searched. -/
def execAcqDone (pnr : BitVec 16) (code dop : Nat) (i : Nat) (s : State) : Result :=
  let r := s.gns.acq.req
  if gnsRuns s ∧ s.gns.acqs.head? = some .host ∧ (bits r 31 29 ≠ 0 ∨ acqWant s ≤ s.gns.acq.got) ∧ code < 2 * sigChips (bits r 3 1) ∧
      dop < acqBins s ∧ i < acqWant s then
    let found := decide ((s.rd (gnsB + 0x320)).toNat ≤ pnr.toNat)
    let t := acqStart s + i * tuPerSec / sampleRate s (sigInput (bits r 3 1))
    let s1 := ((s.wr (gnsB + 0x310) (w32 (code * 2 ^ 15))).wr (gnsB + 0x314) (BitVec.ofInt 32 (acqDoppler s dop))).wr64 (gnsB + 0x318) (sampleStamp s t)
    let s2 := s1.wr (gnsB + 0x30C) (bitW 30 true ||| bitW 29 found ||| fieldW 15 0 pnr.toNat)
    .next (gnsEvent { s2 with gns := { s2.gns with acqs := s2.gns.acqs.tail } } 3)
  else .next s

/-- A channel's code phase in units of 2^-16 chip, and its carrier phase modulo 2^32 in units of 2^-10 cycle (R297). -/
def chanPhases (s : State) (c : Nat) : Word × Word :=
  let x := gnsCh s c
  let fs := sampleRate s (sigInput (s.fld (chanCfg c) 3 1))
  (BitVec.ofInt 32 (x.phase % (codeUnits s c : Int) * 2 ^ 8 / (fs : Int)), BitVec.ofInt 32 (x.cycles / (2 ^ 6 * fs : Nat)))

/-- A channel's next epoch begins: pending writes, the code jump and OWNER take effect (R298, R301), and the samples that have come since take the
new NCO values. -/
def applyEpoch (s : State) (c : Nat) : State :=
  let a := chanCfg c
  let x := gnsCh s c
  let fs := sampleRate s (sigInput (s.fld a 3 1))
  let carr := s.rd64 (a + 8) % 2 ^ 48
  let s1 := s.wr (a + 0x10) 0
  let s2 := match x.ownerNext with
    | some o => (s1.setFlag a 21 o).setFlag (a + 0x14) 4 false
    | none => s1
  setGnsCh s2 c
    { code := s.rd (a + 4), carr := carr, ownerNext := none, ended := none, extra := 0
      phase := x.phase - epochUnits s c + sbits (s.rd (a + 0x10)) 31 0 * fs + x.extra * (s.rd (a + 4)).toNat
      cycles := x.cycles + x.extra * signedOf 48 carr }

/-- The sums of a channel's seven correlators in order (R296): the data component at the offsets of SPACING, the pilot component where the signal has
one and prompt again where not, and half the code length away. A correlator that `data` has no sums for gathered nothing. -/
def corSums (s : State) (c : Nat) (data : List (Int × Word × Word)) (pilot half : Word × Word) : List Word :=
  let d : Int := match s.fld (chanCfg c) 15 14 with
    | 0 => 10
    | 1 => 5
    | _ => 2
  let at_ (o : Int) : Word × Word := match data.find? fun e => e.1 == o with
    | some e => e.2
    | none => (0, 0)
  let five := if [1, 4, 5].contains (s.fld (chanCfg c) 3 1) then pilot else at_ 0
  [at_ (-2 * d), at_ (-d), at_ 0, at_ d, at_ (2 * d), five, half].flatMap fun e => [e.1, e.2]

/-- EPOCH_END (R296 to R298, R301, R302): channel `c` dumps the epoch that has ended. What its signal correlates to in it comes from outside: the sums of the
data component by code offset from prompt in 1/20 chip, those of the pilot component, those half a code length away, and C/N0. -/
def execEpochEnd (c : Fin 64) (data : List (Int × Word × Word)) (pilot : Word × Word) (half : Word × Word) (cn0 : Word) (_x : Unit) (s : State) : Result :=
  let a := chanCfg c
  match (gnsCh s c).ended with
  | none => .next s
  | some st =>
    if !gnsRuns s ∨ !s.flag a 0 ∨ chanState s c ≠ 1 then .next s
    else
      let ph := chanPhases s c
      let sums := corSums s c data pilot half
      let s1 := ((((s.wr64 (a + 0x18) st).wr (a + 0x20) ph.1).wr (a + 0x24) ph.2).wr (a + 0x60) cn0)
      let s2 := forEach (List.range 14) s1 fun i t => t.wr (a + 0x28 + 4 * i) (sums.getD i 0)
      let s3 :=
        if s.flag a 23 then
          let w (i : Nat) : Word := sums.getD i 0
          let e := eventWrite s2 (s.fld a 31 24) 0x03 c
            [[ph.1] ++ dwPair st ++ [ph.2, cn0, w 0, w 1], (List.range 6).map fun i => w (2 + i), (List.range 6).map fun i => w (8 + i)]
          if e.2 then e.1 else e.1.count (a + 0x64)
        else s2
      .next (applyEpoch s3 c)

/-- The dwords 0 to 6 of a time message (R308), and its CRC. -/
def messageWords (s : State) (tacc : Word) (sec utc : Nat) (pend sign : Bool) (qerr : Word) : List Word :=
  let st := s.rd (gnsB + 0x040)
  let jam := (s.gns.uses.map fun n => jamLevel s n).foldl max 0
  let d0 := fieldW 31 24 1 ||| fieldW 23 16 (bits st 31 24) ||| fieldW 15 12 (bits st 23 20) ||| fieldW 11 8 (bits st 19 16) ||| fieldW 7 6 jam |||
    bitW 3 pend ||| bitW 2 sign ||| bitW 1 (bit st 6) ||| bitW 0 s.gns.valid
  let ws := [d0, w32 sec, fieldW 31 16 utc ||| fieldW 15 0 (sec / 2 ^ 32), qerr, tacc, fieldW 31 16 (s.gns.seq % 2 ^ 16), 0]
  ws ++ [w32 (crc32 (ws.flatMap bytesOfWord))]

/-- The VCO's count at the pulse whose intended instant is the second `lead` (in 2^-40 ns) after the last tick plus GNS_ANT_DELAY: the nearest edge of the
sample clock (R306), that of the lowest input the solution uses (DESIGN CHOICE, log entry 176); and the intended instant less that edge, in ps. -/
def pulseEdge (s : State) (lead : Nat) : Nat × Int :=
  let p := fePeriod s (s.gns.uses.foldl min 1)
  let want : Int := s.gns.vco + 10 * (lead : Int) + sbits (s.rd (gnsB + 0x204)) 31 0 * 2 ^ 40 / 100
  let e := (divRound want p * p).toNat
  (e, divRound ((want - e) * 100) (2 ^ 40))

/-- TIME_MESSAGE (R306 to R309): the message for second `sec`, which the solution puts `lead` (in 2^-40 ns) after the last tick: at least 50 ms. -/
def execTimeMessage (x : Solution) (sec : BitVec 48) (utc : BitVec 16) (pend sign : Bool) (lead : Nat) (s : State) : Result :=
  if !gnsRuns s ∨ lead < 50000000 * tuPerNs then .next s
  else
    let s1 := takeSolution s x
    let e := pulseEdge s1 lead
    let ws := messageWords s1 x.tacc sec.toNat utc.toNat pend sign (BitVec.ofInt 32 e.2)
    let s2 := forEach (List.range 8) s1 fun i t => t.wr (gnsB + 0x220 + 4 * i) (ws.getD i 0)
    let s3 := gnsEvent { s2 with gns := { s2.gns with
      seq := s2.gns.seq + 1, msgValid := s2.gns.valid, msgSec := sec.toNat, msgQerr := e.2, msgAt := e.1, lostAt := none,
      msgUtc := fieldW 31 16 utc.toNat ||| bitW 1 sign ||| bitW 0 pend, emitted := false, loaded := false } } 0
    .next (if s.flag (gnsB + 0x048) 23 then (eventWrite s3 (s.fld (gnsB + 0x048) 31 24) 0x04 0 [ws.take 7, ws.drop 7]).1 else s3)

/-- The elapsed time at which the VCO's count is `e`. -/
def elapsedAt (s : State) (e : Nat) : Int := s.elapsed + ((e : Int) - s.gns.vco) / 10

/-- Did the message carry VALID 1, and did the solution stay valid until 1 ms before the pulse (R307)? -/
def pulseKept (s : State) : Bool := s.gns.msgValid &&
  match s.gns.lostAt with
  | none => true
  | some l => decide (elapsedAt s s.gns.msgAt ≤ l + (1000000 * tuPerNs : Nat))

/-- BELVEDERE_PPS (R182, R306, R307): valid in the tick whose sample-clock edge the message announced, if the pulse is kept. The pulse feeds slot 4: its
TAI time is the message's second less QERR, `interval` its distance from the last one. A capture that waits for it begins with its sample (R313). -/
def execBelvederePps (interval : Nat) (_x : Unit) (s : State) : Result :=
  if !gnsRuns s ∨ !pulseKept s ∨ s.gns.emitted ∨ s.gns.msgAt < s.gns.vco ∨ s.gns.vco + vcoPerTick ≤ s.gns.msgAt then .next s
  else
    let sub := (s.gns.msgAt - s.gns.vco) / 10
    let s0 := { s with gns := { s.gns with emitted := true } }
    let s1 := forEach (List.range 4) s0 fun k t =>
      let r := snapRec t k
      if snapState t k = 1 ∧ bits r.cfg 9 8 = 2 ∧ r.start = none then setSnapRec t k { r with start := some s.gns.msgAt } else t
    let src : Int := (s.gns.msgSec * tuPerSec : Nat) - s.gns.msgQerr * 2 ^ 40 / 1000
    let ok := refEnabled s1 4 && arrivalValid s1 4 (.pps interval sub) == some true
    let s2 := if ok then keepOffset (keepOffset s1 4 0 (src - (s1.sun.d0.t + sub : Nat))) 4 1 (src - (s1.sun.d1.t + sub : Nat)) else s1
    .next (arrive s2 4 (.pps interval sub))

/-- Is the pulse that the last message announced emitted: it has been, or it comes within the 1 ms in which it can no longer be lost (R307)? -/
def pulseComes (s : State) : Bool :=
  s.gns.emitted || (pulseKept s && gnsRuns s && decide (s.gns.vco ≤ s.gns.msgAt) && decide (s.gns.msgAt ≤ s.gns.vco + 10 * 1000000 * tuPerNs))

/-- GNSS_UTC_LOAD (R310): valid on the tick at which domain 0 time has reached the second of a message with VALID 1 whose pulse is emitted, while domain 0
follows slot 4 and UTC_LOAD is 1. -/
def execGnssUtcLoad (s : State) : Result :=
  if s.gns.msgValid ∧ !s.gns.loaded ∧ pulseComes s ∧ s.gns.sec0 < s.gns.msgSec ∧ s.gns.msgSec ≤ s.sun.d0.t / tuPerSec ∧ followed s 0 = some 4 ∧
      s.flag (gnsB + 0x048) 9 then
    .next (loadUtc { s with gns := { s.gns with loaded := true } } s.gns.msgUtc)
  else .next s

/-- SNAPSHOT_CAPTURE_START (R313): valid on an armed slot whose first sample has come. -/
def execSnapshotCaptureStart (k : Fin 4) (_x : Unit) (s : State) : Result :=
  let x := snapRec s k
  if snapState s k = 1 ∧ gnsRuns s ∧ (x.in0.got ≠ [] ∨ x.in1.got ≠ []) then .next (setSnapState s k 2) else .next s

/-- SNAPSHOT_CAPTURE_END (R313, R317): valid on a capture that has recorded DUR_MS milliseconds of every input it names. One cut short ends with what
cuts it (R316). -/
def execSnapshotCaptureEnd (k : Fin 4) (_x _y _z _w : Unit) (s : State) : Result :=
  let x := snapRec s k
  if snapState s k = 2 ∧ snapWant s x 0 ≤ x.in0.got.length ∧ snapWant s x 1 ≤ x.in1.got.length then .next (endCapture s k 0) else .next s

/-- GROTTO_CHANNEL_CLAIM (R318): valid on a waiting job while a pool channel is free. -/
def execGrottoChannelClaim (j : Fin 8) (s : State) : Result :=
  if grtState s j = 1 ∧ (freeChan s).isSome then .next (claimChannel s j) else .next s

/-- GROTTO_WAIT_TIMEOUT (R319): valid on a job that has waited 10 s since GO. -/
def execGrottoWaitTimeout (j : Fin 8) (s : State) : Result :=
  if grtState s j = 1 ∧ (jobRec s j).goAt + 10 * tuPerSec ≤ s.elapsed then .next (endGrotto s j 0x07 false) else .next s

/-- The averaged mean path delay of a trunk port in domain 0, in 2^-40 ns (R212). -/
def meanDelay (s : State) (p : Nat) : Option Int :=
  match (AMap.getD s.sun.trk (2 * p) {}).delays with
  | [] => none
  | l => some (meanOf l)

/-- A_near less S_near, both of a job's first code period, in 2^-40 ns. -/
def markersApart (x : Grotto) : Int := timeDiff (x.came.getD 0) (x.left.getLastD 0)

/-- RANGING_EXCHANGE (R328): a TC6 message of the peer reaches port `p`, whole when `good`: the arrival `aFar` and the departures `sFar` of the code periods
in its domain 0 time, 2^-40 ns. The pairing is the one that puts DELAY nearest the averaged mean path delay. -/
def execRangingExchange (j : Fin 8) (p : Fin 128) (good : Bool) (aFar : Nat) (sFar : List Nat) (s : State) : Result :=
  if s.fld (grtCfg j) 1 0 = 2 ∧ grtState s j = 2 ∧ grtPort s j = p.val ∧ good = true ∧ gnsRuns s then
    let x := { jobRec s j with heard := true }
    let s1 := setJobRec s j x
    match x.came with
    | none => .next s1
    | some a =>
      let goal := (meanDelay s (grtPort s j)).getD 0
      let all : List Int := sFar.flatMap fun f => x.left.map fun n => (timeDiff a f + timeDiff aFar n) / 2
      match all with
      | [] => .next s1
      | d0 :: t =>
        let d := t.foldl (fun b x => if (x - goal).natAbs < (b - goal).natAbs then x else b) d0
        .next (setJobRec s j { x with exchanged := true, delay := divRound (d * 1000) (2 ^ 40), apart := markersApart x })
  else .next s

/-- GROTTO_PEER_TIMEOUT (R329): valid on a ranging job whose peer runs none within 10 s of GO: neither its chips nor its message has come. -/
def execGrottoPeerTimeout (j : Fin 8) (s : State) : Result :=
  let x := jobRec s j
  if s.fld (grtCfg j) 1 0 = 2 ∧ grtState s j = 2 ∧ !x.heard ∧ x.came = none ∧ x.goAt + 10 * tuPerSec ≤ s.elapsed then
    .next (endGrotto s j 0x09 false)
  else .next s

/-- ANTENNA_FAULT_CHANGE (R304): ball GNS_ANT_FLT_N falls or rises. -/
def execAntennaFaultChange (low : Bool) (s : State) : Result :=
  if s.flag (gnsB + 0x040) 6 = low then .next s
  else
    let s1 := s.setFlag (gnsB + 0x040) 6 low
    .next (judgeFix (if low then gnsEvent s1 6 else s1) false)

/-- TIME_SOLUTION_UPDATE (R303, R304): a second's solution, which puts the antenna at `px`, `py`, `pz` in cm; survey-in counts its seconds with a
solution and, after SURVEY_S, writes the averaged position and goes to fixed mode. -/
def execTimeSolutionUpdate (x : Solution) (px py pz : Word) (s : State) : Result :=
  if !gnsRuns s then .next s
  else
    let s1 := takeSolution s x
    if s.fld (gnsB + 0x200) 9 8 = 1 ∧ x.fix = true then
      let n := satWord (s.rd (gnsB + 0x20C)) 1
      let v := s.gns.survey
      let sum := (v.1 + px.toInt, v.2.1 + py.toInt, v.2.2 + pz.toInt)
      let s2 := { s1 with gns := { s1.gns with survey := sum } }.wr (gnsB + 0x20C) n
      let mean (y : Int) : Word := BitVec.ofInt 32 (divRound y n.toNat)
      if s.fld (gnsB + 0x200) 31 16 ≤ n.toNat then
        .next ((((s2.wr (gnsB + 0x210) (mean sum.1)).wr (gnsB + 0x214) (mean sum.2.1)).wr (gnsB + 0x218) (mean sum.2.2)).setFld (gnsB + 0x200) 9 8 2)
      else .next s2
    else .next s1

end Sys2Proof.Machine
end

