-- ==== Sys2Proof/Machine/SunTrk.lean ====
section
/-!
DEFINITION. SunTrk.lean: the Gwynti time words (04_sundial_time_engine.md R207 to R214, R224) and the states of the PTP instances (R101,
R202).
-/
namespace Sys2Proof.Machine

/-- A word of eight dwords. -/
def dwAt (l : List Word) (i : Nat) : Word := l.getD i 0

/-- The check word over bytes 0 to 23 and 26 to 31 (R210). -/
def twCheck (dws : List Word) : Nat :=
  let b := ((List.range 8).map (dwAt dws)).flatMap bytesOfWord
  crc16 (b.take 24 ++ b.drop 26)

/-- SUN_PTp_ADJ.TXADJ and RXADJ in 2^-40 ns. -/
def portTxAdj (s : State) (p : Nat) : Int := divRound (sbits (s.rd (sunB + 0x1004 + 0x10 * p)) 15 0 * 2 ^ 40) 1000
/-- See `portTxAdj`. -/
def portRxAdj (s : State) (p : Nat) : Int := divRound (sbits (s.rd (sunB + 0x1004 + 0x10 * p)) 31 16 * 2 ^ 40) 1000
/-- The factory delays of a lane at a rate (R274, R276): the part's own, which no number of the spec gives. -/
def factoryDelays (l rate : Nat) : LaneDelay := { tx := Config.factoryDelay l rate true, rx := Config.factoryDelay l rate false }

/-- The delays of a lane in use and their targets: the factory ones of its rate until others have been loaded (R267, R276). -/
def laneNow (s : State) (l : Nat) : LaneNow :=
  match AMap.get s.tdc.now l with
  | some x => x
  | none =>
    let d := factoryDelays l (s.fld (lanB l + 0x040) 15 8)
    { tx := d.tx, rx := d.rx, txT := d.tx, rxT := d.rx }

/-- TDC_LANEl_TXD, RXD, TXD_TGT, RXD_TGT by index (R276). -/
def laneReg (s : State) (l k : Nat) : Word :=
  let x := laneNow s l
  match k with
  | 0 => x.tx
  | 1 => x.rx
  | 2 => x.txT
  | _ => x.rxT

/-- The applied fixed delays of a lane in 2^-40 ns (R197). -/
def laneTxd (s : State) (l : Nat) : Nat := (laneNow s l).tx.toNat * 2 ^ 24
/-- See `laneTxd`. -/
def laneRxd (s : State) (l : Nat) : Nat := (laneNow s l).rx.toNat * 2 ^ 24
/-- The device's delay of frame `id` on port `p`, transmitted or received (R196): a trunk lane's applied fixed delay, or an Ethernet port's PCS and PMA
delay with, under FEC, what the device measures of the frame. A local port has no stamp. -/
def portDelay (s : State) (p id : Nat) (tx : Bool) : Nat :=
  if portIs s p 1 then (if tx then laneTxd s p else laneRxd s p)
  else if portIs s p 0 then
    let fec := s.flag (macB p + 0x040) 6
    Config.ethDelay (s.fld (macB p + 0x040) 31 24) fec tx + (if fec then Config.fecShift id p tx else 0)
  else 0
/-- The device's transmit delay of frame `id` on port `p` plus TXADJ (R196, R197). -/
def egressAdj (s : State) (p id : Nat) : Int := (portDelay s p id true : Int) + portTxAdj s p
/-- The device's receive delay of frame `id` on port `p` plus RXADJ. -/
def ingressAdj (s : State) (p id : Nat) : Int := (portDelay s p id false : Int) + portRxAdj s p
/-- SUN_PTp_ASYM in 2^-40 ns. -/
def portAsym (s : State) (p : Nat) : Int := divRound (sbits (s.rd (sunB + 0x1008 + 0x10 * p)) 31 0 * 2 ^ 40) 1000

/-- A time plus an offset, on the wrapping counter and the 2^-16 ns grid of a time word. -/
def shiftTime (t : Nat) (x : Int) : Nat := (((t : Int) + x) % (timeWrap : Int)).toNat / 2 ^ 24 * 2 ^ 24

/-- The record of a trunk port and a domain. -/
def trkTime (s : State) (p dom : Nat) : TrkTime := AMap.getD s.sun.trk (2 * p + dom) {}
/-- Replace it. -/
def setTrkTime (s : State) (p dom : Nat) (x : TrkTime) : State :=
  { s with sun := { s.sun with trk := AMap.put s.sun.trk (2 * p + dom) x {} } }

/-- Do the lanes of a trunk port carry superblocks: enabled, clocked, with the rate not changing (R154, R374, R376)? -/
def trunkRuns (s : State) (p : Nat) : Bool :=
  portIs s p 1 && !inBypass s && decide (s.fld (trkState p) 3 0 ≠ 0) && decide (s.fld (trkState p) 3 0 ≠ 4)

/-- The code of a rate: line bits per ns, times 32 (R339). -/
def laneNum (rate : Nat) : Nat :=
  match rate with
  | 1 => 40
  | 2 => 330
  | 3 => 825
  | 4 => 850
  | 5 => 1700
  | 6 => 3400
  | _ => 0

/-- Bits of a superblock's period (R353, R362). -/
def sbBits (rate : Nat) : Nat := if rate = 5 ∨ rate = 6 then 4400 else 4096

/-- Lanes of a port. -/
def portWidth (s : State) (p : Nat) : Nat := 2 ^ s.fld (macB p + 0x40) 19 18

/-- The rate code a port runs at: that of TRK_Pk_STATE on a trunk that reports one, else the configured one. -/
def portRate (s : State) (p : Nat) : Nat :=
  let r := s.fld (macB p + 0x40) 31 24
  if portIs s p 1 ∧ s.fld (trkState p) 23 16 ≠ 0 then s.fld (trkState p) 23 16 else r

/-- How long a superblock of a port lasts, in 2^-40 ns (R353, R362). -/
def sbTime (s : State) (p : Nat) : Nat := if laneNum (portRate s p) = 0 then 0 else sbBits (portRate s p) * 32 * tuPerNs / laneNum (portRate s p)

/-- The interval between a domain's time words (R207). -/
def twInterval : Nat := 125000 * tuPerNs

/-- Does a superblock that starts `sub` after the last tick carry a time word of a domain: the first one that starts at or after a multiple of
125 us of the domain's time (R207)? -/
def wordDue (s : State) (p dom sub : Nat) : Bool :=
  let t := (ctrOf s dom).t + sub
  decide ((trkTime s p dom).slot ≠ some (t / twInterval)) && decide (t % twInterval < sbTime s p)

/-- What domain `dom` has received from upstream. -/
def upOf (s : State) (dom : Nat) : Upstream := if dom = 0 then s.sun.up0 else s.sun.up1

/-- The UTC_OFFSET, LEAP_PEND and LEAP_SIGN of SUN_UTC. -/
def ownUtc (s : State) : Nat := s.fld (sunB + 0x060) 31 16

/-- The eight dwords of a word that leaves at `t1` (R208 to R210, R214). -/
def timeWordOf (s : State) (p dom t1 : Nat) : List Word :=
  let x := trkTime s p dom
  let u := upOf s dom
  let up := followed s dom == some 7
  let id := s.fld (chpB + 0x050) 11 0
  let hops := if up then u.hops + 1 else 0
  let root := if up then u.root else id
  let err := if up then min (u.err + s.fld (sunB + 0x0F0) 31 16) 0xFFFF else 0
  let utc := if up then u.utc else ownUtc s
  let frac (t : Nat) : Nat := t % tuPerNs / 2 ^ 24
  let ns (t : Nat) : Nat := t % tuPerSec / tuPerNs
  let sec := t1 / tuPerSec
  let d0 := fieldW 31 28 1 ||| fieldW 27 24 (s.fld (trkState p) 6 4) ||| fieldW 23 16 hops ||| fieldW 15 8 x.seq ||| fieldW 7 0 x.echo
  let d1 := fieldW 31 20 root ||| fieldW 19 8 id ||| fieldW 7 5 (qcHeld s dom) ||| fieldW 4 4 dom |||
    bitW 3 (s.flag (sunB + 0x060) 0) ||| bitW 2 (s.flag (sunB + 0x060) 1)
  let d3 := fieldW 31 16 sec ||| fieldW 15 0 (frac t1)
  let d5 := fieldW 31 16 (frac x.t4) ||| fieldW 15 0 err
  let d6 := fieldW 31 16 utc
  let ws := [d0, d1, w32 (ns t1), d3, w32 (ns x.t4), d5, d6, w32 (sec / 2 ^ 16)]
  [d0, d1, w32 (ns t1), d3, w32 (ns x.t4), d5, d6 ||| fieldW 15 0 (twCheck ws), w32 (sec / 2 ^ 16)]

/-- TIME_WORD_SEND (R207 to R210, R214): the superblock that carries the word starts `sub` (in 2^-40 ns) after the last tick. Valid on a
trunk port whose lanes run, for a running domain, when a word is due. -/
def execTimeWordSend (p : Fin 128) (dom : Fin 2) (sub : Nat) (s : State) : Result :=
  if !trunkRuns s p ∨ !domRuns s dom ∨ !wordDue s p dom sub then .next s
  else
    let t1 := shiftTime ((ctrOf s dom).t + sub) (laneTxd s p + portTxAdj s p)
    let ws := timeWordOf s p dom t1
    let x := trkTime s p dom
    let y := { x with seq := (x.seq + 1) % 256, slot := some (((ctrOf s dom).t + sub) / twInterval),
                      sent := ((x.seq, t1, s.elapsed + sub) :: x.sent).take 9 }
    let s1 := setTrkTime s p dom y
    let s2 := if dom.val = 0 then
        s1.wr (sunB + 0x0F4) (fieldW 31 16 (bits (dwAt ws 5) 15 0) ||| fieldW 12 8 (bits (dwAt ws 0) 23 16))
      else s1
    .next ((setPortRec s2 p { portRec s2 p with times := AMap.set (portRec s2 p).times dom ws }).emit (.timeWord p ws))

/-- T1 of a received word. -/
def twT1 (w : List Word) : Nat :=
  (bits (dwAt w 3) 31 16 + (dwAt w 7).toNat * 2 ^ 16) * tuPerSec + (dwAt w 2).toNat * tuPerNs + bits (dwAt w 3) 15 0 * 2 ^ 24

/-- T4 of a received word within its second. -/
def twT4 (w : List Word) : Nat := (dwAt w 4).toNat * tuPerNs + bits (dwAt w 5) 31 16 * 2 ^ 24

/-- The mean path delay of one exchange, in 2^-40 ns (R212), with a word sent within the last 8 intervals before `now` (elapsed time): T4 carries
no seconds, so the sum is taken to the nearest whole second. -/
def exchangeDelay (x : TrkTime) (w : List Word) (t2 now : Nat) : Option Int :=
  (x.sent.find? fun e => e.1 == bits (dwAt w 0) 7 0 && decide (now - e.2.2 ≤ 8 * twInterval)).map fun e =>
    (nearestSecond ((t2 : Int) - twT1 w + twT4 w - e.2.1)) / 2

/-- An invalid word (R211): counted and reported. -/
def badTimeWord (s : State) (p : Nat) : State := sunEvent (s.count (macB p + 0x154)) 7

/-- A valid word of `dom` on port `p` that gives offset `ofs` (R178, R213, R214, R224): it feeds slot 7 when the port is the slot's SOURCE. -/
def feedSlot7 (s : State) (p dom : Nat) (w : List Word) (ofs : Option Int) : State :=
  if refSource s 7 ≠ p then s
  else
    let utc := bits (dwAt w 6) 31 16
    let u : Upstream :=
      { qc := bits (dwAt w 1) 7 5, hops := bits (dwAt w 0) 23 16, root := bits (dwAt w 1) 31 20, err := bits (dwAt w 5) 15 0, utc := utc,
        valid := true }
    let s1 : State := if dom = 0 then { s with sun := { s.sun with up0 := u } } else { s with sun := { s.sun with up1 := u } }
    let s2 := match ofs with
      | some x => if refEnabled s1 7 then keepOffset s1 7 dom x else s1
      | none => s1
    let s3 := handIfPending (gainActivity s2 7) 7 dom
    if dom = 0 ∧ followed s3 0 = some 7 then
      loadUtc s3 (fieldW 31 16 utc ||| bitW 1 (bit (dwAt w 1) 2) ||| bitW 0 (bit (dwAt w 1) 3))
    else s3

/-- An asymmetry run on a port sees its averaged mean path delay, in 2^-40 ns (R256): in the run's first second, or in its repeat's. -/
def seeDelay (s : State) (p : Nat) (d : Int) : State :=
  let x := AMap.getD s.tdc.items (512 + p) {}
  let y := if s.elapsed < x.startAt + tuPerSec then { x with sum1 := x.sum1 + d, num1 := x.num1 + 1 }
    else if s.elapsed < x.startAt + 2 * tuPerSec then { x with sum2 := x.sum2 + d, num2 := x.num2 + 1 } else x
  if x.run then { s with tdc := { s.tdc with items := AMap.put s.tdc.items (512 + p) y {} } } else s

/-- A time word arrives on a trunk port (R211 to R213): a word whose superblock arrives `sub` (in 2^-40 ns) after the last tick. Its own exchange counts into the
averaged delay that R211 judges; until an exchange has been made a word gives no offset (DESIGN CHOICE, log entry 15). -/
def takeTimeWord (s : State) (p : Nat) (dws : List Word) (sub : Nat) : State :=
  let w := (List.range 8).map (dwAt dws)
  if !trunkRuns s p ∨ bits (dwAt w 0) 31 28 ≠ 1 then s
  else
    let dom := bits (dwAt w 1) 4 4
    let x := trkTime s p dom
    let t2 := shiftTime ((ctrOf s dom).t + placedSub s sub) (-((laneRxd s p : Int)) - portRxAdj s p)
    let formed := bits (dwAt w 6) 15 0 = twCheck w ∧ bits (dwAt w 0) 27 24 = s.fld (trkState p) 6 4 ∧ bits (dwAt w 0) 23 16 < 31 ∧
      (dwAt w 2).toNat ≤ 999999999
    if !decide formed then badTimeWord s p
    else
      let ds := match exchangeDelay x w t2 (s.elapsed + sub) with
        | some d => (d :: x.delays).take (2 ^ s.fld (sunB + 0x0F0) 3 0)
        | none => x.delays
      let d := meanOf ds
      if ds ≠ [] ∧ ((200000 * tuPerNs : Nat) : Int) < d then badTimeWord (setTrkTime s p dom { x with delays := ds }) p
      else
        let s1 := setTrkTime s p dom
          { x with delays := ds, echo := bits (dwAt w 0) 15 8, t4 := t2, hops := bits (dwAt w 0) 23 16, qc := bits (dwAt w 1) 7 5,
                   lastAt := some s.elapsed }
        let ofs : Option Int := if ds = [] then none else some ((twT1 w : Int) + d + divRound (portAsym s p) 2 - t2)
        let s2 := match ofs with
          | some o => histSample s1 (some (p / 16)) 2 (p % 16 + 128 * dom) 0 (divRound (o * 1000) (2 ^ 40))
          | none => s1
        feedSlot7 (if dom = 0 ∧ ds ≠ [] then seeDelay s2 p d else s2) p dom w ofs

/-- TIME_WORD_RECEIVE (R211 to R213). -/
def execTimeWordReceive (p : Fin 128) (dws : List Word) (sub : Nat) (s : State) : Result := .next (takeTimeWord s p dws sub)

/-- SUN_TRK_ROOT as read. -/
def trkRootView (s : State) : Word :=
  if followed s 0 = some 7 then bitW 31 s.sun.up0.valid ||| fieldW 11 0 s.sun.up0.root
  else bitW 31 (s.flag (chpB + 0x050) 31) ||| fieldW 11 0 (s.fld (chpB + 0x050) 11 0)

/-- PTP_PORT_STATE_CHANGE (R101, R200, R205): port `p`'s instance takes a state of SUN_PTp_STATE with mean path delay `mpd` in ns. A port in MASTER,
PASSIVE or any state but SLAVE gives slot 5 or 6 no activity. A port whose MODE is TC has no instance and stays DISABLED; firmware measures its
ingress link's mean path delay under peer-to-peer delay (DESIGN CHOICE, log entry 168). -/
def execPtpPortStateChange (p : Fin 128) (st : Fin 7) (mpd : BitVec 16) (s : State) : Result :=
  let a := sunB + 0x1000 + 0x10 * p.val
  if !portIs s p 0 then .next s
  else if s.fld a 5 4 = 2 then .next (s.wr (a + 0x00C) (fieldW 31 16 mpd.toNat))
  else if s.fld a 5 4 ≠ 1 then .next s
  else
    let s1 := s.wr (a + 0x00C) (fieldW 31 16 mpd.toNat ||| fieldW 2 0 st.val)
    .next (if st.val = 3 then s1 else forEach [5, 6] s1 fun n x => if refSource x n = p.val then loseActivity x n else x)

end Sys2Proof.Machine
end

