-- ==== Sys2Proof/Machine/OrgOps.lean ====
section
/-!
DEFINITION. OrgOps.lean: what the stacked memory of the Orangery holds (00_scope.md R4): snapshots, what jobs put there, and frames of the tier.
-/
namespace Sys2Proof.Machine

/-- Samples of a block. -/
def Job.bsize (j : Job) : Nat := 2 ^ j.blog
/-- NIN and NOUT. -/
def Job.nin (j : Job) : Nat := j.ins.length
/-- See `Job.nin`. -/
def Job.nout (j : Job) : Nat := j.outs.length

/-- The pieces of a job's storage in bytes: a gain set, a delay line (R577, R594). -/
def gainSetBytes (j : Job) : Nat := 4 * j.nin * j.nout
/-- See `gainSetBytes`. -/
def delayBytes (j : Job) : Nat := j.arg0 * j.nin * 4

/-- The size of the Orangery in bytes: 16 GiB (R4). -/
def orgSize : Nat := 16 * 2 ^ 30

/-- The bytes that a job has in the Orangery: the state its image asks for, gain sets and a delay line (R587, R589). -/
def jobOrgBytes (j : Job) : Nat := j.orgKib * 1024 + j.orgSets.length * gainSetBytes j + if j.orgDelay then delayBytes j else 0

/-- The bytes of frames in the Orangery tier (R409). -/
def tierBytes (s : State) : Nat :=
  s.sw.queues.foldl (fun a e => e.2.foldl (fun b c => if c.tier then b + c.f.bytes.length else b) a) 0

/-- The bytes of the Orangery that are taken: 64 MiB for each snapshot slot from GO to REL (R311), what jobs have there, frames of the tier. -/
def orgUsed (s : State) : Nat :=
  ((List.range 4).filter fun k => snapState s k != 0).length * 2 ^ 26 + s.plc.jobs.foldl (fun a e => a + jobOrgBytes e.2) 0 + tierBytes s

end Sys2Proof.Machine
end

