-- ==== Sys2Proof/Machine/TblOps.lean ====
section
/-!
DEFINITION. TblOps.lean: the forwarding tables and the table engine of 09_forwarding_tables.md: entries and their checks, hashing and placement,
learning with moves and flapping, ageing, and the operations of software and cues.
-/
namespace Sys2Proof.Machine

/-- Are the switch core and the table blocks clocked (R36, R698)? -/
def switchRuns (s : State) : Bool := s.alive && decide (s.pstate < 2)

/-- The entries of the L2 and the stream table that lie in buckets, and their overflow stores (R450). -/
def l2Main : Nat := 524288
def l2Ovf : Nat := 16384
def stMain : Nat := 262144
def stOvf : Nat := 8192
/-- Where stream indices start among the places of both tables. -/
def stBase : Nat := 2 ^ 20

/-- Is a place one of the stream table? -/
def isStream (pl : Nat) : Bool := decide (stBase ≤ pl)

/-- The entry at a place; none where it is not VALID. -/
def entryAt (s : State) (pl : Nat) : Option (List Word) :=
  if isStream pl then AMap.get s.tbl.st (pl - stBase) else AMap.get s.tbl.l2 pl

/-- Is a place HELD for a staged cue (R495)? -/
def placeHeld (s : State) (pl : Nat) : Bool := AMap.has s.tbl.held pl

/-- Where the unsound copies of a group entry are listed. -/
def groupPlace (g : Nat) : Nat := 2 ^ 21 + g

/-- The bank of a place (R452). -/
def bankOf (pl : Nat) : Nat :=
  if 2 ^ 21 ≤ pl then 6
  else if isStream pl then (if pl - stBase < stMain then 4 + (pl - stBase) / 131072 else 7) else if pl < l2Main then pl / 131072 else 7

/-- Is a bank locked (TBL_LOCK)? -/
def bankLocked (s : State) (b : Nat) : Bool := s.flag (tblB + 0x064) b

/-- TBL_NOW. -/
def tblNow (s : State) : Nat := s.fld (tblB + 0x058) 15 0

/-- The dword of an entry that holds VALID, STATIC and VID: 1 of an L2 entry, 8 of a stream entry. The next holds AGE and DEST, the one after
it DTYPE, VACT and NEW_VID. -/
def vdw (st : Bool) : Nat := if st then 8 else 1

/-- Fields of an entry. -/
def eStatic (st : Bool) (e : List Word) : Bool := bit (dwAt e (vdw st)) 30
def eVid (st : Bool) (e : List Word) : Nat := bits (dwAt e (vdw st)) 27 16
def eAge (st : Bool) (e : List Word) : Nat := bits (dwAt e (vdw st + 1)) 31 16
def eDest (st : Bool) (e : List Word) : Nat := bits (dwAt e (vdw st + 1)) 15 0
def eDtype (st : Bool) (e : List Word) : Bool := bit (dwAt e (vdw st + 2)) 31
def eVact (st : Bool) (e : List Word) : Nat := bits (dwAt e (vdw st + 2)) 30 29
def eNewVid (st : Bool) (e : List Word) : Nat := bits (dwAt e (vdw st + 2)) 27 16
/-- The MAC address of an L2 entry. -/
def eMac (e : List Word) : Nat := bits (dwAt e 1) 15 0 * 2 ^ 32 + (dwAt e 0).toNat
/-- The address that four dwords hold, lowest first. -/
def addrOf (e : List Word) (i : Nat) : Nat :=
  (dwAt e i).toNat + (dwAt e (i + 1)).toNat * 2 ^ 32 + (dwAt e (i + 2)).toNat * 2 ^ 64 + (dwAt e (i + 3)).toNat * 2 ^ 96

/-- Replace dword `i` of an entry. -/
def setDw (e : List Word) (i : Nat) (v : Word) : List Word := e.set i v

/-- The entry with AGE replaced. -/
def withAge (st : Bool) (e : List Word) (age : Nat) : List Word := setDw e (vdw st + 1) (putBits (dwAt e (vdw st + 1)) 31 16 age)

/-- The key of an entry: the dwords that lookups compare (R462, R463). -/
def keyOf (st : Bool) (e : List Word) : List Word :=
  if st then e.take 8 ++ [dwAt e 8 &&& 0x3FFF0000] else [dwAt e 0, dwAt e 1 &&& 0x0FFFFFFF]

/-- The key of an L2 address. -/
def l2Key (vid mac : Nat) : List Word := [w32 mac, fieldW 27 16 vid ||| fieldW 15 0 (mac / 2 ^ 32)]

/-- The four dwords of an address. -/
def addrDws (x : Nat) : List Word := [w32 x, w32 (x / 2 ^ 32), w32 (x / 2 ^ 64), w32 (x / 2 ^ 96)]

/-- The key of a stream. -/
def stKey (af any_ : Bool) (vid grp src : Nat) : List Word :=
  addrDws grp ++ addrDws src ++ [bitW 29 af ||| bitW 28 any_ ||| fieldW 27 16 vid]

/-- The bytes of a key in the order in which they are hashed (R462, R463). -/
def keyBytes (st : Bool) (k : List Word) : List Byte :=
  let vid := eVid st k
  let v2 := [BitVec.ofNat 8 (vid % 256), BitVec.ofNat 8 (vid / 256)]
  if st then
    [bitW 0 (bit (dwAt k 8) 29) ||| bitW 1 (bit (dwAt k 8) 28)].map (fun x => BitVec.ofNat 8 x.toNat) ++ v2 ++ [0] ++
      netOfNat 16 (addrOf k 0) ++ netOfNat 16 (addrOf k 4)
  else netOfNat 6 (eMac k) ++ v2

/-- The first place of a key's bucket (R464). -/
def bucketOf (s : State) (st : Bool) (k : List Word) : Nat :=
  let h := crc32 (keyBytes st k) ^^^ (s.rd (tblB + 0x050)).toNat
  if st then stBase + 4 * (h % 2 ^ 16) else 4 * (h % 2 ^ 17)

/-- The first place of a table's overflow store, and its size. -/
def ovfBase (st : Bool) : Nat := if st then stBase + stMain else l2Main
def ovfSize (st : Bool) : Nat := if st then stOvf else l2Ovf

/-- The listed overflow entries of a table, as places. -/
def ovfEntries (s : State) (st : Bool) : List (Nat × List Word) :=
  if st then ((s.tbl.st.filter fun e => decide (stMain ≤ e.1))).map fun e => (stBase + e.1, e.2)
  else s.tbl.l2.filter fun e => decide (l2Main ≤ e.1)

/-- The place of a key (R465): in its bucket or, after that, in the overflow store; none where it is absent. HELD slots are invisible (R495). -/
def findKey (s : State) (st : Bool) (k : List Word) : Option Nat :=
  let base := if st then stBase else 0
  ((if st then s.tbl.st else s.tbl.l2).find? fun e => keyOf st e.2 == k &&
    (decide (ovfBase st ≤ base + e.1) || (decide (bucketOf s st k ≤ base + e.1) && decide (base + e.1 < bucketOf s st k + 4)))).map (base + ·.1)

/-- Is a place free? -/
def placeFree (s : State) (p : Nat) : Bool := !placeHeld s p && (entryAt s p).isNone

/-- The lowest free place among the next `n` from `p`. -/
def firstFree (s : State) (p : Nat) : Nat → Option Nat
  | 0 => none
  | n + 1 => if placeFree s p then some p else firstFree s (p + 1) n

/-- Where a new entry goes (R466). -/
def newPlace (s : State) (st : Bool) (k : List Word) : Option Nat :=
  match firstFree s (bucketOf s st k) 4 with
  | some p => some p
  | none => firstFree s (ovfBase st) (ovfSize st)

/-- How many entries an overflow store holds. -/
def ovfUsed (s : State) (st : Bool) : Nat := (ovfEntries s st).length

/-- Entries in buckets. -/
def mainUsed (s : State) (st : Bool) : Nat :=
  if st then (s.tbl.st.filter fun e => decide (e.1 < stMain)).length else (s.tbl.l2.filter fun e => decide (e.1 < l2Main)).length

/-- The entry at a place becomes `e`; one with VALID 0 is stored as empty (R461). A new entry has no hit flags and sound copies. An overflow
store that passes 75 % full raises OVF_HIGH. -/
def putEntry (s : State) (pl : Nat) (e : List Word) : State :=
  let st := isStream pl
  let valid := bit (dwAt e (vdw st)) 31
  let upd (m : AMap (List Word)) (i : Nat) : AMap (List Word) := if valid then AMap.set m i e else AMap.del m i
  let t1 := if st then { s.tbl with st := upd s.tbl.st (pl - stBase) } else { s.tbl with l2 := upd s.tbl.l2 pl }
  let s1 := { s with tbl := { t1 with hits := AMap.del t1.hits pl, bad := AMap.del t1.bad pl } }
  if ovfUsed s st * 4 ≤ ovfSize st * 3 ∧ ovfSize st * 3 < ovfUsed s1 st * 4 then tblEvent s1 3 else s1

/-- Rewrite the entry at a place without touching its flags. -/
def alterEntry (s : State) (pl : Nat) (f : List Word → List Word) : State :=
  match entryAt s pl with
  | some e =>
    if isStream pl then { s with tbl := { s.tbl with st := AMap.set s.tbl.st (pl - stBase) (f e) } }
    else { s with tbl := { s.tbl with l2 := AMap.set s.tbl.l2 pl (f e) } }
  | none => s

/-- Delete the entry at a place. -/
def delEntry (s : State) (pl : Nat) : State :=
  if isStream pl then
    { s with tbl := { s.tbl with st := AMap.del s.tbl.st (pl - stBase), hits := AMap.del s.tbl.hits pl, bad := AMap.del s.tbl.bad pl } }
  else { s with tbl := { s.tbl with l2 := AMap.del s.tbl.l2 pl, hits := AMap.del s.tbl.hits pl, bad := AMap.del s.tbl.bad pl } }

/-- The entry at a place is set to AGE TBL_NOW. -/
def refreshAt (s : State) (pl : Nat) : State := alterEntry s pl fun e => withAge (isStream pl) e (tblNow s)

/-- The group entry of a number (R450); none where it is not VALID. -/
def groupAt (s : State) (g : Nat) : Option (List Word) := AMap.get s.tbl.grp g

/-- Does an input stream name a group (R565)? -/
def groupStreamed (s : State) (g : Nat) : Bool := s.plc.streams.any fun x => (x.2.skind == 1 || x.2.skind == 3) && x.2.grp == g

/-- Does job `j` read input stream `h`: by its handle, or by one of the stream's taps? -/
def readsStream (j : Job) (h : Nat) (x : Stream) : Bool :=
  if x.skind = 3 then decide (j.kind = 6 ∨ j.kind = 7) && j.ins.contains h
  else !(j.kind == 6 || j.kind == 7) && j.ins.any fun t => decide (x.tapBase ≤ t) && decide (t < x.tapBase + x.ch)

/-- The Pavilions whose cells need a stream, the destination of a move among them (R565, step 1 of R595). -/
def streamPavs (s : State) (h : Nat) (x : Stream) : List Nat :=
  s.plc.jobs.flatMap fun e =>
    if readsStream e.2 h x && !e.2.homeless then e.2.cell / 16 :: (match e.2.move with
      | some m => [m.dst / 16]
      | none => []) else []

/-- MASK_CMP of a group as the device keeps it (R565), in bits 8:1. -/
def cmpMask (s : State) (g : Nat) : Word :=
  let l := s.plc.streams.flatMap fun x => if (x.2.skind == 1 || x.2.skind == 3) && x.2.grp == g then streamPavs s x.1 x.2 else []
  (List.range 8).foldl (fun a r => a ||| bitW (1 + r) (l.contains r)) 0

/-- A group entry with the device's own MASK_CMP where an input stream names the group. -/
def withCmp (s : State) (g : Nat) (e : List Word) : List Word :=
  if groupStreamed s g then e.set 4 (putBits (dwAt e 4) 8 1 (bits (cmpMask s g) 8 1)) else e

/-- Write a group entry: VALID 0 stores zeros (R461). -/
def putGroup (s : State) (g : Nat) (e : List Word) : State :=
  let m := if bit (dwAt e 5) 31 then AMap.set s.tbl.grp g (withCmp s g e) else AMap.del s.tbl.grp g
  { s with tbl := { s.tbl with grp := m, bad := AMap.del s.tbl.bad (groupPlace g) } }

/-- Bring MASK_CMP of a group up to date; `drop` says that the group has just lost its last input stream, whose bits clear. -/
def refreshGroup (s : State) (g : Nat) (drop : Bool := false) : State :=
  match groupAt s g with
  | some e =>
    if groupStreamed s g then putGroup s g e
    else if drop then putGroup s g (e.set 4 (putBits (dwAt e 4) 8 1 0))
    else s
  | none => s

/-- Bring MASK_CMP of every group that an input stream names up to date. -/
def refreshGroups (s : State) : State :=
  forEach ((s.plc.streams.filter fun x => x.2.skind == 1 || x.2.skind == 3).map fun x => x.2.grp) s fun g t => refreshGroup t g

/-- The check of an entry of table `t` (0 L2, 1 stream, 2 group) that is written with VALID 1 (R461): the first failing row's code; 0 when
it passes. -/
def checkEntry (t : Nat) (e : List Word) : Nat :=
  if t = 2 then
    if !bit (dwAt e 5) 31 then 0
    else if bits (dwAt e 4) 31 9 ≠ 0 ∨ bits (dwAt e 5) 30 0 ≠ 0 ∨ dwAt e 6 ≠ 0 ∨ dwAt e 7 ≠ 0 then 0x01 else 0
  else
    let st := t == 1
    let v := dwAt e (vdw st)
    let x := dwAt e (vdw st + 2)
    if !bit v 31 then 0
    else
      let resv := if st then
          bits v 15 0 ≠ 0 ∨ bit x 28 ∨ bit x 15 ∨ bit x 14 ∨ bits x 13 4 ≠ 0 ∨ ((List.range 5).any fun i => dwAt e (11 + i) != 0) = true
        else bits v 29 28 ≠ 0 ∨ bit x 28 ∨ bit x 15 ∨ bit x 14 ∨ bits x 13 0 ≠ 0
      let dest := eDest st e
      let port := !eDtype st e
      let vid := eVid st e
      if resv ∨ bits x 30 29 = 3 then 0x01
      else if port ∧ reservedPort dest then 0x01
      else if port ∧ 255 < dest then 0x06
      else if vid = 0 ∨ vid = 4095 ∨ (bits x 30 29 = 2 ∧ (bits x 27 16 = 0 ∨ bits x 27 16 = 4095)) then 0x06
      else if !st then (if bit (dwAt e 1) 8 ∧ !bit v 30 then 0x01 else 0)
      else
        let grp := addrOf e 0
        let src := addrOf e 4
        let af := bit v 29
        if (!af ∧ (2 ^ 32 ≤ grp ∨ 2 ^ 32 ≤ src)) ∨ (bit v 28 ∧ src ≠ 0) then 0x01
        else if (if af then grp / 2 ^ 120 ≠ 0xFF else grp / 2 ^ 28 ≠ 0xE) then 0x06
        else if bit x 3 ∧ bits x 2 0 = 7 then 0x01
        else 0

/-- The tracker slot of an address that is live: frozen, or its window still open. -/
def trackOf (s : State) (vid mac : Nat) : Option Track :=
  s.tbl.track.find? fun x => x.vid == vid && x.mac == mac && (x.frozen.isSome || decide (s.elapsed ≤ x.ends))

/-- Is an address frozen as flapping (R473)? -/
def frozen (s : State) (vid mac : Nat) : Bool :=
  s.tbl.track.any fun x => x.vid == vid && x.mac == mac && x.frozen.isSome

/-- Free an address's tracker slot. -/
def dropTrack (s : State) (vid mac : Nat) : State :=
  { s with tbl := { s.tbl with track := s.tbl.track.filter fun x => !(x.vid == vid && x.mac == mac) } }

/-- Put a tracker slot in place. -/
def setTrack (s : State) (x : Track) : State :=
  let t := dropTrack s x.vid x.mac
  { t with tbl := { t.tbl with track := t.tbl.track ++ [x] } }

/-- Software or a cue changes the L2 entry of an address: a freeze ends at once (R477). -/
def endFreeze (s : State) (vid mac : Nat) : State := if frozen s vid mac then dropTrack s vid mac else s

/-- The L2 entry that a learn makes (row 6 of R471). -/
def learnedEntry (vid mac port now : Nat) : List Word :=
  [w32 mac, bitW 31 true ||| fieldW 27 16 vid ||| fieldW 15 0 (mac / 2 ^ 32), fieldW 31 16 now ||| fieldW 15 0 port, 0]

/-- An address flaps (R473): anchored, frozen, recorded. -/
def flap (s : State) (pl : Nat) (x : Track) (port : Nat) : State :=
  let s1 := alterEntry s pl fun e =>
    setDw (setDw e 2 (putBits (dwAt e 2) 15 0 (x.anchor % 2 ^ 16))) 3
      (putBits (putBits (dwAt e 3) 31 31 (x.anchor / 2 ^ 16)) 15 15 1)
  let s2 := setTrack s1 { x with frozen := some (s.elapsed + s.fld (tblB + 0x060) 15 0 * tuPerSec) }
  let s3 := (((s2.count (tblB + 0x108)).wr (tblB + 0x080) (w32 x.mac)).wr (tblB + 0x084)
    (fieldW 27 16 x.vid ||| fieldW 15 0 (x.mac / 2 ^ 32))).wr (tblB + 0x088) (fieldW 15 8 x.anchor ||| fieldW 7 0 port)
  tblEvent s3 0

/-- The move itself (row 5 of R471). -/
def moveEntry (s : State) (pl port : Nat) : State :=
  (alterEntry s pl fun e =>
    setDw (setDw e 2 (fieldW 31 16 (tblNow s) ||| fieldW 15 0 port)) 3 (putBits (dwAt e 3) 31 31 0)).count (tblB + 0x104)

/-- Tracker slots whose window has ended without a flap are free (R475). -/
def freeTracks (s : State) : State :=
  { s with tbl := { s.tbl with track := s.tbl.track.filter fun x => x.frozen.isSome || decide (s.elapsed ≤ x.ends) } }

/-- A station move (R472, R473, R476). -/
def stationMove (s : State) (pl : Nat) (e : List Word) (vid mac port : Nat) : State :=
  match trackOf s vid mac with
  | some x =>
    if s.fld (tblB + 0x05C) 7 0 < x.count + 1 then flap s pl x port
    else setTrack (moveEntry s pl port) { x with count := x.count + 1 }
  | none =>
    let s1 := freeTracks s
    if 1024 ≤ s1.tbl.track.length then (moveEntry s1 pl port).count (tblB + 0x11C)
    else
      let anchor := (if eDtype false e then 2 ^ 16 else 0) + eDest false e
      setTrack (moveEntry s1 pl port) ⟨vid, mac, anchor, 1, s.elapsed + s.fld (tblB + 0x05C) 31 16 * 1000000 * tuPerNs, none⟩

/-- The table engine commits a learn that came from Pavilion `r` (R471). -/
def commitLearn (s : State) (r : Nat) (x : Learn) : State :=
  let pl := findKey s false (l2Key x.vid x.mac)
  let toward := match pl with
    | some p => some p
    | none => newPlace s false (l2Key x.vid x.mac)
  let static := match pl with
    | some p => (match entryAt s p with
      | some e => eStatic false e
      | none => false)
    | none => false
  match toward with
  | none => tblEvent (s.count (tblB + 0x110)) 1
  | some p =>
    if bankLocked s (bankOf p) && !static then s.count (lrnB r + 0x054)
    else if frozen s x.vid x.mac then s.count (tblB + 0x10C)
    else
      match entryAt s p with
      | some e =>
        if static then s
        else if !eDtype false e && decide (eDest false e = x.port) then refreshAt s p
        else stationMove s p e x.vid x.mac x.port
      | none => (putEntry s p (learnedEntry x.vid x.mac x.port (tblNow s))).count (tblB + 0x100)

/-- The learn queue of a Pavilion. -/
def learnQ (s : State) (r : Nat) : List Learn := AMap.getD s.tbl.learnQ r []
/-- Replace it. -/
def setLearnQ (s : State) (r : Nat) (l : List Learn) : State := { s with tbl := { s.tbl with learnQ := AMap.put s.tbl.learnQ r l [] } }
/-- The refresh queue of a Pavilion. -/
def refQ (s : State) (r : Nat) : List EntryRef := AMap.getD s.tbl.refQ r []
/-- Replace it. -/
def setRefQ (s : State) (r : Nat) (l : List EntryRef) : State := { s with tbl := { s.tbl with refQ := AMap.put s.tbl.refQ r l [] } }

/-- LRN_STATUS as read. -/
def lrnStatusView (s : State) (r : Nat) : Word := fieldW 28 16 (refQ s r).length ||| fieldW 10 0 (learnQ s r).length

/-- LRN_EVENT bit `b` of Pavilion `r` drives its learn source (R670). -/
def lrnEvent (s : State) (r b : Nat) : State := pavEvent s r 18 (lrnB r + 0x044) b

/-- A lookup in Pavilion `r` finds an entry that fails its ECC check there: it is a miss, and the engine rewrites it from a sound replica (R27, R496). A bank
in which that has happened RETIRE_LIM times within RETIRE_WIN is worn (R770). -/
def repairAt (s : State) (r pl : Nat) : State :=
  let b := bankOf pl
  let x := windowHit (tblEvent ({ s with tbl := { s.tbl with bad := AMap.del s.tbl.bad pl } }.count (tblB + 0x120)) 5) (0x3000 + 16 * r + b)
  if retireLim s ≤ x.2 ∧ !x.1.tbl.worn.contains (8 * r + b) then
    { x.1 with tbl := { x.1.tbl with worn := x.1.tbl.worn ++ [8 * r + b] } }
  else x.1

/-- Does the entry at a place fail its ECC check in Pavilion `r`'s replica? -/
def unsound (s : State) (r pl : Nat) : Bool := AMap.getD s.tbl.bad pl 0 / 2 ^ r % 2 == 1

/-- Repair an entry that a lookup has found unsound; one that no replica holds sound stays. -/
def repairFound (s : State) (r pl : Nat) : State := if AMap.getD s.tbl.bad pl 0 = 0xFF then s else repairAt s r pl

/-- Pavilion `r` loads its replica of the banks that `ok` picks from another Pavilion's (R497): what some other replica holds sound is sound. -/
def reloadReplica (s : State) (r : Nat) (ok : Nat → Bool) : State :=
  let m := s.tbl.bad.map fun e => (e.1, if ok (bankOf e.1) && e.2 != 0xFF && e.2 / 2 ^ r % 2 == 1 then e.2 - 2 ^ r else e.2)
  { s with tbl := { s.tbl with bad := m.filter fun e => e.2 != 0 } }

/-- A frame of network port `p` whose tail has passed queues a learn (R469, R470). The look at the entry of its source address refreshes nothing: R479
speaks of lookups that resolve a frame (DEDUCED, log entry 190). -/
def queueLearn (s0 : State) (p vid mac : Nat) : State :=
  let r := p / 16
  if !s0.flag (lrnSlot p) 28 ∨ mac / 2 ^ 40 % 2 = 1 ∨ mac = 0 then s0
  else
    let pl := findKey s0 false (l2Key vid mac)
    let bad := pl.filter (unsound s0 r)
    let s := match bad with
      | some x => repairFound s0 r x
      | none => s0
    let e := if bad.isSome then none else pl.bind (entryAt s)
    let known := match e with
      | some e => !eDtype false e && decide (eDest false e = p)
      | none => false
    let static := match e with
      | some e => eStatic false e
      | none => false
    if known then s
    else if static then s.count (lrnSlot p + 0x18)
    else if (learnQ s r).any fun x => x.vid == vid && x.mac == mac then s
    else if 1024 ≤ (learnQ s r).length then lrnEvent (s.count (lrnB r + 0x050)) r 0
    else (setLearnQ s r (learnQ s r ++ [⟨vid, mac, p⟩])).count (lrnSlot p + 0x10)

/-- A lookup in Pavilion `r` hits the entry at a place (R479, R480). -/
def hitEntry (s : State) (r pl : Nat) : State :=
  match entryAt s pl with
  | none => s
  | some e =>
    let st := isStream pl
    if eStatic st e ∨ eAge st e = tblNow s then s
    else
      let ref : EntryRef := ⟨pl, keyOf st e⟩
      if (refQ s r).contains ref then s
      else if 4096 ≤ (refQ s r).length then
        let m := AMap.getD s.tbl.hits pl 0
        lrnEvent ({ s with tbl := { s.tbl with hits := AMap.set s.tbl.hits pl (m ||| 2 ^ r) } }.count (lrnB r + 0x058)) r 1
      else
        let t := setRefQ s r (refQ s r ++ [ref])
        { t with tbl := { t.tbl with refIn := AMap.set t.tbl.refIn r (AMap.getD t.tbl.refIn r 0 + 1) } }

/-- Does the entry that a reference names still stand? -/
def refStands (s : State) (x : EntryRef) : Bool :=
  match entryAt s x.place with
  | some e => keyOf (isStream x.place) e == x.key
  | none => false

/-- The front refresh of Pavilion `r` commits (R479, R483). -/
def commitRefresh (s : State) (r : Nat) : State :=
  match refQ s r with
  | [] => s
  | x :: t =>
    let s1 := setRefQ s r t
    let s2 := { s1 with tbl := { s1.tbl with refOut := AMap.set s1.tbl.refOut r (AMap.getD s1.tbl.refOut r 0 + 1) } }
    if refStands s2 x then refreshAt s2 x.place else s2

/-- Is the address of the entry at a place frozen? -/
def frozenAt (s : State) (pl : Nat) (e : List Word) : Bool := !isStream pl && frozen s (eVid false e) (eMac e)

/-- The ager visits the entry at a place (R481, R482, R484). -/
def agerVisit (s : State) (pl : Nat) : State :=
  match entryAt s pl with
  | none => s
  | some e =>
    let st := isStream pl
    if AMap.has s.tbl.hits pl then
      refreshAt { s with tbl := { s.tbl with hits := AMap.del s.tbl.hits pl } } pl
    else
      let behind := (tblNow s + 2 ^ 16 - eAge st e) % 2 ^ 16
      if !s.flag (tblB + 0x054) 31 ∨ bankLocked s (bankOf pl) then
        if 32768 ≤ behind then alterEntry s pl fun x => withAge st x ((tblNow s + 2 ^ 16 - 32768) % 2 ^ 16) else s
      else if eStatic st e ∨ frozenAt s pl e ∨ behind < s.tbl.ageLim then s
      else
        let d : AgeDel := ⟨⟨pl, keyOf st e⟩, eAge st e, (List.range 8).map fun r => AMap.getD s.tbl.refIn r 0⟩
        if s.tbl.dels.any fun x => x.ref == d.ref then s else { s with tbl := { s.tbl with dels := s.tbl.dels ++ [d] } }

/-- Have all refreshes issued before a compare-and-delete committed (R483)? -/
def delReady (s : State) (d : AgeDel) : Bool := (List.range 8).all fun r => decide (d.after.getD r 0 ≤ AMap.getD s.tbl.refOut r 0)

/-- A compare-and-delete commits (R483). An entry that has been hit since, with the hit in a flag because a refresh queue was full, stays as well, and is
counted (DEDUCED, log entry 189). A bank locked meanwhile keeps its entry, as does AGE_EN 0, and an address frozen meanwhile (R474, R484, R492). -/
def commitDel (s : State) (d : AgeDel) : State :=
  match entryAt s d.ref.place with
  | some e =>
    let st := isStream d.ref.place
    if keyOf st e = d.ref.key ∧ !eStatic st e ∧ eAge st e = d.age ∧ !AMap.has s.tbl.hits d.ref.place then
      if !s.flag (tblB + 0x054) 31 ∨ bankLocked s (bankOf d.ref.place) ∨ frozenAt s d.ref.place e then s else (delEntry s d.ref.place).count (tblB + 0x114)
    else s.count (tblB + 0x118)
  | none => s.count (tblB + 0x118)

/-- The places of non-static L2 entries that go to a port (255 all) on a VID (0 all) (R485, R486). -/
def flushPlaces (s : State) (port vid : Nat) : List Nat :=
  (s.tbl.l2.filter fun x => !eStatic false x.2 && !eDtype false x.2 && (port == 255 || eDest false x.2 == port) &&
    (vid == 0 || eVid false x.2 == vid)).map (·.1)

/-- Delete those that lie in unlocked banks; answers how many (R492). -/
def flushOpen (s : State) (port vid : Nat) : State × Nat :=
  let l := (flushPlaces s port vid).filter fun p => !bankLocked s (bankOf p)
  (forEach l s fun p t => delEntry (match entryAt t p with
    | some e => endFreeze t (eVid false e) (eMac e)
    | none => t) p, l.length)

/-- Lock or unlock banks (R492): `old` is TBL_LOCK before. -/
def locksChanged (s : State) (old : Word) : State :=
  forEach (List.range 8) s fun b t =>
    if bankLocked t b && !bit old b then { t with tbl := { t.tbl with lockAt := AMap.set t.tbl.lockAt b t.elapsed } }
    else if !bankLocked t b && bit old b then { t with tbl := { t.tbl with lockAt := AMap.del t.tbl.lockAt b } }
    else t

/-- TBL_STATUS as read. -/
def tblStatusView (s : State) : Word :=
  let l := s.fld (tblB + 0x064) 7 0
  fieldW 15 8 l ||| bitW 1 (!s.flag (tblB + 0x054) 31 || decide (l ≠ 0)) ||| bitW 0 (decide (s.tbl.flushes ≠ []))

/-- TBL_L2_USED, L2_OVF_USED, ST_USED and ST_OVF_USED by index. -/
def tblUsedView (s : State) (k : Nat) : Word :=
  w32 (match k with
    | 0 => mainUsed s false
    | 1 => ovfUsed s false
    | 2 => mainUsed s true
    | _ => ovfUsed s true)

/-- Do both hashed tables hold no entry and no HELD slot (R468)? -/
def tablesEmpty (s : State) : Bool := s.tbl.l2 == [] && s.tbl.st == [] && s.tbl.held == []

/-- An INSERT of an entry with VALID 1 that has passed its checks (R466, R486, R488): answers the state, the code, whether the key was
present, and the index. -/
def insertEntry (s : State) (st : Bool) (e : List Word) : State × Nat × Bool × Nat :=
  let k := keyOf st e
  let aged := withAge st e (tblNow s)
  let s0 := if st then s else endFreeze s (eVid false e) (eMac e)
  let idx (p : Nat) : Nat := if st then p - stBase else p
  match findKey s st k with
  | some p => (putEntry s0 p aged, 0, true, idx p)
  | none =>
    match newPlace s st k with
    | some p => (putEntry s0 p aged, 0, false, idx p)
    | none => (tblEvent s (if st then 2 else 1), 0x07, false, 0)

/-- A DELETE of a key (R486): answers the state, whether the key was present, and the index. -/
def deleteEntry (s : State) (st : Bool) (k : List Word) : State × Bool × Nat :=
  match findKey s st k with
  | some p => (delEntry (if st then s else endFreeze s (eVid false k) (eMac k)) p, true, if st then p - stBase else p)
  | none => (s, false, 0)

/-- Hold a slot for an action of the cue in slot `c` (R494): chosen under R466 among the free places, whether or not the key is present.
Answers none where no slot can be held. -/
def holdSlot (s : State) (st : Bool) (k : List Word) (c : Nat) : Option (State × Nat) :=
  (newPlace s st k).map fun p => ({ s with tbl := { s.tbl with held := AMap.set s.tbl.held p c } }, p)

/-- The slots held for a cue are released (R495). -/
def releaseHeld (s : State) (c : Nat) : State := { s with tbl := { s.tbl with held := AMap.keep s.tbl.held fun _ x => x != c } }

/-- The index range of a table (R450). -/
def tableRange (t : Nat) : Nat :=
  match t with
  | 0 => l2Main + l2Ovf
  | 1 => stMain + stOvf
  | _ => 65536

/-- The dwords of one entry. -/
def entryDws (t : Nat) : Nat :=
  match t with
  | 0 => 4
  | 1 => 16
  | _ => 8

/-- The place of an index of a hashed table. -/
def placeOf (t i : Nat) : Nat := if t = 1 then stBase + i else i

/-- An entry as a READ copies it (R486): zeros where none is VALID, HELD 1 where the slot is held. -/
def readEntry (s : State) (t i : Nat) : List Word :=
  let z := List.replicate (entryDws t) (0 : Word)
  if t = 2 then (groupAt s i).getD z
  else if placeHeld s (placeOf t i) then setDw z (vdw (t == 1) + 2) (bitW 14 true)
  else (entryAt s (placeOf t i)).getD z

/-- The checks of a WRITE of `es` from index `i` of table `t` (R489): the first failing entry's code, 0 when all pass. -/
def checkWrite (s : State) (t i : Nat) (es : List (List Word)) : Nat :=
  let st := t == 1
  let valid (e : List Word) : Bool := bit (dwAt e (vdw st)) 31
  let n := es.length
  let outside (k : List Word) : Bool := match findKey s st k with
    | some p => decide (p < placeOf t i) || decide (placeOf t i + n ≤ p)
    | none => false
  let one (j : Nat) (e : List Word) : Nat :=
    let c := checkEntry t e
    if c ≠ 0 then c
    else if t = 2 then 0
    else
      let p := placeOf t (i + j)
      let b := bucketOf s st (keyOf st e)
      if valid e ∧ p < ovfBase st ∧ (p < b ∨ b + 4 ≤ p) then 0x06
      else if valid e ∧ (outside (keyOf st e) ∨ ((es.take j).any fun x => valid x && keyOf st x == keyOf st e) = true) then 0x01
      else if placeHeld s p then 0x0B
      else 0
  ((List.range n).map fun j => one j (es.getD j [])).find? (· ≠ 0) |>.getD 0

/-- One commit of a WRITE (R490): the AGE carried is kept; a frozen address's freeze ends (R477). -/
def writeEntry (s : State) (t i : Nat) (e : List Word) : State :=
  if t = 2 then putGroup s i e
  else
    let p := placeOf t i
    let s1 := if t = 0 then
        let s2 := match entryAt s p with
          | some x => endFreeze s (eVid false x) (eMac x)
          | none => s
        endFreeze s2 (eVid false e) (eMac e)
      else s
    putEntry s1 p e

/-- The banks that an index range of table `t` touches (R491). -/
def banksTouched (t i n : Nat) : List Nat :=
  if n = 0 then []
  else
    let a := placeOf t i
    let z := placeOf t (i + n - 1)
    (List.range 8).filter fun b =>
      if b = 7 then decide (ovfBase (t == 1) ≤ z)
      else if t = 1 then decide (4 ≤ b) && decide (b ≤ 5) && decide (a < stBase + 131072 * (b - 3)) && decide (stBase + 131072 * (b - 4) ≤ z)
      else decide (b ≤ 3) && decide (a < 131072 * (b + 1)) && decide (131072 * b ≤ z)

end Sys2Proof.Machine
end

