-- ==== Sys2Proof/Machine/SwOps.lean ====
section
/-!
DEFINITION. SwOps.lean: the switch core of 08_switch_core.md: frame headers, classification, lookup, the way to the crossbar, admission, the
egress rewrites, gates, shapers and the choice of the next frame, and what happens when a port goes down.
-/
namespace Sys2Proof.Machine

/-- `n` bytes from offset `o`, in network order. -/
def getNet (bs : List Byte) (o n : Nat) : Nat := natOfNet ((bs.drop o).take n)

/-- Replace `n` bytes from offset `o`. -/
def putNet (bs : List Byte) (o n x : Nat) : List Byte := bs.take o ++ netOfNat n x ++ bs.drop (o + n)

/-- Is this an EtherType of a VLAN tag? R457 names 0x8100; 0x88A8 is PRESUMED (IEEE 802.1Q, log entry 17). -/
def isTpid (x : Nat) : Bool := x == 0x8100 || x == 0x88A8

/-- Where the length/type field after the last VLAN tag stands. -/
def typeOff (bs : List Byte) (o : Nat) : Nat → Nat
  | 0 => o
  | n + 1 => if isTpid (getNet bs o 2) then typeOff bs (o + 4) n else o

/-- What the switch core reads of a frame's headers. -/
structure Hdr where
  da : Nat
  sa : Nat
  tci : Option Nat
  toff : Nat
  ety : Nat
  v4 : Bool
  v6 : Bool
  dst : Nat
  src : Nat
  dscp : Nat
  udp : Option Nat
  l4 : Nat
  deriving DecidableEq, Repr

/-- Read a frame's headers. -/
def parse (bs : List Byte) : Hdr :=
  let o := typeOff bs 12 bs.length
  let ety := getNet bs o 2
  let ip := o + 2
  let v4 := ety == 0x0800 && getNet bs ip 1 / 16 == 4
  let v6 := ety == 0x86DD && getNet bs ip 1 / 16 == 6
  let l4 := if v4 then ip + 4 * (getNet bs ip 1 % 16) else ip + 40
  let proto := if v4 then getNet bs (ip + 9) 1 else getNet bs (ip + 6) 1
  { da := getNet bs 0 6, sa := getNet bs 6 6, tci := if isTpid (getNet bs 12 2) then some (getNet bs 14 2) else none, toff := o, ety := ety,
    v4 := v4, v6 := v6,
    dst := if v4 then getNet bs (ip + 16) 4 else if v6 then getNet bs (ip + 24) 16 else 0,
    src := if v4 then getNet bs (ip + 12) 4 else if v6 then getNet bs (ip + 8) 16 else 0,
    dscp := if v4 then getNet bs (ip + 1) 1 / 4 else if v6 then getNet bs ip 2 / 64 % 64 else 0,
    udp := if (v4 || v6) && proto == 17 then some (getNet bs (l4 + 2) 2) else none,
    l4 := l4 }

/-- The CRC that a frame's FCS should hold, as four bytes (R24). -/
def fcsOf (body : List Byte) : List Byte := bytesOfNat 4 (crc32 body)

/-- Does the FCS of a frame check (R24)? -/
def fcsGood (bs : List Byte) : Bool := fcsOf (bs.take (bs.length - 4)) == bs.drop (bs.length - 4)

/-- The FCS of a frame that leaves with body `sent`, formed from the received FCS and the difference of the bytes (R25, R433). -/
def fcsUpdate (rx sent : List Byte) : List Byte :=
  let body := rx.take (rx.length - 4)
  bytesOfNat 4 (natOfBytes (rx.drop (rx.length - 4)) ^^^ crc32 body ^^^ crc32 sent)

/-- Where the PTP message of a frame starts, if it carries one (row 4 of R397). -/
def ptpOff (h : Hdr) : Option Nat :=
  if h.ety = 0x88F7 then some (h.toff + 2)
  else match h.udp with
    | some d => if d = 319 ∨ d = 320 then some (h.l4 + 8) else none
    | none => none

/-- The type of a frame's PTP message: 0 Sync, 1 Delay_Req, 2 Pdelay_Req, 3 Pdelay_Resp are event messages. -/
def ptpType (bs : List Byte) (h : Hdr) : Option Nat := (ptpOff h).map fun o => getNet bs o 1 % 16

/-- SUN_PTp_CFG.MODE of a network port. -/
def ptpMode (s : State) (p : Nat) : Nat := s.fld (sunB + 0x1000 + 0x10 * p) 5 4

/-- The class of a frame from network port `p` (R397), `sof` being the class in its SOF and `hit` the class of a stream entry. -/
def classify (s : State) (p : Nat) (h : Hdr) (sof : Nat) (hit : Option Nat) : Nat :=
  let cfg := s.rd (queSlot p)
  if portIs s p 1 || portIs s p 2 then sof
  else if ptpMode s p ≠ 0 ∧ (ptpOff h).isSome then 7
  else
    match hit with
    | some c => c
    | none =>
      if (h.v4 || h.v6) && bit cfg 3 then
        s.fld (queSlot p + 0x030 + 4 * (h.dscp / 10)) (3 * (h.dscp % 10) + 2) (3 * (h.dscp % 10))
      else
        match h.tci with
        | some t => if bit cfg 4 then s.fld (queSlot p + 0x01C) (3 * (t / 2 ^ 13) + 2) (3 * (t / 2 ^ 13)) else bits cfg 2 0
        | none => bits cfg 2 0

/-- Where a forwarding result sends a frame. -/
inductive Target where
  | port (p : Nat)
  | group (g : Nat)
  deriving DecidableEq, Repr

/-- A forwarding result (R454): where to, the VLAN action, the class of a stream hit, whether row 4 gave it, whether
a stream row did. -/
structure Fwd where
  toward : Target
  vact : Nat := 0
  newVid : Nat := 0
  cls : Option Nat := none
  miss : Bool := false
  st : Bool := false
  deriving DecidableEq, Repr

/-- The drop port. -/
def dropPort : Nat := 255

/-- A lookup of a key in Pavilion `r`'s replica. -/
def lookKey (s : State) (r : Nat) (st : Bool) (k : List Word) : State × Option (List Word) :=
  match findKey s st k with
  | none => (s, none)
  | some pl =>
    if unsound s r pl then (repairFound s r pl, none) else (hitEntry s r pl, entryAt s pl)

/-- The forwarding result of a hit entry. -/
def fwdOf (st : Bool) (e : List Word) : Fwd :=
  { toward := if eDtype st e then .group (eDest st e) else .port (eDest st e), vact := eVact st e, newVid := eNewVid st e, st := st,
    cls := if st && bit (dwAt e 10) 3 then some (bits (dwAt e 10) 2 0) else none }

/-- Resolve a frame in Pavilion `r` (R454); `flood` is where row 4 sends it. -/
def resolveFrame (s : State) (r vid : Nat) (h : Hdr) (streams : Bool) (flood : Target) : State × Fwd :=
  let multi := (h.v4 && h.dst / 2 ^ 28 == 0xE) || (h.v6 && h.dst / 2 ^ 120 == 0xFF)
  let try1 : State × Option (List Word) :=
    if streams && multi then
      let a := lookKey s r true (stKey h.v6 false vid h.dst h.src)
      match a.2 with
      | some e => (a.1, some e)
      | none => lookKey a.1 r true (stKey h.v6 true vid h.dst 0)
    else (s, none)
  match try1.2 with
  | some e => (try1.1, fwdOf true e)
  | none =>
    let b := lookKey try1.1 r false (l2Key vid h.da)
    match b.2 with
    | some e => (b.1, fwdOf false e)
    | none => (b.1, { toward := flood, miss := true })

/-- The VID of a frame (R453). -/
def frameVid (h : Hdr) (pvid : Nat) : Nat :=
  match h.tci with
  | some t => if t % 4096 = 0 then pvid else t % 4096
  | none => pvid

/-- Is `p` the first lane of a configured port (R13, R342)? -/
def configured (s : State) (p : Nat) : Bool := s.flag (macB p + 0x40) 0

/-- The ports that a group sends copies to (R460), host and compute ports included. -/
def groupPorts (e : List Word) : List Nat :=
  ((List.range 128).filter fun p => addrOf e 0 / 2 ^ p % 2 == 1) ++ (if bit (dwAt e 4) 0 then [128] else []) ++
    ((List.range 8).filter fun i => bit (dwAt e 4) (1 + i)).map (129 + ·)

/-- The attachment of the crossbar that a port uses: its Pavilion, or 8 for the Gatehouse. -/
def attachOf (p : Nat) : Nat := if p < 128 then p / 16 else if p = 128 then 8 else p - 129

/-- Count a frame to the drop port in the ingress Pavilion (R14, R402). A frame of the host port has none. -/
def countDrop (s : State) (ing : Nat) : State := if ing = 128 then s else s.count (queB (attachOf ing) + 0x050)

/-- The class level of the crossbar (R400). -/
def levelOf (c : Nat) : Nat := if 6 ≤ c then 0 else if 4 ≤ c then 1 else 2

/-- The nominal rate of a port, or its word capacity for a trunk or local port, in bit/s (R342, R339, R429). -/
def portBps (s : State) (p : Nat) : Nat :=
  let w := portWidth s p
  let r := portRate s p
  if s.fld (macB p + 0x40) 17 16 = 0 then
    match r with
    | 1 => 1000000000
    | 2 => 10000000000
    | 3 => 25000000000 * w
    | 5 => 50000000000 * w
    | 6 => 100000000000 * w
    | _ => 0
  else 61 * 64 * w * laneNum r * 1000000000 / (sbBits r * 32)

/-- The transmission time of a frame, in 2^-40 ns (R422). -/
def txTime (s : State) (p len : Nat) : Nat :=
  if 128 ≤ p then 0
  else if s.fld (macB p + 0x40) 17 16 = 0 then
    (if portBps s p = 0 then 0 else (len + 20) * 8 * 1000000000 * tuPerNs / portBps s p)
  else
    let r := portRate s p
    if laneNum r = 0 then 0 else ((len + 7) / 8 + 2) * sbBits r * 32 * tuPerNs / (laneNum r * (61 * portWidth s p - 12))

/-- Is a network port up (MAC_STATUS.UP)? -/
def portUp (s : State) (p : Nat) : Bool := s.flag (macB p + 0x40) 0 && s.flag (macB p + 0x44) 0

/-- The scheduler record of a port. -/
def portSw (s : State) (p : Nat) : PortSw := AMap.getD s.sw.ports p {}
/-- Replace it. -/
def setPortSw (s : State) (p : Nat) (x : PortSw) : State := { s with sw := { s.sw with ports := AMap.put s.sw.ports p x {} } }
/-- A queue, oldest copy first. -/
def queueOf (s : State) (p t : Nat) : List Copy := AMap.getD s.sw.queues (8 * p + t) []

/-- The pages a frame occupies (R403). -/
def pagesOf (f : Frame) : Nat := (f.bytes.length + 255) / 256

/-- A queue's depth in pages. -/
def depthOf (s : State) (p t : Nat) : Nat := (queueOf s p t).foldl (fun a c => a + pagesOf c.f) 0

/-- PLC_TIER_CFG.ORG_UP and ORG_DOWN, pages. -/
def orgUp (s : State) : Nat := s.fld (plcB + 0x058) 31 16
/-- See `orgUp`. -/
def orgDown (s : State) : Nat := s.fld (plcB + 0x058) 15 0

/-- The placement engine notes since when a best-effort queue has stood above ORG_UP, and since when below ORG_DOWN (R598). -/
def noteDepth (s : State) (p t : Nat) : State :=
  if 4 ≤ t ∨ p = 128 then s
  else
    let k := 8 * p + t
    let d := depthOf s p t
    let up := if orgUp s < d then (if AMap.has s.plc.above k then s.plc.above else AMap.set s.plc.above k s.elapsed) else AMap.del s.plc.above k
    let dn := if d < orgDown s then (if AMap.has s.plc.below k then s.plc.below else AMap.set s.plc.below k s.elapsed) else AMap.del s.plc.below k
    { s with plc := { s.plc with above := up, below := dn } }

/-- Replace a queue. -/
def setQueue (s : State) (p t : Nat) (l : List Copy) : State :=
  noteDepth { s with sw := { s.sw with queues := AMap.put s.sw.queues (8 * p + t) l [] } } p t

/-- QUE_Pqt_STAT.MOVING and TIER. -/
def queMoving (s : State) (p t : Nat) : Bool := s.flag (queAdm p t + 0x0C) 31
/-- See `queMoving`. -/
def queTier (s : State) (p t : Nat) : Bool := s.flag (queAdm p t + 0x0C) 30
/-- The tier that takes new admissions (R413). -/
def newTier (s : State) (p t : Nat) : Bool := if queMoving s p t then !queTier s p t else queTier s p t

/-- The ADM register of a queue; the host port's stand in the Gatehouse (R637). -/
def admReg (p t : Nat) : Nat := if p = 128 then hifB + 0x104 + 0x10 * t else queAdm p t

/-- The sum of MIN of a Pavilion, or of the Gatehouse as 8 (R406). -/
def minSum (s : State) (r : Nat) : Nat :=
  if r = 8 then (List.range 8).foldl (fun a t => a + s.fld (admReg 128 t) 15 0) 0
  else (List.range 17).foldl (fun a q => (List.range 8).foldl (fun b t => b + s.fld (queB r + 0x1080 + 0x400 * q + 0x10 * t) 15 0) a) 0

/-- The shared pages in use. -/
def sharedUsed (s : State) (r : Nat) : Nat := s.sw.shared.foldl (fun a e => if e.1 % 16 = r then a + e.2 else a) 0

/-- Free shared pages (R405, R637). -/
def sharedFree (s : State) (r : Nat) : Nat := (if r = 8 then 8192 else 65536) - minSum s r - sharedUsed s r

/-- ALPHA times a number of pages. -/
def alphaTimes (code x : Nat) : Nat := if code ≤ 6 then x / 2 ^ (6 - code) else x * 2 ^ (code - 6)

/-- Does R405 admit `n` pages to a queue of depth `d`? Answers none where it does not; else whether they come from the shared pages. -/
def admitRule (s : State) (p t d n : Nat) : Option Bool :=
  let a := s.rd (admReg p t)
  let free := sharedFree s (attachOf p)
  if d + n ≤ bits a 15 0 then some false
  else if n ≤ free ∧ d + n ≤ alphaTimes (bits a 19 16) free then some true
  else none

/-- The Orangery meter's tokens now, in 2^-40 byte (R411): 4.0 Tbit/s is 500 bytes a ns. -/
def meterNow (s : State) : Nat := min (524288 * 2 ^ 40) (s.sw.meter + (s.elapsed - s.sw.meterAt) * 500)

/-- QUE_EVENT bit `b` of Pavilion `r` drives its queue source (R670). -/
def queEvent (s : State) (r b : Nat) : State := pavEvent s r 17 (queB r + 0x044) b

/-- Count a copy in the drop counter at offset `o` of its queue's counters; the host port has DROP_FULL and DROP_DOWN only. -/
def countQueue (s : State) (p t o : Nat) : State :=
  if p = 128 then
    (if o = 0x08 then s.count (hifB + 0x188 + 0x10 * t) else if o = 0x0C then s.count (hifB + 0x18C + 0x10 * t)
     else if o = 0 then s.count (hifB + 0x180 + 0x10 * t) else s)
  else s.count (queCtr p t + o)

/-- A stamped transmit whose copy is dropped completes with E_ABORTED (R630). -/
def abortStamped (s : State) (x : Option (Nat × Nat)) : State :=
  match x with
  | some (ring, desc) => complete s ring { status := 0x0A, desc := desc, info := 0 }
  | none => s

/-- A copy is dropped at admission: its class counter, its port's multicast counter (R434), the performance event, its completion. -/
def dropCopy (s : State) (x : XFrame) (p o : Nat) : State :=
  let s1 := countQueue s p x.f.cls o
  let s2 := if x.mc && p != 128 && (o == 0x08 || o == 0x0C || o == 0x10) then s1.count (quePortCtr p) else s1
  let s3 := if p = 128 then s2 else perfCount s2 (some (attachOf p)) { ev := 0x03, cls := some x.f.cls } 1
  let s4 := if o = 0x10 then queEvent s3 (attachOf p) 3 else s3
  abortStamped s4 x.done

/-- The gates of a port: CYCLE, the entries' gates and durations, in 2^-40 ns (R420). -/
def cycleTu (s : State) (p : Nat) : Nat := (s.rd (queSlot p + 0x008)).toNat * tuPerNs + s.fld (queSlot p + 0x00C) 15 0 * 2 ^ 24
/-- The register of gate entry `e`. -/
def gateReg (p e : Nat) : Nat := queB (portPav p) + 0x8000 + 0x400 * portSlot p + 4 * e
/-- See `cycleTu`. -/
def gateList (s : State) (p : Nat) : List (Nat × Nat) :=
  let n := s.fld (queSlot p + 0x014) 8 0
  let head := (List.range (n - 1)).map fun e => (s.fld (gateReg p e) 30 24, s.fld (gateReg p e) 23 0 * tuPerNs)
  let used := head.foldl (fun a e => a + e.2) 0
  head ++ [(s.fld (gateReg p (n - 1)) 30 24, cycleTu s p - used)]

/-- The entry in force `pos` after the cycle started, and how long it has lasted. -/
def entryAtPos : List (Nat × Nat) → Nat → Nat → Nat × Nat
  | [], _, i => (i - 1, 0)
  | [e], pos, i => (i, min pos e.2)
  | e :: t, pos, i => if pos < e.2 then (i, pos) else entryAtPos t (pos - e.2) (i + 1)

/-- Where the cycle stands in node time (R420, R424). -/
def gatePos (s : State) (p : Nat) : Nat :=
  let c := cycleTu s p
  if c = 0 then 0
  else (((nodeTime s : Int) - ((s.rd (queSlot p + 0x010)).toNat * tuPerNs : Nat)) % (c : Int)).toNat

/-- Is the port's scheduler ACTIVE, and do its gates act yet (R425)? -/
def schedActive (s : State) (p : Nat) : Bool := decide (p < 128) && s.flag (queSlot p + 0x004) 8
/-- See `schedActive`. -/
def gatesAct (s : State) (p : Nat) : Bool := schedActive s p && decide ((portSw s p).gateFrom ≤ nodeTime s)

/-- The entry in force and how long it still lasts (R420, R527). -/
def gateNow (s : State) (p : Nat) : Nat × Nat :=
  let l := gateList s p
  let u := (portSw s p).lastUntil
  if nodeTime s < u then (l.length - 1, u - nodeTime s)
  else
    let a := entryAtPos l (gatePos s p) 0
    (a.1, (l.getD a.1 (0, 0)).2 - a.2)

/-- How long the window of class `t` stays open (R421, R422): none without end. Before the gates of an ACTIVE scheduler take effect every gate is open,
and the window goes on into the cycle that they start with (R425). -/
def windowLeft (s : State) (p t : Nat) : Option Nat :=
  if !schedActive s p ∨ t = 7 then none
  else
    let l := gateList s p
    let at_ := gateNow s p
    let opens (e : Nat × Nat) : Bool := e.1 / 2 ^ t % 2 == 1
    if l.all opens then none
    else if !gatesAct s p then some ((portSw s p).gateFrom - nodeTime s + (l.takeWhile opens).foldl (fun a e => a + e.2) 0)
    else
      let cur := l.getD at_.1 (0, 0)
      if !opens cur then some 0
      else some (at_.2 + (((l.drop (at_.1 + 1)) ++ l.take at_.1).takeWhile opens).foldl (fun a e => a + e.2) 0)

/-- The longest window of a class in the cycle (R423); none without end. -/
def longestWindow (s : State) (p t : Nat) : Option Nat :=
  if !gatesAct s p ∨ t = 7 then none
  else
    let l := gateList s p
    let opens (e : Nat × Nat) : Bool := e.1 / 2 ^ t % 2 == 1
    if l.all opens then none
    else some ((l ++ l).foldl (fun (a : Nat × Nat) e => if opens e then (a.1 + e.2, max a.2 (a.1 + e.2)) else (0, a.2)) (0, 0)).2

/-- Does a frame's transmission end within its class's present window (R422)? -/
def fitsWindow (s : State) (p t len : Nat) : Bool :=
  match windowLeft s p t with
  | none => true
  | some w => decide (txTime s p len ≤ w) && decide (0 < w)

/-- MAC_MAXLEN of a port. -/
def maxLen (s : State) (p : Nat) : Nat := (s.rd (macB p + 0x4C)).toNat

/-- May a copy be sent cut-through (R429)? -/
def cutOk (s : State) (ing p cls : Nat) : Bool :=
  decide (ing < 128) && decide (p < 128) && !queTier s p cls && !queMoving s p cls && decide (portBps s p ≤ portBps s ing) &&
    s.flag (queSlot p) 6 && queueOf s p cls == [] && (portSw s p).tx.isNone && (portRec s p).frames == [] && decide (maxLen s ing ≤ maxLen s p) &&
    fitsWindow s p cls (maxLen s p)

/-- QUE_POOL's event: free shared pages fell below 4,096. -/
def judgePool (b s : State) (r : Nat) : State :=
  if r = 8 then s else if 4096 ≤ sharedFree b r ∧ sharedFree s r < 4096 then queEvent s r 4 else s

/-- A frame takes its pages from the shared pool of an attachment, once (R404). -/
def takeShared (s : State) (f : Frame) (r : Nat) : State :=
  judgePool s { s with sw := { s.sw with shared := AMap.set s.sw.shared (f.id * 16 + r) (pagesOf f) } } r

/-- A copy joins its queue (R396, R405). -/
def enqueue (s : State) (x : XFrame) (p : Nat) (tier sh : Bool) : State :=
  let t := x.f.cls
  let c : Copy :=
    { f := x.f, port := p, tier := tier, mc := x.mc, ct := x.ct && !tier && cutOk s x.f.ing p t, since := s.elapsed, done := x.done }
  let s1 := countQueue (setQueue s p t (queueOf s p t ++ [c])) p t 0
  let s2 := if sh then takeShared s1 x.f (attachOf p) else s1
  if p = 128 then s2
  else
    let len := x.f.bytes.length
    let r := some (attachOf p)
    perfCount (perfCount s2 r { ev := 0x01, cls := some t } 1) r { ev := 0x02, cls := some t } len

/-- One copy is admitted or dropped at its port (R405 to R412, R436 to R440, R637, R639). One that the Orangery has no room for (R4) counts as dropped
in the tier (DESIGN CHOICE, log entry 178). -/
def admitCopy (s : State) (x : XFrame) (p : Nat) : State :=
  let t := x.f.cls
  let n := pagesOf x.f
  if p = 128 then
    if hostPortDown s then dropCopy s x p 0x0C
    else
      match admitRule s p t (depthOf s p t) n with
      | some sh => enqueue s x p false sh
      | none => dropCopy s x p 0x08
  else if p < 128 ∧ (!portUp s p ∨ (portSw s p).flushing.isSome) then dropCopy s x p 0x0C
  else if p < 128 ∧ maxLen s p < x.f.bytes.length then dropCopy s x p 0x1C
  else if newTier s p t then
    if inBypass s then dropCopy s x p 0x10
    else
      let sram := ((queueOf s p t).filter fun c => !c.tier).foldl (fun a c => a + pagesOf c.f) 0
      let len := x.f.bytes.length
      if s.fld (queAdm p t) 31 20 * 4096 < depthOf s p t + n ∨
          (s.fld (queAdm p t) 15 0 < sram + n ∧ sharedFree s (attachOf p) < n) then dropCopy s x p 0x08
      else if meterNow s < len * 2 ^ 40 ∨ orgSize < orgUsed s + len then dropCopy s x p 0x10
      else
        let s1 := { s with sw := { s.sw with meter := meterNow s - len * 2 ^ 40, meterAt := s.elapsed } }
        let s2 := enqueue s1 x p true false
        perfCount (perfCount s2 none { ev := 0x03, cls := some t } len) (some (attachOf p)) { ev := 0x08, cls := some t } len
  else
    match admitRule s p t (depthOf s p t) n with
    | some sh => enqueue s x p false sh
    | none => dropCopy s x p 0x08

/-- Every copy of a frame that has reached its egress attachment is admitted or dropped on its own (R434). -/
def admitAll (s : State) (x : XFrame) : State := forEach x.ports s fun p t => admitCopy t x p

/-- The parse FIFO of an ingress port, an egress attachment and a class level (R399). -/
def fifoKey (ing e l : Nat) : Nat := (ing * 9 + e) * 3 + l
/-- Its frames, oldest first. -/
def fifoOf (s : State) (k : Nat) : List XFrame := AMap.getD s.sw.fifos k []

/-- A frame joins its parse FIFO. -/
def pushFifo (s : State) (e : Nat) (x : XFrame) : State :=
  let k := fifoKey x.f.ing e (levelOf x.f.cls)
  let l := fifoOf s k
  { s with sw := { s.sw with
    fifos := AMap.set s.sw.fifos k (l ++ [x]), heads := if l = [] then AMap.set s.sw.heads k s.elapsed else s.sw.heads } }

/-- The head of a parse FIFO leaves it. -/
def popFifo (s : State) (k : Nat) : State :=
  let l := (fifoOf s k).tail
  { s with sw := { s.sw with
    fifos := AMap.put s.sw.fifos k l [], heads := if l = [] then AMap.del s.sw.heads k else AMap.set s.sw.heads k s.elapsed } }

/-- A frame leaves its ingress for the ports listed (R15, R19, R399): within its own Pavilion it is admitted at once. -/
def sendTo (s : State) (f : Frame) (ports : List Nat) (mc ct : Bool) (done : Option (Nat × Nat)) : State :=
  forEach (List.range 9) s fun e t =>
    let ps := ports.filter fun p => attachOf p = e
    if ps = [] then t
    else
      let x : XFrame := { f := f, ports := ps, mc := mc, ct := ct, done := done }
      if e = attachOf f.ing then admitAll t x else pushFifo t e x

/-- The ports of a forwarding result, and whether it is a group (R455, R456); none for the drop port. -/
def targetPorts (s : State) (ing : Nat) (toward : Target) : Option (List Nat × Bool) :=
  match toward with
  | .port p => if p = dropPort ∨ p = ing then none else some ([p], false)
  | .group g =>
    match groupAt s g with
    | some e =>
      let l := (groupPorts e).filter (· ≠ ing)
      if l = [] then none else some (l, true)
    | none => none

/-- Does a port number name no configured port, or a port of an isolated Pavilion (R402, R778)? -/
def noPort (s : State) (p : Nat) : Bool := (decide (p < 128) && !configured s p) || (p != 128 && s.pavIsolated (attachOf p))

/-- Is the group that a result names unsound in the replica of the Pavilion that looks it up (R27)? The host's frames are looked up in Pavilion 0. -/
def groupBad (s : State) (ing : Nat) (toward : Target) : Option Nat :=
  match toward with
  | .group g => if unsound s (attachOf ing % 8) (groupPlace g) then some g else none
  | .port _ => none

/-- Forward a frame (R402, R455, R456, R778): copies to numbers that name no configured port are counted in QUE_NOPORT. -/
def forward (s0 : State) (f : Frame) (toward : Target) (ct : Bool) (done : Option (Nat × Nat)) : State :=
  let bad := groupBad s0 f.ing toward
  let s := match bad with
    | some g => repairFound s0 (attachOf f.ing % 8) (groupPlace g)
    | none => s0
  match if bad.isSome then none else targetPorts s f.ing toward with
  | none => abortStamped (countDrop s f.ing) done
  | some (l, mc) =>
    let gone := l.filter (noPort s)
    let s1 := if f.ing = 128 then s else s.count (queB (attachOf f.ing) + 0x054) gone.length
    let s2 := if gone = [] then s1 else abortStamped s1 done
    let grp := match toward with
      | .group g => some g
      | .port _ => none
    sendTo s2 { f with grp := grp } (l.filter fun p => !noPort s p) mc ct done

/-- The 16-bit one's-complement update of a UDP checksum for one changed word (R204). -/
def csumStep (c old new : Nat) : Nat :=
  let x := (0xFFFF - c) + (0xFFFF - old) + new
  let y := x % 2 ^ 16 + x / 2 ^ 16
  0xFFFF - (y % 2 ^ 16 + y / 2 ^ 16)

/-- Replace `n` bytes at offset `o` of a frame's PTP message and update a non-zero UDP checksum (R204). -/
def ptpPut (bs : List Byte) (h : Hdr) (o n x : Nat) : List Byte :=
  let new := putNet bs o n x
  if h.udp.isSome ∧ getNet bs (h.l4 + 6) 2 ≠ 0 then
    let c := (List.range (n / 2)).foldl (fun a i => csumStep a (getNet bs (o + 2 * i) 2) (getNet new (o + 2 * i) 2)) (getNet bs (h.l4 + 6) 2)
    putNet new (h.l4 + 6) 2 (if c = 0 then 0xFFFF else c)
  else new

/-- The mean path delay of a port's PTP instance, in 2^-16 ns. -/
def ptpDelay (s : State) (p : Nat) : Nat := s.fld (sunB + 0x100C + 0x10 * p) 31 16 * 65536

/-- The PTP changes of a frame that leaves by port `p` with egress time `t` of node time (R203 to R206). -/
def ptpRewrite (s : State) (p : Nat) (f : Frame) (bs : List Byte) (t : Nat) : List Byte :=
  let h := parse bs
  match ptpOff h, ptpType bs h with
  | some o, some ty =>
    let adj : Int := if p < 128 then egressAdj s p f.id else 0
    let corr := getNet bs (o + 8) 8
    match f.tc with
    | some q =>
      if ty ≤ 3 then
        let res := Int.fdiv (timeDiff t f.inNode + adj) (2 ^ 24)
        let peer := if s.flag (sunB + 0x1000 + 0x10 * q) 1 then ptpDelay s q else 0
        ptpPut bs h (o + 8) 8 (codeOf 64 ((corr : Int) + res + peer))
      else bs
    | none =>
      if ty = 0 ∧ p < 128 ∧ ptpMode s p = 1 ∧ s.flag (sunB + 0x1000 + 0x10 * p) 7 then
        let d := domOfCode (s.fld (sunB + 0x1000 + 0x10 * p) 3 2)
        let e := shiftTime (timeOf s d + (t - nodeTime s)) adj
        let b1 := ptpPut bs h (o + 34) 6 (e / tuPerSec % 2 ^ 48)
        let b2 := ptpPut b1 h (o + 40) 4 (e % tuPerSec / tuPerNs)
        ptpPut b2 h (o + 8) 8 (e % tuPerNs / 2 ^ 24)
      else bs
  | _, _ => bs

/-- QUE_Pq_EGR_PCP of a class; for a port without that register, its reset map. -/
def egrPcp (s : State) (p t : Nat) : Nat :=
  if p = 128 then bits (0x00FAC688 : Word) (3 * t + 2) (3 * t) else s.fld (queSlot p + 0x020) (3 * t + 2) (3 * t)

/-- The VLAN changes of a frame that leaves by port `p` (R457, the PCP rewrite). -/
def vlanRewrite (s : State) (p : Nat) (f : Frame) (bs : List Byte) : List Byte :=
  let tagged := isTpid (getNet bs 12 2)
  let b1 :=
    match f.vact with
    | 1 => if tagged then bs.take 12 ++ bs.drop 16 else bs
    | 2 =>
      if tagged then putNet bs 14 2 (getNet bs 14 2 / 4096 * 4096 + f.newVid)
      else bs.take 12 ++ netOfNat 2 0x8100 ++ netOfNat 2 (egrPcp s p f.cls * 2 ^ 13 + f.newVid) ++ bs.drop 12
    | _ => bs
  if p < 137 ∧ p ≠ 128 ∧ s.flag (queSlot p) 5 ∧ isTpid (getNet b1 12 2) then
    putNet b1 14 2 (egrPcp s p f.cls * 2 ^ 13 + getNet b1 14 2 % 2 ^ 13)
  else b1

/-- The bytes of a copy that leaves by port `p` at node time `t`, FCS included (R25, R433). -/
def egressBytes (s : State) (p : Nat) (f : Frame) (t : Nat) : List Byte :=
  let body := f.bytes.take (f.bytes.length - 4)
  let b := ptpRewrite s p f (vlanRewrite s p f body) t
  if b = body then f.bytes else b ++ fcsUpdate f.bytes b

/-- A copy has left or is lost: its pages are freed once no copy of its frame is left at the attachment (R404). -/
def releaseCopy (s : State) (c : Copy) : State :=
  let r := attachOf c.port
  let ports := if r = 8 then [128] else (List.range 16).map (16 * r + ·) ++ [129 + r]
  let used := ports.any fun p =>
    ((portRec s p).frames.any fun x => x.c.f.id == c.f.id) || ((List.range 8).any fun t => (queueOf s p t).any fun x => x.f.id == c.f.id) || match (portSw s p).tx with
      | some x => x.c.f.id == c.f.id
      | none => false
  if used then s else { s with sw := { s.sw with shared := AMap.del s.sw.shared (c.f.id * 16 + r) } }

/-- A class's MAX_RATE shaper: its tokens now, in 2^-40 byte; MAX_RATE is in 100 Mbit/s, 0.0125 bytes a ns (R417). -/
def tokensNow (s : State) (p t : Nat) : Int :=
  let sh := s.rd (queAdm p t + 4)
  let depth : Int := (bits sh 23 16 * 1024 * 2 ^ 40 : Nat)
  match AMap.get (portSw s p).tokens t with
  | none => depth
  | some (k, at_) => min depth (k + ((s.elapsed - at_) * bits sh 15 0 / 80 : Nat))

/-- Does the shaper hold a class back? It permits a frame while its tokens are positive (DESIGN CHOICE, log entry 18). -/
def shaperPermits (s : State) (p t : Nat) : Bool := decide (s.fld (queAdm p t + 4) 15 0 = 0) || decide (0 < tokensNow s p t)

/-- Does a credit-based shaper permit a class (R419)? -/
def cbsOn (s : State) (p t : Nat) : Bool := (t == 4 || t == 5) && schedActive s p && s.rd (queAdm p t + 8) != 0
/-- See `cbsOn`. -/
def creditOf (s : State) (p t : Nat) : Int := if t = 4 then (portSw s p).credit4 else (portSw s p).credit5

/-- The head of a queue, if its class is eligible (R415, R422). In bypass frames of the Orangery tier wait (R412). -/
def eligible (s : State) (p t : Nat) : Option Copy :=
  match queueOf s p t with
  | c :: _ =>
    if !(c.tier && inBypass s) && fitsWindow s p t c.f.bytes.length && (!cbsOn s p t || decide (0 ≤ creditOf s p t)) && (decide (4 ≤ t) || shaperPermits s p t) then some c
    else none
  | [] => none

/-- The best-effort choice (R416, R418): deficit weighted round robin from TC3 down, a quantum of WEIGHT x 256 bytes when a class's turn
comes. Answers the class and the record. -/
def pickDwrr (s : State) (p : Nat) : Nat → PortSw → Option (Nat × PortSw)
  | 0, _ => none
  | n + 1, x =>
    let t := x.turn
    let next := if t = 0 then 3 else t - 1
    match eligible s p t with
    | some c =>
      let d := AMap.getD x.deficit t 0 + (if x.given then 0 else s.fld (queAdm p t + 4) 31 24 * 256)
      if c.f.bytes.length ≤ d then some (t, { x with deficit := AMap.put x.deficit t (d - c.f.bytes.length) 0, given := true })
      else pickDwrr s p n { x with deficit := AMap.put x.deficit t d 0, turn := next, given := false }
    | none =>
      let kept := if queueOf s p t = [] then AMap.del x.deficit t else x.deficit
      pickDwrr s p n { x with deficit := kept, turn := next, given := false }

/-- The scheduler's choice (R415): the class, and the record after it. -/
def pickClass (s : State) (p : Nat) : Option (Nat × PortSw) :=
  match [7, 6, 5, 4].find? fun t => (eligible s p t).isSome with
  | some t => some (t, portSw s p)
  | none => if [3, 2, 1, 0].any fun t => (eligible s p t).isSome then pickDwrr s p 300 (portSw s p) else none

/-- Drop the heads of a queue that fit no window of their class (R423). -/
def dropGated (s : State) (p t : Nat) : Nat → State
  | 0 => s
  | n + 1 =>
    match queueOf s p t, longestWindow s p t with
    | c :: l, some w =>
      if w < txTime s p c.f.bytes.length then
        let s1 := releaseCopy (setQueue s p t l) c
        dropGated (abortStamped (queEvent (s1.count (queCtr p t + 0x14)) (attachOf p) 2) c.done) p t n
      else s
    | _, _ => s

/-- The egress stamp of frame `id` on network port `p`, whose stamp point passes `sub` after the last tick (R196 to R198), in the port's time. -/
def egressStamp (s : State) (p id sub : Nat) : Nat :=
  let d := domOfCode (s.fld (sunB + 0x1000 + 0x10 * p) 3 2)
  compactStamp s d (shiftTime (timeOf s d + placedSub s sub) (egressAdj s p id)) false 0

/-- Does a port send words on a line: a trunk or a local port (R365)? -/
def linePort (s : State) (p : Nat) : Bool := portIs s p 1 || portIs s p 2

/-- A copy has left network port `p` complete: counters, latency sample (R444, R752), completion with its stamp if the port has one (R196, R630). -/
def copySent (s : State) (p : Nat) (c : Copy) (bytes : List Byte) (stamp : Option Nat) (start : Nat) : State :=
  let t := c.f.cls
  let s2 := ((s.count (queCtr p t + 4)).count64 (macB p + 0x110) 1).count64 (macB p + 0x118) bytes.length
  let s3 := releaseCopy (s2.emit (.frame p t bytes false)) c
  let s4 := histSample s3 (some (attachOf p)) 1 (portSlot p) t (divRound ((start - c.since : Nat) : Int) tuPerNs)
  match c.done with
  | some (ring, desc) =>
    complete s4 ring { status := 0, desc := desc, info := w32 c.f.bytes.length, stamp := if portIs s p 2 then none else stamp }
  | none => s4

/-- The transmission time of the port's frame is over: an Ethernet port's frame has left. A frame of a trunk or local port leaves with the superblock
of its EOF. -/
def finishTx (s : State) (p : Nat) : State :=
  let x := portSw s p
  match x.tx with
  | none => s
  | some n =>
    let s1 := setPortSw s p { x with tx := none }
    if linePort s p then s1 else copySent s1 p n.c n.bytes (some n.stamp) n.start

/-- The words of a frame on a trunk or local port (R365): SOF, data words, then EOF, or ABORT for a frame that ends bad (R431). -/
def frameWords (cls : Nat) (bs : List Byte) (cut : Bool) : List LineWord :=
  let data := (List.range ((bs.length + 7) / 8)).map fun i => (⟨false, BitVec.ofNat 64 (natOfBytes ((bs.drop (8 * i)).take 8))⟩ : LineWord)
  let last := (bs.length + 7) % 8 + 1
  [⟨true, BitVec.ofNat 64 (0x1B + cls * 2 ^ 8)⟩] ++ data ++ [⟨true, if cut then 0x36 else BitVec.ofNat 64 (0x2D + last * 2 ^ 8)⟩]

/-- The words of a frame join the stream of a trunk or local port; an Ethernet port has none. -/
def streamFrame (s : State) (p cls : Nat) (bs : List Byte) (cut : Bool) : State :=
  if linePort s p then setPortRec s p { portRec s p with out := (portRec s p).out ++ frameWords cls bs cut } else s

/-- A copy that port `p` has taken joins its stream, if it has one. -/
def streamCopy (s : State) (p : Nat) (c : Copy) (bs : List Byte) : State :=
  if linePort s p then
    let x := portRec s p
    let ws := frameWords c.f.cls bs false
    let f : LineFrame := { c := c, sof := x.out.length, eof := x.out.length + ws.length, bytes := bs, start := s.elapsed }
    setPortRec s p { x with out := x.out ++ ws, frames := x.frames ++ [f] }
  else s

/-- A frame of `len` bytes of class `t` takes its tokens from a shaped best-effort class (R417). -/
def spendTokens (s : State) (p t len : Nat) (x : PortSw) : PortSw :=
  if t < 4 ∧ s.fld (queAdm p t + 4) 15 0 ≠ 0 then { x with tokens := AMap.set x.tokens t (tokensNow s p t - (len * 2 ^ 40 : Nat), s.elapsed) } else x

/-- A network port starts the head of queue (p, t). -/
def startTx (s : State) (p t : Nat) (x : PortSw) : State :=
  match queueOf s p t with
  | [] => s
  | c :: l =>
    let len := c.f.bytes.length
    let bytes := egressBytes s p c.f (nodeTime s)
    let n : TxNow :=
      { c := c, bytes := bytes, stamp := egressStamp s p c.f.id 0, start := s.elapsed, ends := s.elapsed + txTime s p bytes.length }
    let s1 := streamCopy (setPortSw (setQueue s p t l) p { spendTokens s p t len x with tx := some n }) p c bytes
    let s2 := if c.ct then perfCount (s1.count (quePortCtr p + 4)) (some (attachOf p)) { ev := 0x04, cls := some t } 1 else s1
    if c.tier then perfCount s2 none { ev := 0x04, cls := some t } len else s2

/-- The credits of a port's shapers move by one tick of `dt` (R419, IEEE 802.1Q): up while frames wait or credit is negative, down while the
class transmits, held while its gate is closed. -/
def tickCredit (s : State) (p t dt : Nat) (old : Int) : Int :=
  if !cbsOn s p t then 0
  else
    let slope : Int := (s.rd (queAdm p t + 8)).toNat
    let sending := match (portSw s p).tx with
      | some n => n.c.f.cls == t
      | none => false
    if windowLeft s p t = some 0 then old
    else if sending then old + (slope - (portBps s p / 1000 : Nat)) * dt
    else if queueOf s p t ≠ [] then old + slope * dt
    else if old < 0 then min 0 (old + slope * dt)
    else 0

/-- Switch-core cycles in a tick of `dt` that ends now: of 1.35 GHz, or in bypass of the clock that CORE_BYP selects (R35, R154, R155), at nominal
ratios (DESIGN CHOICE, log entry 149). -/
def coreCycles (s : State) (dt : Nat) : Nat :=
  let hz := if inBypass s then bypHz s (s.fld (clkB + 0x05C) 6 4) else 1350000000
  s.elapsed * hz / (10 ^ 9 * tuPerNs) - (s.elapsed - dt) * hz / (10 ^ 9 * tuPerNs)

/-- The switch core's cycles are counted while it is clocked (R698, R699; events 0x0D and, in a Pavilion that is not gated, 0x09 of R764). -/
def tickCycles (s : State) (dt : Nat) : State :=
  if s.alive ∧ s.pstate < 2 then
    forEach ((List.range 8).filter fun r => !s.pwr.gated.contains r) (perfCount s none { ev := 0x0D } (coreCycles s dt)) fun r t =>
      perfCount t (some r) { ev := 0x09 } (coreCycles s dt)
  else s

/-- QUE_Pq_GATE takes the gates now open and the entry in force (R420, R421). -/
def showGate (s : State) (p : Nat) : State :=
  if gatesAct s p then
    let l := gateList s p
    let at_ := gateNow s p
    s.wr (queSlot p + 0x018) (fieldW 30 24 (l.getD at_.1 (0, 0)).1 ||| fieldW 7 0 at_.1)
  else s.wr (queSlot p + 0x018) 0x7F000000

/-- A flush takes no longer than 10 us (R436). -/
def flushOver (s : State) (x : PortSw) : PortSw :=
  match x.flushing with
  | some t => if t + 10000 * tuPerNs ≤ s.elapsed then { x with flushing := none } else x
  | none => x

/-- One tick of the switch core: its cycles are counted, credits and gates move, flushes and transmissions end. Only ports with something to do are looked
at. -/
def tickPorts (s : State) (dt : Nat) : State :=
  forEach (AMap.keys s.sw.ports) (tickCycles s dt) fun p t0 =>
    let x := flushOver t0 (portSw t0 p)
    let tg := if (portSw t0 p).flushing = x.flushing then t0 else setPortSw t0 p x
    let t := if schedActive tg p then showGate tg p else tg
    let c4 := tickCredit t p 4 dt x.credit4
    let c5 := tickCredit t p 5 dt x.credit5
    let t1 := if c4 = x.credit4 ∧ c5 = x.credit5 then t else setPortSw t p { x with credit4 := c4, credit5 := c5 }
    match x.tx with
    | some n => if n.ends ≤ t.elapsed then finishTx t1 p else t1
    | none => t1

/-- A tier move of a queue completes (R413, R439). -/
def endMove (s : State) (p t : Nat) : State :=
  if queMoving s p t then s.wr (queAdm p t + 0x0C) (bitW 30 (!queTier s p t)) else s

/-- The frames of a trunk or local port that have not left complete are cut off with its stream (R437). -/
def cutLine (s : State) (p : Nat) : State :=
  let l := (portRec s p).frames
  if l = [] then s
  else
    forEach l (setPortRec s p { portRec s p with frames := [], out := [] }) fun f t =>
      abortStamped ((releaseCopy t f.c).count (queCtr p f.c.f.cls + 0x18)) f.c.done

/-- Every queue of a port is flushed in both tiers (R436, R437, R439). -/
def flushPort (s : State) (p : Nat) : State :=
  let x := portSw s p
  let s1 := match x.tx with
    | some n =>
      if n.ends ≤ s.elapsed then finishTx s p
      else
        let s0 := setPortSw s p { x with tx := none }
        if linePort s p then s0 else abortStamped ((releaseCopy s0 n.c).count (queCtr p n.c.f.cls + 0x18)) n.c.done
    | none => s
  let s1 := cutLine s1 p
  let s2 := forEach (List.range 8) s1 fun t y =>
    let l := queueOf y p t
    let y1 := (setQueue y p t []).count (queCtr p t + 0x18) l.length
    endMove (forEach l y1 fun c z => abortStamped (releaseCopy z c) c.done) p t
  setPortSw s2 p { portSw s2 p with flushing := some s.elapsed, deficit := [], credit4 := 0, credit5 := 0 }

/-- The MAC events of port `p` drive its lane source (R670). -/
def macEvent (s : State) (p b : Nat) : State := pavEvent s (p / 16) (p % 16) (macB p + 0x048) b

/-- A network port goes down (R436, R485): its queues are flushed, and its learned entries are to be deleted. -/
def portDown (s : State) (p : Nat) : State :=
  if !s.flag (macB p + 0x44) 0 then s
  else
    let s1 := macEvent ((s.setFlag (macB p + 0x44) 0 false).count (macB p + 0x160)) p 0
    let s2 := queEvent (flushPort s1 p) (p / 16) 1
    if s2.flag (lrnSlot p) 31 ∧ !s2.tbl.downs.contains p then { s2 with tbl := { s2.tbl with downs := s2.tbl.downs ++ [p] } } else s2

/-- A network port comes up. -/
def portComesUp (s : State) (p : Nat) : State :=
  if s.flag (macB p + 0x44) 0 then s else macEvent (s.setFlag (macB p + 0x44) 0 true) p 0

/-- QUE_POOL, QUE_RSV and QUE_Pqt_STAT as read. -/
def quePoolView (s : State) (r : Nat) : Word := w32 (sharedFree s r)
/-- See `quePoolView`. -/
def queRsvView (s : State) (r : Nat) : Word := w32 (minSum s r)
/-- See `quePoolView`. -/
def queStatView (s : State) (p t : Nat) : Word :=
  bitW 31 (queMoving s p t) ||| bitW 30 (queTier s p t) ||| fieldW 23 0 (min (depthOf s p t) (2 ^ 24 - 1))

/-- The lookup of a frame that entered at network or compute port `p`, with its counters (R453, R454). -/
def portLookup (s : State) (p : Nat) (h : Hdr) : State × Fwd :=
  let cfg := s.rd (lrnSlot p)
  let r := portPav p
  let flood : Target := if bit cfg 30 then .group (bits cfg 15 0) else .port dropPort
  let x := resolveFrame s r (frameVid h (bits cfg 27 16)) h (bit cfg 29) flood
  let s1 := perfCount x.1 (some r) { ev := 0x05 } 1
  let s2 := if x.2.miss then perfCount (s1.count (lrnSlot p + 0x14)) (some r) { ev := 0x06 } 1
    else if x.2.st then s1.count (lrnSlot p + 0x1C) else s1
  (s2, x.2)

/-- A frame of compute port 129 + `r` enters the switch core (R26, R569): padded, given its FCS, looked up and forwarded. -/
def computeFrame (s : State) (r cls : Nat) (body : List Byte) : State :=
  let padded := body ++ List.replicate (60 - body.length) 0
  let f : Frame := { id := s.sw.next, bytes := padded ++ fcsOf padded, ing := 129 + r, cls := cls, inNode := nodeTime s }
  let s1 := { s with sw := { s.sw with next := s.sw.next + 1 } }
  let x := portLookup s1 (129 + r) (parse padded)
  forward x.1 { f with vact := x.2.vact, newVid := x.2.newVid } x.2.toward false none

end Sys2Proof.Machine
end

