-- ==== Sys2Proof/Machine/CalOps.lean ====
section
/-!
DEFINITION. CalOps.lean: live calibration (05_interval_measurement_and_calibration.md R253 to R275): items, runs, targets, records. Items are
numbered by kind, as TDC_CAL_CMD numbers them: 0 offset and gain of a channel, 1 trunk fixed delays of a lane, 2 asymmetry of a port.
-/
namespace Sys2Proof.Machine

/-- The record of an item. -/
def calItem (s : State) (k i : Nat) : CalItem := AMap.getD s.tdc.items (256 * k + i) {}

/-- The channels that offset runs hold: the one under calibration and channel 15 (R254). -/
def calHolds (items : AMap CalItem) : List Nat :=
  let l := (items.filter fun e => decide (e.1 < 256) && e.2.run).map (·.1)
  if l = [] then [] else l ++ [15]

/-- Replace the record of an item. -/
def setCalItem (s : State) (k i : Nat) (x : CalItem) : State :=
  let items := AMap.put s.tdc.items (256 * k + i) x {}
  { s with tdc := { s.tdc with items := items, hold := calHolds items } }

/-- Runs of a kind in progress. -/
def calRuns (s : State) (k : Nat) : List Nat :=
  (s.tdc.items.filter fun e => decide (e.1 / 256 = k) && e.2.run).map (·.1 % 256)

/-- The configured port whose lanes include lane `l`. -/
def portOfLane (s : State) (l : Nat) : Option Nat :=
  ((List.range 8).map fun i => l - i).find? fun p => configured s p && decide (p ≤ l) && decide (l < p + portWidth s p)

/-- The lanes of a port. -/
def lanesOf (s : State) (p : Nat) : List Nat := (List.range (portWidth s p)).map (p + ·)

/-- The rate code a lane runs at. -/
def laneRate (s : State) (l : Nat) : Nat := s.fld (lanB l + 0x040) 15 8

/-- Is a lane up in trunk mode (R263, R279)? Its port is an enabled trunk, and both its clocks are locked (DEDUCED, log entry 24). -/
def trunkLaneUp (s : State) (l : Nat) : Bool :=
  match portOfLane s l with
  | some p => trunkRuns s p && s.flag (lanB l + 0x040) 2 && s.flag (lanB l + 0x040) 1
  | none => false

/-- The temperature of an item's sensor, 0.25 degC (R253). -/
def calTemp (s : State) (k i : Nat) : Int := sbits (s.rd (monB + 0x100 + 4 * (if k = 1 then i / 16 else 8))) 15 0

/-- The averaged mean path delay of a trunk port in domain 0, in 2^-40 ns (R212). -/
def pathDelay (s : State) (p : Nat) : Option Int :=
  match (trkTime s p 0).delays with
  | [] => none
  | l => some (meanOf l)

/-- Does calibration run: in P0, P1 and P2, with the clocks out of bypass (R270)? -/
def calLive (s : State) : Bool := s.alive && !inBypass s

/-- May a run of an item start: calibration runs, its kind is enabled, its source is available (R260, R268 to R270)? -/
def calMay (s : State) (k i : Nat) : Bool :=
  s.flag (tdcB + 0x050) k && calLive s &&
    (match k with
     | 0 => decide (i < 16) && !(tdcCh s i).retired
     | 1 => trunkLaneUp s i && decide ((calRuns s 1).length < 4)
     | _ => s.flag (tdcB + 0x3000 + 0x10 * i) 0 && trunkRuns s i && (pathDelay s i).isSome)

/-- An asymmetry run asks for a ranging of its link in the lowest free job slot (R257, R330). -/
def askRanging (s : State) (p : Nat) : State :=
  match (List.range 8).find? fun j => !grtLive s j with
  | some j =>
    let s1 := (s.setFld (grtCfg j) 1 0 2).setFlag (grtCfg j) 2 false
    startGrotto ((s1.setFlag (grtCfg j) 22 true).wr (grtCfg j + 4) (w32 p)) j 0 (some p)
  | none => s

/-- A run of an item starts. -/
def startCal (s : State) (k i : Nat) : State :=
  let s1 := setCalItem s k i
    { calItem s k i with
      run := true, wait := false, temp := calTemp s k i, startAt := s.elapsed, sum1 := 0, num1 := 0, sum2 := 0, num2 := 0, noRange := false,
      ranged := none }
  if k = 2 ∧ s.flag (tdcB + 0x3000 + 0x10 * i) 1 then askRanging s1 i else s1

/-- A run of an item is asked for: it starts, or a trunk run waits for its lane (R262, R279). -/
def askCal (s : State) (k i : Nat) : State :=
  if (calItem s k i).run then s
  else if calMay s k i then startCal s k i
  else if k = 1 ∧ s.flag (tdcB + 0x050) 1 then setCalItem s k i { calItem s k i with wait := true }
  else s

/-- Does one of the events of R260 hold for an item? -/
def calDue (s : State) (k i : Nat) : Bool :=
  let x := calItem s k i
  let period := s.fld (tdcB + 0x054) 31 16
  match x.lastAt with
  | none => true
  | some t =>
    (decide (period ≠ 0) && decide (t + period * tuPerSec ≤ s.elapsed)) ||
    (if k = 2 then
       match pathDelay s i with
       | some d => decide (100 * 2 ^ 40 < (d - x.lastD).natAbs * 1000)
       | none => false
     else
       match x.lastTemp with
       | some y => decide (s.fld (tdcB + 0x054) 7 0 < (calTemp s k i - y).natAbs)
       | none => true)

/-- A run is discarded (R261, R264). -/
def discardRun (s : State) (k i diff : Nat) : State :=
  let x := calItem s k i
  calDisagree (setCalItem s k i { x with run := false, retryAt := s.elapsed + s.fld (tdcB + 0x054) 15 8 * tuPerSec }) (k + 2) i diff

/-- A run ends without a result: its kind is switched off, its lane goes down, the clocks enter bypass (R263, R268 to R270). -/
def abandonRun (s : State) (k i : Nat) (again : Bool) : State :=
  if (calItem s k i).run then setCalItem s k i { calItem s k i with run := false, wait := again } else s

/-- A lane goes down, changes rate or leaves trunk mode (R263). -/
def calLaneStop (s : State) (l : Nat) : State := abandonRun s 1 l true

/-- The clocks enter bypass, or the chip P3: every run stops (R270). -/
def calStop (s : State) : State :=
  forEach s.tdc.items s fun e t => if e.2.run then abandonRun t (e.1 / 256) (e.1 % 256) (decide (e.1 / 256 = 1)) else t

/-- The asymmetry of port `i` finishes its movement after its calibration was switched off (R269): `was` says whether it was on. -/
def letFinish (s : State) (was : Bool) (i : Nat) : State :=
  if was && !s.tdc.asymEnds.contains i then { s with tdc := { s.tdc with asymEnds := s.tdc.asymEnds ++ [i] } } else s

/-- A write of TDC_CAL_CTRL takes effect: the runs of each kind switched off are abandoned, applied values finish their movement (R268, R269);
`b` is the state before the store. -/
def calCtrlWritten (b s : State) : State :=
  let s1 := forEach [0, 1, 2] s fun k t =>
    if t.flag (tdcB + 0x050) k then t else forEach (calRuns t k) t fun i u => abandonRun u k i false
  forEach (List.range 128) s1 fun i t => letFinish t (asymOwned b i && !asymOwned s i) i

/-- The fixed delays kept for a lane at a rate: those measured or loaded, else the factory ones (R270, R274). -/
def laneDelay (s : State) (l rate : Nat) : LaneDelay := AMap.getD s.tdc.lanes (8 * l + rate) (factoryDelays l rate)

/-- The delays of a lane in use and their targets are set. -/
def setLaneNow (s : State) (l : Nat) (x : LaneNow) : State := { s with tdc := { s.tdc with now := AMap.set s.tdc.now l x } }

/-- The delays of a lane's rate are loaded at once, applied and target (R267). -/
def loadLane (s : State) (l rate : Nat) : State :=
  let d := laneDelay s l rate
  setLaneNow s l { tx := d.tx, rx := d.rx, txT := d.tx, rxT := d.rx }

/-- A lane changes its rate: its delays are loaded, and it has not yet reported superblock lock at it (R267). -/
def laneRateChanged (s : State) (l rate : Nat) : State :=
  let s1 := calLaneStop s l
  loadLane { s1 with tdc := { s1.tdc with locked := s1.tdc.locked.filter (· ≠ l) } } l rate

/-- A lane reports superblock lock (R267). -/
def laneLocked (s : State) (l : Nat) : State :=
  if s.tdc.locked.contains l then s else { s with tdc := { s.tdc with locked := s.tdc.locked ++ [l] } }

/-- The target of R253 for a mean path delay of `num` / `den` in 2^-40 ns: STATIC + 2 x alpha x d / (2 + alpha) in ps, alpha being ALPHA x 10^-12,
rounded to the nearest (log entry 10). -/
def asymTarget (s : State) (p : Nat) (num : Int) (den : Nat) : Int :=
  let st := sbits (s.rd (tdcB + 0x3004 + 0x10 * p)) 31 0
  let al := sbits (s.rd (tdcB + 0x3008 + 0x10 * p)) 31 0
  st + divRound (2 * al * num * 1000) (((2 * 10 ^ 12 + al) * (den * 2 ^ 40 : Nat)).toNat)

/-- The tolerance of a kind (TDC_CAL_TOL) in ps. -/
def calTol (s : State) (k : Nat) : Nat :=
  match k with
  | 0 => s.fld (tdcB + 0x058) 15 8
  | 1 => s.fld (tdcB + 0x058) 23 16
  | _ => s.fld (tdcB + 0x058) 31 24

/-- The mean of a run and its repeat (R265). -/
def runMean (a b : Int) : Int := divRound (a + b) 2

/-- The mean path delays of an asymmetry run and of its repeat, each as a sum and a number in 2^-40 ns (R256); a second in which no word came has the
delay as it stands. -/
def asymMeans (s : State) (p : Nat) : Option ((Int × Nat) × (Int × Nat)) :=
  let x := calItem s 2 p
  (pathDelay s p).map fun d => (if x.num1 = 0 then (d, 1) else (x.sum1, x.num1), if x.num2 = 0 then (d, 1) else (x.sum2, x.num2))

/-- An applied value of item `i` of kind `k` begins to move, unless it moves already (R266). -/
def beginMove (s : State) (k i : Nat) (moving : Bool) : State :=
  if moving then s else { s with tdc := { s.tdc with moved := AMap.set s.tdc.moved (256 * k + i) s.elapsed } }

/-- A run is accepted: it ends, and its item's triggers are reckoned from it (R260). -/
def endRun (s : State) (k i : Nat) (d : Int) : State :=
  let x := calItem s k i
  setCalItem s k i { x with run := false, lastTemp := some x.temp, lastAt := some s.elapsed, lastD := d }

/-- Do the applied delays of a lane move? -/
def LaneNow.moving (x : LaneNow) : Bool := x.tx != x.txT || x.rx != x.rxT

/-- SUN_PTp_ASYM and its target TDC_ASYMp_TGT, in ps. -/
def asymNow (s : State) (p : Nat) : Int := sbits (s.rd (sunB + 0x1008 + 0x10 * p)) 31 0
/-- See `asymNow`. -/
def asymTgt (s : State) (p : Nat) : Int := sbits (s.rd (tdcB + 0x300C + 0x10 * p)) 31 0

/-- An accepted offset run's values become the channel's target and go to its record (R265, R266, R271); channel 15's own OFS is 0. -/
def acceptOffset (s : State) (i : Nat) (v0 v1 : Int) : State :=
  let x := calItem s 0 i
  let c := tdcCh s i
  let ofs := if i = 15 then 0 else v0
  let s1 := beginMove (endRun s 0 i 0) 0 i (c.ofs != sbits (s.rd (tdcCfg i + 0x20)) 31 0)
  storeRecord (setTdcCh s1 i { c with ofs := ofs, g2 := v1, gSteps := 256, gDue := 0 }) 2 i 0 (nodeTime s / tuPerSec) x.temp (BitVec.ofInt 32 ofs)
    (BitVec.ofInt 32 v1)

/-- An accepted trunk run's values become the lane's target, or are loaded at once before its first superblock lock (R265 to R267, R271). -/
def acceptTrunk (s : State) (i : Nat) (v0 v1 : Int) : State :=
  let x := calItem s 1 i
  let r := laneRate s i
  let n := laneNow s i
  let w0 := BitVec.ofInt 32 v0
  let w1 := BitVec.ofInt 32 v1
  let s1 := endRun s 1 i 0
  let s2 := { s1 with tdc := { s1.tdc with lanes := AMap.set s1.tdc.lanes (8 * i + r) { tx := w0, rx := w1 } } }
  let s3 := if s.tdc.locked.contains i then setLaneNow (beginMove s2 1 i n.moving) i { n with txT := w0, rxT := w1 } else loadLane s2 i r
  storeRecord s3 3 i r (nodeTime s / tuPerSec) x.temp w0 w1

/-- An accepted asymmetry run's target, with a mean path delay of `num` / `den` in 2^-40 ns (R253, R265, R266, R271). -/
def acceptAsym (s : State) (p : Nat) (num : Int) (den : Nat) : State :=
  let x := calItem s 2 p
  let t := asymTarget s p num den
  let s1 := beginMove (endRun s 2 p (divRound num den)) 2 p (asymNow s p != asymTgt s p)
  storeRecord (s1.wr (tdcB + 0x300C + 0x10 * p) (BitVec.ofInt 32 t)) 4 p 0 (nodeTime s / tuPerSec) x.temp
    (BitVec.ofInt 32 (divRound (num * 1000) (den * 2 ^ 40))) (BitVec.ofInt 32 t)

/-- A value moves one step of `by_` toward a target. -/
def stepTo (v t by_ : Int) : Int := if v < t then min t (v + by_) else max t (v - by_)

/-- One of the `left` equal steps still to be made from `v` to `t`. -/
def equalStep (v t : Int) (left : Nat) : Int := if left ≤ 1 then t else v + divRound (t - v) left

/-- Does SUN_PTp_ASYM of a port move toward its target: its calibration is on, or lets it finish (R269)? -/
def asymMoves (s : State) (p : Nat) : Bool := (asymOwned s p || s.tdc.asymEnds.contains p) && asymNow s p != asymTgt s p

/-- Is any applied value moving (TDC_CAL_STATUS.SLEWING)? -/
def calSlewing (s : State) : Bool :=
  ((List.range 16).any fun n => (tdcCh s n).wSteps != 0 || (tdcCh s n).gSteps != 0 || sbits (s.rd (tdcCfg n + 0x20)) 31 0 != (tdcCh s n).ofs) ||
    s.tdc.now.any (fun e => e.2.moving) || (List.range 128).any (asymMoves s)

/-- How long an applied value takes to move by one unit at 1 ps/s: one of 2^-16 ns, or 1 ps of an asymmetry (R266). -/
def unitTime : Nat := tuPerSec * 1000 / 65536

/-- Has an applied value's next step come due, `t` after its last one? Calibration stops, and applied values are kept, in P3 and in bypass (R270). -/
def stepFree (s : State) (k i t : Nat) : Bool :=
  calLive s && match AMap.get s.tdc.moved (256 * k + i) with
    | some e => decide (e + t ≤ s.elapsed)
    | none => true

/-- A step of an applied value has been made now. -/
def stepMade (s : State) (k i : Nat) : State := { s with tdc := { s.tdc with moved := AMap.set s.tdc.moved (256 * k + i) s.elapsed } }

/-- TDC_CAL_STATUS as read; its register keeps NO_RANGE. -/
def calStatusView (s : State) : Word :=
  (s.rd (tdcB + 0x060) &&& 0x200) ||| bitW 16 (s.nvm.jobs.any fun j => j.win.isNone) ||| bitW 8 (calSlewing s) |||
    bitW 2 (calRuns s 2 != []) ||| bitW 1 (calRuns s 1 != []) ||| bitW 0 (calRuns s 0 != [])

/-- One record is loaded, or CAL_NVM is to be raised (R274). -/
def loadOne (s : State) (kind item rate : Nat) (f : State → Word → Word → State) (dflt : State → State) : State × Bool :=
  match recordValue s kind item rate with
  | some (a, b) => (f s a b, true)
  | none => (dflt s, false)

/-- A load for each of some items: `g` says whether the item's record was there. -/
def loadAll (g : Nat → State → State × Bool) : List Nat → State × Bool → State × Bool
  | [], p => p
  | i :: l, p =>
    let b := g i p.1
    loadAll g l (b.1, p.2 && b.2)

/-- Every item's value is loaded from the NVM at chip reset (R267, R274). -/
def loadCal (s : State) : State :=
  let p1 := loadAll (fun n t =>
    loadOne t 1 n 0 (fun u a b => (setTdcCh u n { tdcCh u n with w1 := bits a 19 0, w2 := bits b 19 0 }).wr
      (tdcCfg n + 0x18) (w32 (bits a 19 0)) |>.wr (tdcCfg n + 0x1C) (w32 (bits b 19 0))) id) (List.range 16) (s, true)
  let p2 := loadAll (fun n t =>
    loadOne t 2 n 0 (fun u a b => ((setTdcCh u n { tdcCh u n with ofs := sbits a 31 0, g2 := sbits b 31 0 }).wr (tdcCfg n + 0x20) a).wr
      (tdcCfg n + 0x24) b) id) (List.range 16) p1
  let p3 := loadAll (fun i t =>
    let l := i / 6
    let r := i % 6 + 1
    loadOne t 3 l r (fun u a b => { u with tdc := { u.tdc with lanes := AMap.set u.tdc.lanes (8 * l + r) { tx := a, rx := b } } }) id) (List.range 768) p2
  let p4 := loadAll (fun p t =>
    let put (u : State) (b : Word) : State := (u.wr (tdcB + 0x300C + 0x10 * p) b).wr (sunB + 0x1008 + 0x10 * p) b
    loadOne t 4 p 0 (fun u _ b => put u b) (fun u => put u (u.rd (tdcB + 0x3004 + 0x10 * p)))) (List.range 128) p3
  if p4.2 then p4.1 else tdcEvent p4.1 3

end Sys2Proof.Machine
end

