-- ==== Sys2Proof/Machine/Tables.lean ====
section
/-!
DEFINITION. Tables.lean: the events of the table engine and the table-DMA operations (09_forwarding_tables.md R471 to R493, 12_host_rings.md
R640 to R643), one meaning per row of the table.
-/
namespace Sys2Proof.Machine

/-- The table engine has made `k` commits for master `m` (event 0x08 of R764). -/
def engineCommits (s : State) (m k : Nat) : State := perfCount s none { ev := 0x08, master := some m } k

/-- The Pavilion whose learn is taken next: round-robin after the one taken last (R470). -/
def nextLearner (s : State) : Option Nat :=
  ((List.range 8).map fun i => (s.tbl.lastLearn + 1 + i) % 8).find? fun r => learnQ s r ≠ []

/-- LEARN_COMMIT (R471): the engine takes the next learn of the eight queues. -/
def execLearnCommit (s : State) : Result :=
  match if switchRuns s then nextLearner s else none with
  | none => .next s
  | some r =>
    match learnQ s r with
    | [] => .next s
    | x :: t =>
      let s1 := setLearnQ s r t
      .next (engineCommits (commitLearn { s1 with tbl := { s1.tbl with lastLearn := r } } r x) 7 1)

/-- MOVE_WINDOW_EXPIRY (R475): valid on a tracked address whose window has ended without a flap. -/
def execMoveWindowExpiry (vid : BitVec 12) (mac : BitVec 48) (s : State) : Result :=
  if s.tbl.track.any (fun x => x.vid == vid.toNat && x.mac == mac.toNat && x.frozen.isNone && decide (x.ends ≤ s.elapsed)) then
    .next (dropTrack s vid.toNat mac.toNat)
  else .next s

/-- FLAP_HOLD_END (R475): valid on a frozen address whose hold has ended. -/
def execFlapHoldEnd (vid : BitVec 12) (mac : BitVec 48) (s : State) : Result :=
  let due (x : Track) : Bool := x.vid == vid.toNat && x.mac == mac.toNat && match x.frozen with
    | some e => decide (e ≤ s.elapsed)
    | none => false
  if s.tbl.track.any due then
    let s1 := match findKey s false (l2Key vid.toNat mac.toNat) with
      | some p => refreshAt (alterEntry s p fun e => setDw e 3 (putBits (dwAt e 3) 15 15 0)) p
      | none => s
    .next (dropTrack s1 vid.toNat mac.toNat)
  else .next s

/-- REFRESH_COMMIT (R479): the front refresh of Pavilion `r`'s queue. -/
def execRefreshCommit (r : Fin 8) (s : State) : Result :=
  if refQ s r = [] ∨ !switchRuns s then .next s else .next (engineCommits (commitRefresh s r) 7 1)

/-- AGE_TICK (R478, R500): valid once the present tick has lasted its TICK x 10 ms; TICK and LIMIT as they stand now hold from here on. -/
def execAgeTick (s : State) : Result :=
  let turn := s.tbl.ageAt + s.tbl.agePer * 10000000 * tuPerNs
  if s.alive ∧ turn ≤ s.elapsed then
    let t := { s with tbl := { s.tbl with ageAt := turn, agePer := s.fld (tblB + 0x054) 12 0, ageLim := s.fld (tblB + 0x054) 30 16 } }
    .next (t.wr (tblB + 0x058) (w32 ((tblNow s + 1) % 2 ^ 16)))
  else .next s

/-- AGER_VISIT (R481, R482, R484): the ager visits index `i` of the L2 or the stream table. -/
def execAgerVisit (stream : Bool) (i : BitVec 20) (s : State) : Result :=
  .next (if switchRuns s then agerVisit s (if stream then stBase + i.toNat else i.toNat) else s)

/-- AGE_DELETE_COMMIT (R483): valid once every refresh issued before the oldest compare-and-delete has committed. -/
def execAgeDeleteCommit (s : State) : Result :=
  match s.tbl.dels with
  | [] => .next s
  | d :: t =>
    if delReady s d ∧ switchRuns s then .next (engineCommits (commitDel { s with tbl := { s.tbl with dels := t } } d) 7 1) else .next s

/-- PORT_DOWN_TABLE_FLUSH (R485, R492): valid on a port whose deletions wait; those in locked banks wait on. -/
def execPortDownTableFlush (p : Fin 128) (s : State) : Result :=
  if s.tbl.downs.contains p.val ∧ switchRuns s then
    let x := flushOpen s p 0
    let s1 := engineCommits x.1 7 x.2
    .next (if flushPlaces s1 p 0 = [] then { s1 with tbl := { s1.tbl with downs := s1.tbl.downs.filter (· ≠ p.val) } } else s1)
  else .next s

/-- LOCK_EXPIRED (R493): valid on a bank that has stayed locked for LOCK_MAX seconds. -/
def execLockExpired (b : Fin 8) (s : State) : Result :=
  match AMap.get s.tbl.lockAt b with
  | some t =>
    let mx := s.fld (tblB + 0x06C) 7 0
    if bankLocked s b ∧ mx ≠ 0 ∧ t + mx * tuPerSec ≤ s.elapsed then
      let old := s.rd (tblB + 0x064)
      .next (tblEvent (locksChanged (s.setFlag (tblB + 0x064) b false) old) 4)
    else .next s
  | none => .next s

/-- The fields of a table-DMA descriptor (R640). -/
def tdOp (d : List Word) : Nat := bits (dwAt d 2) 27 24
def tdTable (d : List Word) : Nat := bits (dwAt d 2) 23 22
def tdIndex (d : List Word) : Nat := bits (dwAt d 2) 19 0
def tdCount (d : List Word) : Nat := bits (dwAt d 3) 25 0
def tdSnap (d : List Word) : Bool := bit (dwAt d 2) 31
def tdAddr (d : List Word) : Nat := join (dwAt d 1) (dwAt d 0)
def tdLen (d : List Word) : Nat := (dwAt d 5).toNat

/-- Step 1 of R642: a reserved bit, a misaligned ADDR, an OP or TABLE that R486 refuses, a FLUSH that names a reserved port (R12). -/
def tdIllegal (d : List Word) : Bool :=
  bits (dwAt d 0) 3 0 != 0 || bits (dwAt d 2) 30 28 != 0 || bits (dwAt d 2) 21 20 != 0 || bits (dwAt d 3) 31 26 != 0 ||
    bits (dwAt d 4) 31 28 != 0 || bits (dwAt d 4) 15 8 != 0 || dwAt d 6 != 0 || dwAt d 7 != 0 ||
    (if tdSnap d then tdOp d != 0 || tdTable d != 0 || bits (dwAt d 2) 19 3 != 0
     else tdTable d == 3 || tdOp d == 0 || decide (6 < tdOp d) || (tdTable d == 2 && decide (3 ≤ tdOp d)) ||
       (tdTable d == 1 && tdOp d == 6) || (tdOp d == 6 && reservedPort (bits (dwAt d 4) 7 0)))

/-- Bytes of the buffer that a table operation needs (R641). -/
def tdNeeds (d : List Word) : Nat :=
  4 * entryDws (tdTable d) * (if tdOp d ≤ 2 then tdCount d else if tdOp d = 6 then 0 else 1)

/-- Steps 1 and 2 of R642. -/
def tdCheck (d : List Word) : Nat :=
  if tdIllegal d then 0x01 else if !tdSnap d ∧ tdLen d < tdNeeds d then 0x05 else 0

/-- Split dwords into entries of `k`. -/
def splitEntries (k : Nat) (l : List Word) : Nat → List (List Word)
  | 0 => []
  | n + 1 => (List.range k).map (dwAt l) :: splitEntries k (l.drop k) n

/-- A table-DMA descriptor of ring `n` completes with a code and INFO. -/
def tdDone (s : State) (n desc code : Nat) (info : Word) : State := complete s n { status := code, desc := desc, info := if code = 0 then info else 0 }

/-- A descriptor of a table-DMA ring is taken and, when it is a descriptor of the kind `mine`, served by `serve` after the first checks of
R642; one that fails them completes with that code whatever its kind. -/
def tdTake (s : State) (n : Nat) (d : List Word) (mine : Bool) (serve : State → Nat → State) : State :=
  let c := tdCheck d
  if !canTake s n 3 ∨ !switchRuns s ∨ (c = 0 ∧ !mine) then s
  else
    let x := takeDesc s n
    if c ≠ 0 then tdDone x.1 n x.2 c 0 else serve x.1 x.2

/-- INFO of a key operation (R651). -/
def keyInfo (found : Bool) (i : Nat) : Word := bitW 31 found ||| fieldW 19 0 i

/-- Is a READ or WRITE refused: a range (R487) or a bank that is not locked (R491)? -/
def rangeCode (d : List Word) : Nat := if tableRange (tdTable d) < tdIndex d + tdCount d then 0x06 else 0
/-- See `rangeCode`. -/
def lockCode (s : State) (d : List Word) : Nat :=
  if tdTable d = 2 ∨ (banksTouched (tdTable d) (tdIndex d) (tdCount d)).all (bankLocked s) then 0 else 0x0B

/-- TABLE_READ (R486, R487, R491). -/
def execTableRead (n : Fin 256) (d : List Word) (s : State) : Result :=
  .next (tdTake s n d (!tdSnap d && tdOp d == 1) fun t i =>
    if tdCount d = 0 then tdDone t n i 0 0
    else if rangeCode d ≠ 0 then tdDone t n i (rangeCode d) 0
    else if lockCode t d ≠ 0 then tdDone t n i (lockCode t d) 0
    else
      let ws := (List.range (tdCount d)).flatMap fun j => readEntry t (tdTable d) (tdIndex d + j)
      tdDone (t.emit (.dma (tdAddr d) ws)) n i 0 (fieldW 19 0 (tdCount d)))

/-- TABLE_WRITE (R487, R489 to R491): `data` is the buffer. -/
def execTableWrite (n : Fin 256) (d : List Word) (data : List Word) (s : State) : Result :=
  .next (tdTake s n d (!tdSnap d && tdOp d == 2) fun t i =>
    if tdCount d = 0 then tdDone t n i 0 0
    else if rangeCode d ≠ 0 then tdDone t n i (rangeCode d) 0
    else
      let es := splitEntries (entryDws (tdTable d)) data (tdCount d)
      let c := checkWrite t (tdTable d) (tdIndex d) es
      if c ≠ 0 then tdDone t n i c 0
      else if lockCode t d ≠ 0 then tdDone t n i (lockCode t d) 0
      else
        let t1 := forEach (List.range (tdCount d)) t fun j x => writeEntry x (tdTable d) (tdIndex d + j) (es.getD j [])
        tdDone (engineCommits t1 6 (tdCount d)) n i 0 (fieldW 19 0 (tdCount d)))

/-- TABLE_INSERT (R466, R488): `data` is the entry. -/
def execTableInsert (n : Fin 256) (d : List Word) (data : List Word) (s : State) : Result :=
  .next (tdTake s n d (!tdSnap d && tdOp d == 3) fun t i =>
    let st := tdTable d == 1
    let e := (List.range (entryDws (tdTable d))).map (dwAt data)
    if !bit (dwAt e (vdw st)) 31 then tdDone t n i 0x01 0
    else if checkEntry (tdTable d) e ≠ 0 then tdDone t n i (checkEntry (tdTable d) e) 0
    else
      let r := insertEntry t st e
      tdDone (engineCommits r.1 6 (if r.2.1 = 0 then 1 else 0)) n i r.2.1 (keyInfo r.2.2.1 r.2.2.2))

/-- TABLE_DELETE (R486): `data` holds the key. -/
def execTableDelete (n : Fin 256) (d : List Word) (data : List Word) (s : State) : Result :=
  .next (tdTake s n d (!tdSnap d && tdOp d == 4) fun t i =>
    let st := tdTable d == 1
    let r := deleteEntry t st (keyOf st ((List.range (entryDws (tdTable d))).map (dwAt data)))
    tdDone (engineCommits r.1 6 (if r.2.1 then 1 else 0)) n i 0 (keyInfo r.2.1 r.2.2))

/-- TABLE_SEARCH (R486, R641): `data` holds the key. -/
def execTableSearch (n : Fin 256) (d : List Word) (data : List Word) (s : State) : Result :=
  .next (tdTake s n d (!tdSnap d && tdOp d == 5) fun t i =>
    let st := tdTable d == 1
    match findKey t st (keyOf st ((List.range (entryDws (tdTable d))).map (dwAt data))) with
    | some p => tdDone (t.emit (.dma (tdAddr d) ((entryAt t p).getD []))) n i 0 (keyInfo true (if st then p - stBase else p))
    | none => tdDone t n i 0 (keyInfo false 0))

/-- TABLE_FLUSH (R486): its deletions end with TABLE_FLUSH_DONE. -/
def execTableFlush (n : Fin 256) (d : List Word) (s : State) : Result :=
  .next (tdTake s n d (!tdSnap d && tdOp d == 6) fun t i =>
    { t with tbl := { t.tbl with flushes := t.tbl.flushes ++ [⟨bits (dwAt d 4) 7 0, bits (dwAt d 4) 27 16, n, i, 0⟩] } })

/-- A visit of the ager has ended for one FLUSH (R486): it completes, but for entries in locked banks, which keep it going (R492). -/
def visitFlush (s : State) (x : Flush) : State :=
  let y := flushOpen s x.port x.vid
  let s1 := engineCommits y.1 6 y.2
  let c := x.count + y.2
  if flushPlaces s1 x.port x.vid = [] then tdDone s1 x.ring x.desc 0 (fieldW 19 0 (min c (2 ^ 20 - 1)))
  else { s1 with tbl := { s1.tbl with flushes := s1.tbl.flushes ++ [{ x with count := c }] } }

/-- TABLE_FLUSH_DONE (R486, R492): a visit of the ager has ended, for every FLUSH in progress. -/
def execTableFlushDone (s : State) : Result :=
  if switchRuns s then .next (forEach s.tbl.flushes { s with tbl := { s.tbl with flushes := [] } } fun x t => visitFlush t x) else .next s

/-- SNAPSHOT_READ (R643). Bytes of a region that no sample was written to are not stated: free bytes. -/
def execSnapshotRead (n : Fin 256) (d : List Word) (s : State) : Result :=
  .next (tdTake s n d (tdSnap d) fun t i =>
    let k := bits (dwAt d 2) 1 0
    let len := tdLen d
    let st := snapState t k
    if len = 0 then tdDone t n i 0 0
    else if st = 0 then tdDone t n i 0x01 0
    else if st = 1 ∨ st = 2 then tdDone t n i 0x0B 0
    else if 2 ^ 25 < tdCount d + len then tdDone t n i 0x06 0
    else
      let reg := if bit (dwAt d 2) 2 then (snapRec t k).reg1 else (snapRec t k).reg0
      let bytes := (List.range len).map fun j => reg.getD (tdCount d + j) (Config.freeByte (t.fresh + j))
      tdDone ({ t with fresh := t.fresh + len }.emit (.dmaBytes (tdAddr d) bytes)) n i 0 (fieldW 25 0 len))

end Sys2Proof.Machine
end

