-- ==== Sys2Proof/Machine/PlcOps.lean ====
section
/-!
DEFINITION. PlcOps.lean: jobs, streams, taps and cells of 11_bandstand_and_placement.md: costs and loads (R575, R576, R587, R588), where a job
fits (R590, R591, R594), parameters and ramps (R578 to R581, R508), the checks of declarations (R572 to R577), and the state that PLC and
BST registers show.
-/
namespace Sys2Proof.Machine

/-- A finite binary32 value in units of 2^-149. -/
def f32Val (w : Word) : Int :=
  let e := bits w 30 23
  let m := bits w 22 0
  let mag : Nat := if e = 0 then m else (m + 2 ^ 23) * 2 ^ (e - 1)
  if bit w 31 then -(mag : Int) else mag

/-- Is a binary32 value neither NaN nor infinite? -/
def f32Finite (w : Word) : Bool := bits w 30 23 != 255

/-- One, in units of 2^-149. -/
def f32One : Int := 2 ^ 149

/-- Is a value a whole number? -/
def f32Whole (x : Int) : Bool := x % f32One == 0

/-- Sample rate of a RATE code. -/
def fsOf (rate : Nat) : Nat := if rate = 0 then 48000 else 96000

/-- The sample index of a node time (R557). -/
def indexAt (t rate : Nat) : Nat := t * fsOf rate / tuPerSec

/-- The sample index now. -/
def indexNow (s : State) (rate : Nat) : Nat := indexAt (nodeTime s) rate

/-- The first sample index at or after a node time. -/
def indexFrom (t rate : Nat) : Nat := (t * fsOf rate + tuPerSec - 1) / tuPerSec

/-- Records by handle. -/
def jobOf (s : State) (h : Nat) : Option Job := AMap.get s.plc.jobs h
/-- See `jobOf`. -/
def setJob (s : State) (h : Nat) (j : Job) : State := { s with plc := { s.plc with jobs := AMap.set s.plc.jobs h j } }
/-- See `jobOf`. -/
def streamOf (s : State) (h : Nat) : Option Stream := AMap.get s.plc.streams h
/-- See `jobOf`. -/
def setStream (s : State) (h : Nat) (x : Stream) : State := { s with plc := { s.plc with streams := AMap.set s.plc.streams h x } }
/-- The record of a cell. -/
def cellOf (s : State) (c : Nat) : CellSt := AMap.getD s.plc.cells c {}
/-- Replace it. -/
def setCell (s : State) (c : Nat) (x : CellSt) : State := { s with plc := { s.plc with cells := AMap.put s.plc.cells c x {} } }

/-- Where the registers of cell `c` start. -/
def bstB (c : Nat) : Nat := pavBase (c / 16) + 0x60000 + c % 16 * 0x1000
/-- BST_EVENT bit `b` drives the Pavilion's compute source (R670). -/
def bstEvent (s : State) (c b : Nat) : State := pavEvent s (c / 16) 19 (bstB c + 0x044) b

/-- Is a packet job? -/
def Job.packet (j : Job) : Bool := j.kind == 6 || j.kind == 7
/-- A value at sample `k`, in units of 2^-149, under changes, the latest first, each from the value in force at its first sample (R508); a ramp advances
every `step` samples (R579). -/
def rampAt (step : Nat) (base : Int) : List Ramp → Nat → Int
  | [], _ => base
  | c :: l, k =>
    let t := f32Val c.target
    if k < c.k0 then rampAt step base l k
    else if c.k0 + c.len ≤ k then t
    else
      let a := rampAt step base l c.k0
      let m := (k - c.k0) / step * step
      if c.shape = 2 ∧ 0 < a ∧ 0 < t then Config.dbRamp a t m c.len else a + (t - a) * m / (c.len : Int)

/-- The number of a gain set, from a value in units of 2^-149. -/
def setNum (x : Int) : Nat := (x / f32One).toNat

/-- What bounds a parameter: least and greatest value in units of 2^-149, whether it is a whole number that steps, its reset value. -/
structure ParamRule where
  mn : Int
  mx : Int
  whole : Bool := false
  step : Bool := false
  dflt : Int
  deriving DecidableEq, Repr

/-- The rule of parameter `i` (R578); none where the index does not exist. -/
def paramRule (j : Job) (i : Nat) : Option ParamRule :=
  let gain : ParamRule := { mn := 0, mx := 16 * f32One, dflt := f32One }
  match j.kind with
  | 0x01 =>
    if i = 128 then some { mn := 0, mx := ((j.arg0 : Int) - 1) * f32One, whole := true, dflt := 0 }
    else if i < j.nout then some gain else none
  | 0x02 => if i < j.nin then some gain else none
  | 0x03 => if i < j.nin then some { mn := 0, mx := (j.arg0 : Int) * f32One, dflt := 0 } else none
  | 0x04 =>
    if 4 * j.arg0 ≤ i then none
    else
      match i % 4 with
      | 0 => some { mn := 10 * f32One, mx := (fsOf j.rate * 45 / 100 : Nat) * f32One, dflt := 1000 * f32One }
      | 1 => some { mn := f32Val 0x3DCCCCCD, mx := 50 * f32One, dflt := f32Val 0x3F34FDF4 }
      | 2 => some { mn := -48 * f32One, mx := 24 * f32One, dflt := 0 }
      | _ => some { mn := 0, mx := 7 * f32One, whole := true, step := true, dflt := 0 }
  | 0x06 => if i < 16 then some { mn := 0, mx := f32One, whole := true, step := true, dflt := f32One } else none
  | 0x08 => if i = 0 then some { mn := 0, mx := f32One, dflt := 0 } else none
  | 0x80 => (j.descs[i]?).map fun d => { mn := f32Val d.mn, mx := f32Val d.mx, step := d.step, dflt := f32Val d.dflt }
  | _ => none

/-- A parameter, at its reset value where none has reached it. -/
def jobParam (j : Job) (i : Nat) : Param :=
  AMap.getD j.params i { value := match paramRule j i with
    | some r => r.dflt
    | none => 0 }

/-- The value of parameter `i` at sample `k`, in units of 2^-149 (R578 to R580): frequency, Q and gain of a BIQUAD advance every 8 samples. -/
def paramAt (j : Job) (i k : Nat) : Int := rampAt (if j.kind = 4 then 8 else 1) (jobParam j i).value (jobParam j i).chgs k

/-- The check of a parameter value (R513, R578): 0, E_ILLEGAL or E_RANGE. -/
def paramCheck (j : Job) (i : Nat) (v : Word) : Nat :=
  match paramRule j i with
  | none => 0x06
  | some r =>
    if !f32Finite v then 0x01
    else
      let x := f32Val v
      if x < r.mn ∨ r.mx < x ∨ (r.whole ∧ !f32Whole x) then 0x06 else 0

/-- A change joins those of a parameter in the order of their first samples; on the same first sample it replaces the one there, but for a cue's, which a
SET_PARAM leaves (R581). -/
def addRamp (c : Ramp) : List Ramp → List Ramp
  | [] => [c]
  | o :: l => if c.k0 < o.k0 then o :: addRamp c l else if c.k0 = o.k0 then (if o.cue ∧ !c.cue then o :: l else c :: l) else c :: o :: l

/-- Forget the changes that the samples from `k` on do not need: all before one that has ended by then. -/
def trimRamps (p : Param) (k : Nat) : Param :=
  match p.chgs.find? fun c => decide (c.k0 ≤ k) with
  | some c => if c.k0 + c.len ≤ k then { value := f32Val c.target, chgs := p.chgs.filter fun o => decide (k < o.k0) } else p
  | none => p

/-- The first sample of the next block that is not yet in processing (R570). -/
def nextFresh (s : State) (j : Job) : Nat := indexNow s j.rate / j.bsize * j.bsize

/-- A change with its first sample at `k0` reaches a parameter (R508, R579 to R581). -/
def changeParam (s : State) (j : Job) (i k0 len shape : Nat) (v : Word) (cue : Bool) : Job :=
  let steps : Bool := match paramRule j i with
    | some r => r.step
    | none => false
  let c : Ramp := { k0 := k0, len := if steps ∨ shape = 0 then 0 else len, shape := if j.kind = 1 ∧ i = 128 then 1 else shape, target := v, cue := cue }
  let p := trimRamps (jobParam j i) (nextFresh s j)
  { j with params := AMap.set j.params i { p with chgs := addRamp c p.chgs } }

/-- The matrix gain sets whose gains blend at sample `k` (R580). -/
def blended (base : Int) : List Ramp → Nat → List Nat
  | [], _ => [setNum base]
  | c :: l, k =>
    if k < c.k0 then blended base l k
    else if c.k0 + c.len ≤ k then [setNum (f32Val c.target)]
    else setNum (f32Val c.target) :: blended base l c.k0

/-- The matrix gain sets in use now: the one in force, or those of a crossfade (R575, R580). -/
def setsInUse (s : State) (j : Job) : List Nat := (blended (jobParam j 128).value (jobParam j 128).chgs (indexNow s j.rate)).eraseDups

/-- Active crosspoints of a MATRIX job (R575). -/
def activePoints (s : State) (j : Job) : Nat :=
  let l := setsInUse s j
  let per := j.nin * j.nout
  ((j.gains.filter fun e => l.contains (e.1 / per)).map fun e => e.1 % per).eraseDups.length

/-- Cycles of a job per block, in sixteenths (R575, R576, R587). -/
def blockCost (s : State) (j : Job) : Nat :=
  let b := j.bsize
  match j.kind with
  | 0x01 => 6400 + (activePoints s j + j.nout) * b
  | 0x02 => 6400 + j.nin * b
  | 0x03 => 6400 + 8 * j.nin * b
  | 0x04 => 6400 + 5 * j.arg0 * j.nin * b
  | 0x05 => 6400 + 2 * j.nin * b
  | 0x08 => 6400 + 2 * j.nout * b
  | 0x80 => 16 * (j.c0 + j.c1 * b)
  | _ => 6400

/-- A stream's whole seconds go by (R576): the packets of the last one are its rate, none where a whole second brought none. -/
def Stream.secondsOver (x : Stream) (now : Nat) : Stream :=
  let n := (now - x.since) / tuPerSec
  if n = 0 then x else { x with pps := if n = 1 then x.count else 0, count := 0, since := x.since + n * tuPerSec }

/-- The packets a second that an input stream is charged with (R576). -/
def streamRate (s : State) (h : Nat) : Nat :=
  match streamOf s h with
  | some x => (x.secondsOver s.elapsed).pps
  | none => 0

/-- A job's cycles per second, in units of 1/4096 (R576, R588). -/
def jobCycles (s : State) (j : Job) : Nat :=
  let per := match j.kind with
    | 0x06 => 2000
    | 0x07 => 500
    | _ => 0
  let pps := if j.packet then j.ins.foldl (fun a h => a + streamRate s h) 0 else 0
  blockCost s j * fsOf j.rate * (256 / j.bsize) + per * pps * 4096

/-- The cycles of one whole cell in the same units: 1.5 x 10^9 a second. -/
def cellCycles : Nat := 1500000000 * 4096

/-- A number of cycles in the 0.5 % units of the registers. -/
def halfPercent (c : Nat) : Nat := min 255 ((c * 400 + cellCycles) / (2 * cellCycles))

/-- Jobs that occupy a cell: those on it, and those that are moving to it. -/
def jobsOn (s : State) (c : Nat) : List (Nat × Job) := s.plc.jobs.filter fun e => !e.2.homeless && e.2.cell == c
/-- See `jobsOn`. -/
def jobsTo (s : State) (c : Nat) : List (Nat × Job) :=
  s.plc.jobs.filter fun e => match e.2.move with
    | some m => m.dst == c
    | none => false

/-- The load of a cell, in the units of `jobCycles`. -/
def cellLoad (s : State) (c : Nat) : Nat := (jobsOn s c ++ jobsTo s c).foldl (fun a e => a + jobCycles s e.2) 0
/-- PLC_CFG.LOAD_MAX of one cell, in the same units. -/
def loadMax (s : State) : Nat := s.fld (plcB + 0x050) 31 24 * 15000000 * 4096

/-- Is a cell's block isolated? -/
def cellIsolated (s : State) (c : Nat) : Bool := s.flag (bstB c + 0x004) 3 || (cellOf s c).gone || s.pavIsolated (c / 16)
/-- Is a cell in service: EN set, not isolated, not retired without a spare? -/
def cellServes (s : State) (c : Nat) : Bool := s.flag (bstB c + 0x004) 0 && !cellIsolated s c

/-- Orangery bytes a second of a gain set in use. -/
def gainSetRate (j : Job) : Nat := gainSetBytes j * fsOf j.rate / j.bsize
/-- Orangery bytes a second of a delay line. -/
def delayRate (j : Job) : Nat := 8 * j.nin * fsOf j.rate

/-- Lay out a job's storage in a cell with `free` bytes left (R589, R590): answers the job with its layout. -/
def layout (j : Job) (free : Nat) : Job :=
  match j.kind with
  | 0x01 =>
    let inCell := min j.arg0 (free / max 1 (gainSetBytes j))
    { j with dm := inCell * gainSetBytes j, orgSets := (List.range j.arg0).drop inCell, orgDelay := false }
  | 0x03 => if delayBytes j ≤ free then { j with dm := delayBytes j, orgSets := [], orgDelay := false } else { j with dm := 0, orgSets := [], orgDelay := true }
  | 0x80 => { j with dm := j.stateLen, orgSets := [], orgDelay := false }
  | _ => { j with dm := 0, orgSets := [], orgDelay := false }

/-- A job's Orangery bandwidth in bytes a second (R594). -/
def jobOrgRate (s : State) (j : Job) : Nat :=
  (if j.kind = 1 then ((setsInUse s j).filter j.orgSets.contains).length * gainSetRate j else 0) + (if j.orgDelay then delayRate j else 0)

/-- The capture rate of a snapshot slot in bytes a second (R315, R594): 0 unless it is ARMED or CAPTURING. -/
def snapOrgRate (s : State) (k : Nat) : Nat :=
  if snapState s k = 1 ∨ snapState s k = 2 then
    let one (n : Nat) : Nat :=
      if bit (snapRec s k).cfg n then
        let b := s.fld (feCfg n) 7 4
        let fs := sampleRate s n
        if b ≤ 2 then fs / 2 else if b ≤ 4 then fs else 2 * fs
      else 0
    one 0 + one 1
  else 0

/-- The compute bandwidth committed, in bytes a second (R594). -/
def orgRate (s : State) : Nat :=
  s.plc.jobs.foldl (fun a e => a + jobOrgRate s e.2) 0 + (List.range 4).foldl (fun a k => a + snapOrgRate s k) 0

/-- PLC_ORG_CFG.CMP_BW_MAX in bytes a second. -/
def orgMax (s : State) : Nat := s.fld (plcB + 0x054) 31 16 * 1000000000

/-- Bytes of a cell's data memory that jobs leave free (R554). -/
def cellFree (s : State) (c : Nat) : Nat := 458752 - (jobsOn s c ++ jobsTo s c).foldl (fun a e => a + e.2.dm) 0

/-- What a job that is placed anew already takes of a sum: `n` if it is one of the jobs, else nothing. -/
def already (s : State) (j : Job) (n : Nat) : Nat := if s.plc.jobs.any fun e => e.2 == j then n else 0

/-- A job laid out in cell `c`, if R590 and the room in the Orangery (R4) allow it there. -/
def fitsCell (s : State) (j : Job) (c : Nat) : Option Job :=
  let x := { layout j (cellFree s c) with cell := c }
  if cellServes s c && decide ((jobsOn s c ++ jobsTo s c).length < 256) && decide (cellLoad s c + jobCycles s j ≤ loadMax s) &&
      decide (x.dm ≤ cellFree s c) &&
      (decide (jobOrgBytes x = 0) || decide (orgUsed s + jobOrgBytes x ≤ orgSize + already s j (jobOrgBytes j))) &&
      (decide (jobOrgRate s x = 0) || decide (orgRate s + jobOrgRate s x ≤ orgMax s + already s j (jobOrgRate s j))) then some x
  else none

/-- The job whose output a tap is, and the input stream that writes it. -/
def tapJob (s : State) (t : Nat) : Option (Nat × Job) := s.plc.jobs.find? fun e => !e.2.packet && e.2.outs.contains t
/-- See `tapJob`. -/
def tapStream (s : State) (t : Nat) : Option (Nat × Stream) :=
  s.plc.streams.find? fun e => e.2.skind == 1 && decide (e.2.tapBase ≤ t) && decide (t < e.2.tapBase + e.2.ch)
/-- Does a tap exist (R563)? -/
def tapExists (s : State) (t : Nat) : Bool := (tapJob s t).isSome || (tapStream s t).isSome
/-- The sample rate of a tap, as its RATE code. -/
def tapRate (s : State) (t : Nat) : Option Nat :=
  match tapJob s t with
  | some (_, j) => some j.rate
  | none => (tapStream s t).map fun e => e.2.rate
/-- How many taps exist. -/
def tapCount (s : State) : Nat :=
  s.plc.jobs.foldl (fun a e => if e.2.packet then a else a + e.2.nout) 0 +
    s.plc.streams.foldl (fun a e => if e.2.skind = 1 then a + e.2.ch else a) 0

/-- The place of a job in its chain (R560). -/
def chainPos (s : State) (ins : List Nat) : Nat → Nat
  | 0 => 1
  | n + 1 => 1 + (ins.filterMap fun t => (tapJob s t).map fun e => chainPos s e.2.ins n).foldl max 0

/-- The taps from which `ts` are made, through at most `n` jobs (R34). -/
def tapsUp (s : State) : Nat → List Nat → List Nat
  | 0, ts => ts
  | n + 1, ts => ts ++ tapsUp s n (ts.flatMap fun t => match tapJob s t with
    | some e => e.2.ins
    | none => [])

/-- The taps that are made of `ts`, through at most `n` jobs (R34). -/
def tapsDown (s : State) : Nat → List Nat → List Nat
  | 0, ts => ts
  | n + 1, ts => ts ++ tapsDown s n ((s.plc.jobs.filter fun e => !e.2.packet && e.2.ins.any ts.contains).flatMap fun e => e.2.outs)

/-- A job's streams, those reached through taps among them (R34, R591). -/
def jobStreams (s : State) (j : Job) : List Stream :=
  if j.packet then (j.ins ++ j.outs).filterMap (streamOf s)
  else
    let up := tapsUp s 8 j.ins
    let down := tapsDown s 8 j.outs
    (s.plc.streams.filter fun e =>
      let mine (ts : List Nat) : Bool := ts.any fun t => decide (e.2.tapBase ≤ t) && decide (t < e.2.tapBase + e.2.ch)
      (e.2.skind == 1 && mine up) || (e.2.skind == 2 && mine down)).map (·.2)

/-- The network ports that carry a stream: the one by which its last packet came in, or those to which the lookup of its template leads (R569). -/
def streamPorts (s : State) (x : Stream) : List Nat :=
  if x.skind = 1 ∨ x.skind = 3 then x.inPort.toList
  else match targetPorts s 129 (portLookup s 129 (parse x.tpl)).2.toward with
    | some l => l.1
    | none => []

/-- What a stream carries in a second: samples, or packets of a packet stream. -/
def streamWeight (s : State) (x : Stream) : Nat := if x.skind ≤ 2 then x.ch * fsOf x.rate else max 1 (x.secondsOver s.elapsed).pps

/-- The home Pavilion of a job (R34, R591): the one whose network ports carry most of its streams' samples, the lowest of equals; none while no port is known
to carry any. -/
def homeOf (s : State) (j : Job) : Option Nat :=
  let l := (jobStreams s j).map fun x => (((streamPorts s x).filter (· < 128)).map (· / 16), streamWeight s x)
  let sum (r : Nat) : Nat := l.foldl (fun a e => if e.1.contains r then a + e.2 else a) 0
  ((List.range 8).foldl (fun (a : Option (Nat × Nat)) r =>
    let m := match a with
      | some b => b.2
      | none => 0
    if m < sum r then some (r, sum r) else a) none).map (·.1)

/-- How little the engine prefers a Pavilion for a job, in the order of R591 (1 to 4). -/
def pavRank (s : State) (j : Job) (home : Option Nat) (r : Nat) : Nat :=
  let near := match jobOf s j.near with
    | some n => n.cell / 16 == r
    | none => false
  (if home = some r then 0 else 8) + (if near then 0 else 4) + (if j.hint / 2 ^ r % 2 = 1 then 0 else 2) + (if s.flag (plcB + 0x070) r then 1 else 0)

/-- The key that orders cells in R591. -/
def cellKey (s : State) (j : Job) (home : Option Nat) (c : Nat) : Nat := (pavRank s j home (c / 16) * 2 ^ 60 + cellLoad s c) * 128 + c

/-- The cell that the engine chooses among those listed (R591). -/
def bestCell (s : State) (j : Job) (cs : List Nat) : Option Job :=
  let home := homeOf s j
  (cs.foldl (fun (a : Option (Nat × Job)) c =>
    match fitsCell s j c with
    | none => a
    | some x =>
      let k := cellKey s j home c
      match a with
      | none => some (k, x)
      | some b => if k < b.1 then some (k, x) else some b) none).map (·.2)

/-- Every cell. -/
def allCells : List Nat := List.range 128

/-- A cell's load is judged: LOAD_HIGH when it has risen above LOAD_MAX (PLC_EVENT). -/
def judgeCell (s : State) (c : Nat) : State :=
  let x := cellOf s c
  let above := decide (loadMax s < cellLoad s c)
  if above = x.high then s
  else
    let s1 := setCell s c { x with high := above }
    if above then plcEvent s1 7 else s1

/-- Loads and the bandwidth committed are judged: LOAD_HIGH, and CMP_BW_HIGH when PLC_ORG_BW has passed 90 % of its limit (PLC_EVENT). -/
def judgeLoads (s : State) : State :=
  let s1 := forEach (AMap.keys s.plc.cells ++ s.plc.jobs.map fun e => e.2.cell).eraseDups s fun c t => judgeCell t c
  let above := decide (orgMax s * 9 < orgRate s * 10)
  if above = s1.plc.bwHigh then s1
  else
    let s2 := { s1 with plc := { s1.plc with bwHigh := above } }
    if above then plcEvent s2 6 else s2

/-- PLC_NOROOM and its event. -/
def noRoom (s : State) : State := plcEvent (s.count (plcB + 0x10C)) 2

/-- Blocks of a cell in processing end, and the cell is free of jobs: it is gated in P1 or when its EN is 0 (R600, R606). -/
def settleCell (s : State) (c : Nat) : State :=
  if jobsOn s c ≠ [] ∨ jobsTo s c ≠ [] then s
  else
    let x := cellOf s c
    let off := !s.flag (bstB c + 0x004) 0
    let s1 := if off ∧ x.evac then bstEvent (setCell s c { x with evac := false, ready := false }) c 3 else s
    if off ∨ s1.pstate = 1 then setCell s1 c { cellOf s1 c with ready := false } else s1

/-- BST_STATUS as read. -/
def bstStatusView (s : State) (c : Nat) : Word :=
  let n := (jobsOn s c).length
  let st := if cellIsolated s c then 5
    else if !s.flag (bstB c + 0x004) 0 then (if n = 0 then 4 else 3)
    else if !(cellOf s c).ready then 0
    else if n = 0 then 1 else 2
  fieldW 31 28 st ||| fieldW 24 16 n ||| fieldW 7 0 (halfPercent (cellLoad s c))

/-- Is a cell RUNNING (R599)? -/
def cellRuns (s : State) (c : Nat) : Bool := bits (bstStatusView s c) 31 28 == 2

/-- Compute cycles in a tick of `dt` that ends now: of 1.5 GHz, or in bypass of the clock that CORE_BYP selects (R154, R155, R554). -/
def cellTicks (s : State) (dt : Nat) : Nat :=
  let hz := if inBypass s then bypHz s (s.fld (clkB + 0x05C) 6 4) else 1500000000
  s.elapsed * hz / (10 ^ 9 * tuPerNs) - (s.elapsed - dt) * hz / (10 ^ 9 * tuPerNs)

/-- The cycles of the cells that run (R599). -/
def tickCells (s : State) (dt : Nat) : State :=
  if s.plc.jobs = [] ∨ !s.alive ∨ 2 ≤ s.pstate then s
  else
    let n := cellTicks s dt
    forEach ((s.plc.jobs.map fun e => e.2.cell).eraseDups.filter (cellRuns s)) s fun c t => setCell t c { cellOf t c with ran := (cellOf t c).ran + n }

/-- BST_PHYS as read. -/
def bstPhysView (s : State) (c : Nat) : Word := if (cellOf s c).spare then 16 else w32 (c % 16)

/-- PLC_STATUS as read. -/
def plcStatusView (s : State) : Word :=
  fieldW 28 16 s.plc.jobs.length ||| fieldW 11 8 (s.plc.jobs.filter fun e => e.2.move.isSome).length |||
    fieldW 7 0 (allCells.filter (cellServes s)).length

/-- PLC_PAVr_LOAD as read. -/
def plcPavLoadView (s : State) (r : Nat) : Word :=
  let cs := ((List.range 16).map (16 * r + ·)).filter (cellServes s)
  let sum := cs.foldl (fun a c => a + cellLoad s c) 0
  fieldW 20 16 cs.length ||| fieldW 7 0 (if cs = [] then 0 else halfPercent (sum / cs.length))

/-- PLC_ORG_BW as read, in whole GB/s. -/
def plcOrgBwView (s : State) : Word := w32 (min 65535 ((orgRate s + 500000000) / 1000000000))

/-- PLC_JQ_PLACE of a job. -/
def jqPlace (s : State) (h : Nat) : Word :=
  match jobOf s h with
  | some j =>
    bitW 31 (!j.homeless) ||| bitW 30 j.move.isSome ||| bitW 29 (j.orgDelay || j.orgSets != [] || j.orgKib != 0) |||
      fieldW 14 8 j.cell ||| fieldW 7 0 (halfPercent (jobCycles s j))
  | none => 0

/-- PLC_JQ_STAT of a job. -/
def jqStat (s : State) (h : Nat) : Word :=
  match jobOf s h with
  | some j => fieldW 31 16 (min 65535 j.moves) ||| fieldW 11 8 (chainPos s j.ins 8) ||| fieldW 7 0 j.failCode
  | none => 0

/-- A job leaves: its taps go with it, and so do the samples they held. -/
def dropTaps (s : State) (ts : List Nat) : State := { s with plc := { s.plc with taps := AMap.keep s.plc.taps fun t _ => !ts.contains t } }

/-- Delete a job. -/
def removeJob (s : State) (h : Nat) (j : Job) : State :=
  let s1 := { s with plc := { s.plc with jobs := AMap.del s.plc.jobs h } }
  let s2 := if j.packet then s1 else dropTaps s1 j.outs
  let s3 := settleCell (refreshGroups s2) j.cell
  match j.move with
  | some m => settleCell s3 m.dst
  | none => s3

/-- A move in progress ends without success (R596, R772); `code` is what PLC_JQ_STAT then holds. -/
def abandonMove (s : State) (h code : Nat) : State :=
  match jobOf s h with
  | some j =>
    match j.move with
    | some m =>
      settleCell (plcEvent ((refreshGroups (setJob s h { j with move := none, failCode := code })).count (plcB + 0x104)) 1) m.dst
    | none => s
  | none => s

/-- A job restarts on the cell it now has at the next block boundary (R556, R601, R775): with its state when that could be copied, else from initial state;
a delay line in the Orangery stays (R595, R601). -/
def restartJob (keep : Bool) (j : Job) : Job :=
  let k := { j with started := false, proc := none, out := [], behind := 0, move := none }
  if keep then k
  else
    { k with
      sinceReport := 0, line := if j.orgDelay then j.line else [], secs := [], meters := []
      srcs := [], merged := [], changed := false, passed := [], ssrc := none, univ := none }

/-- Is the data memory of a cell that has failed readable (R556)? The spec does not say for which failures: free. -/
def State.readable (s : State) : Bool := bit s.free 0

/-- Place a job afresh (R775), or leave it without a cell. -/
def replaceJob (s : State) (h : Nat) : State :=
  match jobOf s h with
  | none => s
  | some j =>
    let j1 := restartJob s.readable { j with homeless := true }
    let s1 := setJob s.drawn h j1
    match bestCell s1 j1 allCells with
    | some x => plcEvent (refreshGroups (setJob s1 h { x with homeless := false })) 5
    | none => refreshGroups (noRoom s1)

/-- Jobs without a cell are placed when room is found (R775). -/
def placeHomeless (s : State) : State :=
  forEach (s.plc.jobs.filter fun e => e.2.homeless) s fun e t =>
    match bestCell t e.2 allCells with
    | some x => plcEvent (refreshGroups (setJob t e.1 { x with homeless := false })) 5
    | none => t

end Sys2Proof.Machine
end

