-- ==== Sys2Proof/Machine/ContOps.lean ====
section
/-!
DEFINITION. ContOps.lean: containment at the levels of a cell and a block (15_monitoring_and_containment.md R770 to R776) where no port goes
down: the records, compute cells and compute blocks.
-/
namespace Sys2Proof.Machine

/-- A Pavilion's monitor raises RETIRE, and MON_CHIP_SUM shows a retired cell or used spare. -/
def pavRetire (s : State) (r : Nat) : State := pavEvent (s.orReg (monB + 0x040) (bitW r true)) r 20 (pmonB r + 0x044) 5

/-- A block isolation is recorded (R776): MON_BLOCK_LAST, MON_ISOLATED, the summaries, BLOCK_ISOLATED. -/
def recordIsolate (s : State) (ty : BlkTy) (r inst code : Nat) : State :=
  let s1 := (s.wr (monB + 0x058) (fieldW 31 24 ty.code ||| fieldW 23 16 inst ||| fieldW 15 8 code)).count (monB + 0x204)
  let s2 := if ty.inPav then
      let b := match ty with
        | .pav => 16
        | .lan => 17
        | .mac => 18
        | .trk => 19
        | .que => 20
        | .lrn => 21
        | .bst => 22
        | _ => 23
      (s1.orReg (pmonB r + 0x040) (bitW b true)).orReg (monB + 0x040) (bitW (8 + r) true)
    else s1
  latchSource s2 489

/-- BLK_CTRL.ISOLATED of a block. -/
def markIsolated (s : State) (b : Block) : State := s.setFlag (b.base + 0x004) 3 true

/-- Does the source of a lost job's move go, or its destination (R772)? Its move ends, and the job is placed afresh if it stood on cell `c`. -/
def evictJob (s : State) (c : Nat) (e : Nat × Job) : State :=
  let s1 := if e.2.move.isSome ∧ (e.2.cell = c ∨ (e.2.move.map (·.dst)) = some c) then abandonMove s e.1 0x0A else s
  if e.2.cell = c then replaceJob s1 e.1 else s1

/-- Every job leaves a cell that may no longer run (R775). -/
def evictCell (s : State) (c : Nat) : State := forEach s.plc.jobs s fun e t => if e.2.homeless then t else evictJob t c e

/-- The compute block of Pavilion `r` is isolated (R773, R774): every slot reads ISOLATED, and its jobs are placed afresh (R775). -/
def isolateBst (s : State) (r code : Nat) : State :=
  if s.flag (pmonB r + 0x040) 22 then s
  else
    let cs := (List.range 16).map (16 * r + ·)
    let s1 := recordIsolate s .bst r (r * 16) code
    let s2 := forEach (List.range 16) s1 fun k t => markIsolated t ⟨.bst, r, k⟩
    let s3 := s2.setFld (pmonB r + 0x048) 15 0 0xFFFF
    forEach cs s3 fun c t => evictCell (setCell t c { cellOf t c with ready := false }) c

/-- Has the compute block of Pavilion `r` used its spare? -/
def spareUsed (s : State) (r : Nat) : Bool := s.flag (pmonB r + 0x040) 2

/-- A compute cell is retired (R770, R556, R772): its spare takes the slot and each of its jobs restarts there; with no spare left the compute
block is isolated (R773). In a Pavilion or block already isolated it is recorded only (R783). -/
def retireCompute (s : State) (c code : Nat) : State :=
  let r := c / 16
  let has := !spareUsed s r
  let s1 := pavRetire (recordRetire s 2 r (c % 16) code has) r
  if cellIsolated s c then s1
  else if has then
    let s2 := bstEvent (setCell (s1.setFlag (pmonB r + 0x040) 2 true) c { cellOf s1 c with spare := true }) c 2
    let s3 := forEach s2.plc.jobs s2 fun e t =>
      if e.2.move.isSome ∧ (e.2.cell = c ∨ (e.2.move.map (·.dst)) = some c) then abandonMove t e.1 0x0A else t
    let mine := (jobsOn s3 c).map (·.1)
    let s4 := forEach mine s3 fun h t => match jobOf t h with
      | some j => setJob t.drawn h (restartJob t.readable j)
      | none => t
    if mine = [] then s4 else plcEvent s4 5
  else isolateBst (setCell (s1.setFlag (pmonB r + 0x048) (c % 16) true) c { cellOf s1 c with gone := true }) r code

end Sys2Proof.Machine
end

