-- ==== Sys2Proof/Machine/PlcNode.lean ====
section
/-!
DEFINITION. PlcNode.lean: what the node types compute from the samples of a block (11_bandstand_and_placement.md R575, R578 to R580, R582, R586).
Results are exact where the spec determines them (no term, one term of gain 1, a whole delay, a bypassed stage, a peak); the rounding of binary32
sums and the filters' arithmetic, which the spec does not state, are opaque functions of the operands (log entry 19).
-/
namespace Sys2Proof.Machine

/-- A gain as an exact ratio. -/
structure Ratio where
  num : Int
  den : Nat
  deriving DecidableEq, Repr

/-- A binary32 value as a ratio. -/
def ratioOf (x : Int) : Ratio := ⟨x, 2 ^ 149⟩
/-- A product of two. -/
def Ratio.mul (a b : Ratio) : Ratio := ⟨a.num * b.num, a.den * b.den⟩

/-- The sum of samples weighted with gains: terms that are zero do not count, one term of gain 1 is its sample; the rounding of any other sum is not
stated. -/
def mixOf (l : List (Ratio × Word)) : Word :=
  match l.filter fun e => e.1.num != 0 && bits e.2 30 0 != 0 with
  | [] => 0
  | [(g, x)] => if g.num = g.den then x else Config.mixed [(g.num, g.den, x)]
  | m => Config.mixed (m.map fun e => (e.1.num, e.1.den, e.2))

/-- The gain of crosspoint `at_` (row x NIN + column) in gain set `n`. -/
def setGain (j : Job) (at_ n : Nat) : Ratio := ratioOf (f32Val (AMap.getD j.gains (n * j.nin * j.nout + at_) 0))

/-- A crosspoint's gain at sample `k`, under the changes of SET (R580): each crossfade runs linearly from the gain in force at its first sample. -/
def fadeGain (j : Job) (at_ : Nat) (base : Nat) : List Ramp → Nat → Ratio
  | [], _ => setGain j at_ base
  | c :: l, k =>
    if k < c.k0 then fadeGain j at_ base l k
    else
      let t := setGain j at_ (setNum (f32Val c.target))
      if c.k0 + c.len ≤ k then t
      else
        let a := fadeGain j at_ base l c.k0
        let m := k - c.k0
        ⟨a.num * ((c.len - m : Nat) : Int) * t.den + t.num * m * a.den, a.den * c.len * t.den⟩

/-- One sample of output `o` of a MATRIX job, from the samples of its inputs. -/
def matrixOut (j : Job) (o k : Nat) (xs : List Word) : Word :=
  let p := jobParam j 128
  let g := ratioOf (paramAt j o k)
  mixOf (xs.zipIdx.map fun e => ((fadeGain j (o * j.nin + e.2) (setNum p.value) p.chgs k).mul g, e.1))

/-- A delay line takes the samples of a channel from index `k` on; what lies more than MAX_DELAY and a block back is forgotten. -/
def lineTake (j : Job) (m : AMap Word) (k : Nat) (xs : List Word) : AMap Word :=
  AMap.keep (xs.zipIdx.foldl (fun a e => AMap.put a (k + e.2) e.1 0) m) fun i _ => decide (k < i + j.arg0 + j.bsize + 1)

/-- A channel of a DELAY job at sample `k`: the sample a whole number back, or between two by the cell's own interpolation. -/
def delayOut (j : Job) (c k : Nat) (m : AMap Word) : Word :=
  let d := paramAt j c k
  if f32Whole d then (if (k : Int) < d / f32One then 0 else AMap.getD m (k - (d / f32One).toNat) 0) else Config.fracTap (d * 256 / f32One).toNat m k

/-- One sample through stage `i` of a BIQUAD job: bypass hands it on, any other type is its section (R578, R582). -/
def stageOut (j : Job) (i k : Nat) (q : Section) (x : Word) : Word × Section :=
  let ty := (paramAt j (4 * i + 3) k / f32One).toNat
  let y := if ty = 0 then x
    else Config.section_ ty (fsOf j.rate) (paramAt j (4 * i) k) (paramAt j (4 * i + 1) k) (paramAt j (4 * i + 2) k) [x, q.x1, q.x2, q.y1, q.y2]
  (y, ⟨x, q.x1, y, q.y1⟩)

/-- One sample through every stage of channel `c`. -/
def chainOut (j : Job) (c k : Nat) (m : AMap Section) (x : Word) : Word × AMap Section :=
  (List.range j.arg0).foldl (fun a i =>
    let r := stageOut j i k (AMap.getD a.2 (16 * c + i) {}) a.1
    (r.1, AMap.set a.2 (16 * c + i) r.2)) (x, m)

/-- A channel of a METER job takes a sample: the greatest magnitude, and the sum of the squares in units of 2^-298 (R586). -/
def meterTake (a : Nat × Nat) (x : Word) : Nat × Nat := (max a.1 (bits x 30 0), a.2 + (f32Val x).natAbs ^ 2)

/-- The peak and the RMS of a channel over `n` samples as binary32 (R586); the rounding of a root is not stated. -/
def meterWords (a : Nat × Nat) (n : Nat) : List Word := [w32 a.1, if a.2 = 0 then 0 else Config.rootMean a.2 n]

/-- A job processes a block whose first index is `k`, with inputs `xs`, the samples of each: its outputs, and the job after it. `free` are the samples of
a CUSTOM program's outputs, one after another. -/
def nodeBlock (j : Job) (k : Nat) (xs : List (List Word)) (free : List Word) : List (List Word) × Job :=
  let n := j.bsize
  let at_ (c i : Nat) : Word := (xs.getD c []).getD i 0
  let each (f : Nat → Nat → Word) : List (List Word) := (List.range j.nout).map fun o => (List.range n).map fun i => f o i
  match j.kind with
  | 0x01 => (each fun o i => matrixOut j o (k + i) ((List.range j.nin).map fun c => at_ c i), j)
  | 0x02 => (each fun o i => mixOf [(ratioOf (paramAt j o (k + i)), at_ o i)], j)
  | 0x03 =>
    let lines := (List.range j.nin).map fun c => lineTake j (j.line.getD c []) k (xs.getD c [])
    (each fun o i => delayOut j o (k + i) (lines.getD o []), { j with line := lines })
  | 0x04 =>
    let one (m : AMap Section) (c : Nat) : List Word × AMap Section :=
      (List.range n).foldl (fun a i =>
        let r := chainOut j c (k + i) a.2 (at_ c i)
        (a.1 ++ [r.1], r.2)) ([], m)
    let r := (List.range j.nin).foldl (fun a c =>
      let x := one a.2 c
      (a.1 ++ [x.1], x.2)) (([], j.secs) : List (List Word) × AMap Section)
    (r.1, { j with secs := r.2 })
  | 0x05 => ([], { j with meters := (List.range j.nin).map fun c => (xs.getD c []).foldl meterTake (j.meters.getD c (0, 0)) })
  | 0x08 => (each fun o i =>
      let sel := paramAt j 0 (k + i)
      mixOf [(ratioOf (f32One - sel), at_ o i), (ratioOf sel, at_ (j.nout + o) i)], j)
  | 0x80 => (each fun o i => free.getD (o * n + i) 0, j)
  | _ => ([], j)

end Sys2Proof.Machine
end

