-- ==== Sys2Proof/Machine/PlcRun.lean ====
section
/-!
DEFINITION. PlcRun.lean: what the Bandstand does with blocks, taps and packets (11_bandstand_and_placement.md R557 to R569, R583 to R586, R595 to
R597). A block is computed when its processing starts and published, or replaced by zeros, at the next boundary.
-/
namespace Sys2Proof.Machine

/-- `n` free words. -/
def freeWords (s : State) (n : Nat) : List Word := (List.range n).map fun i => Config.freeWord (s.fresh + i)
/-- Move past `n` free values. -/
def State.drew (s : State) (n : Nat) : State := { s with fresh := s.fresh + n }
/-- `n` free bytes. -/
def freeBytes (s : State) (n : Nat) : List Byte := (List.range n).map fun i => Config.freeByte (s.fresh + i)

/-- The sample of a tap at an index: one that received none reads 0 (R567). -/
def sampleOf (s : State) (tap k : Nat) : Word := AMap.getD (AMap.getD s.plc.taps tap []) k 0

/-- The samples from index `k` on that lie in the stretch of `n` from `f` join those a job has of a tap; once its last index has passed, that one is
listed. -/
def gather (m : AMap Word) (f n k : Nat) (l : List Word) : AMap Word :=
  let m1 := l.zipIdx.foldl (fun (a : AMap Word) e => if f ≤ k + e.2 ∧ k + e.2 < f + n then AMap.set a (k + e.2) e.1 else a) m
  if f + n ≤ k + l.length ∧ (AMap.get m1 (f + n - 1)).isNone then AMap.set m1 (f + n - 1) 0 else m1

/-- A MODE 1 Grotto job takes the samples from index `k` on of a tap that it reads, from the first X sample at or after its start instant on (R322); with
all of them it asks for its coarse stage (R293). -/
def grtFeed (s : State) (j tap k : Nat) (l : List Word) : State :=
  let src := s.rd (grtCfg j + 4)
  let isX := bits src 15 0 == tap
  let isY := bits src 31 16 == tap
  if s.fld (grtCfg j) 1 0 = 1 ∧ grtState s j = 2 ∧ (isX || isY) = true then
    let x := jobRec s j
    let f := x.first.getD (indexFrom x.start ((tapRate s tap).getD 0))
    let n := grtSamples s j
    let y := { x with first := some f, xs := if isX then gather x.xs f n k l else x.xs, ys := if isY then gather x.ys f n k l else x.ys }
    let done := (AMap.get y.xs (f + n - 1)).isSome && (AMap.get y.ys (f + n - 1)).isSome && !s.gns.acqs.contains (AcqWho.job j)
    let s1 := setJobRec s j y
    if done then { s1 with gns := { s1.gns with acqs := s1.gns.acqs ++ [AcqWho.job j] } } else s1
  else s

/-- Write samples from index `k` of a tap; those whose index lies more than 2,048 before the present one are forgotten: no block or packet needs them any
more. Grotto jobs that read the tap take the new ones too. -/
def putSamples (s : State) (tap k : Nat) (l : List Word) : State :=
  let old := (AMap.getD s.plc.taps tap []).filter fun e => decide (indexNow s ((tapRate s tap).getD 0) < e.1 + 2048)
  let new := (l.zip (List.range l.length)).foldl (fun m e => AMap.set m (k + e.2) e.1) old
  forEach (List.range 8) { s with plc := { s.plc with taps := AMap.set s.plc.taps tap new } } fun j t => grtFeed t j tap k l

/-- May a block overrun (R561): a cell loaded beyond LOAD_MAX, the clocks in bypass, a CUSTOM job? -/
def mayOverrun (s : State) (j : Job) : Bool := decide (loadMax s < cellLoad s j.cell) || inBypass s || j.kind == 0x80

/-- Is a job's block an overrun (R561): not finished, where that can be (`mayOverrun`), or of a CUSTOM job that ran longer than its image declares (R587)? -/
def overran (s : State) (j : Job) (r : Option JobRun) : Bool :=
  match r with
  | some x => (x.late && mayOverrun s j) || (j.kind == 0x80 && decide (j.c0 + j.c1 * j.bsize < x.cycles))
  | none => false

/-- A METER job's report of the blocks since the last one, due every REPORT blocks (R586, R654). -/
def meterReport (s : State) (h : Nat) (j : Job) (b : Nat) : State :=
  if j.sinceReport + 1 < j.arg0 then setJob s h { j with sinceReport := j.sinceReport + 1 }
  else
    let last := (b * j.bsize + j.bsize - 1) * tuPerSec / fsOf j.rate
    let stamp := compactStamp s 2 last false 0
    let vals := (List.range j.nin).flatMap fun c => meterWords (j.meters.getD c (0, 0)) (j.arg0 * j.bsize)
    let parts := (List.range ((j.nin + 1) / 2)).map fun i =>
      let n := if 2 * i + 1 < j.nin then 2 else 1
      [fieldW 15 8 n ||| fieldW 7 0 (2 * i)] ++ dwPair stamp ++ (vals.drop (4 * i)).take (2 * n)
    let x := eventWrite (setJob s h { j with sinceReport := 0, meters := [] }) (j.arg1 % 256) 0x07 h parts
    if x.2 then x.1 else x.1.count (plcB + 0x118)

/-- Block `b` of job `h` is published: its outputs, or zeros where it overran (R559, R561); `late` says that it is still unfinished. -/
def publish (s : State) (h : Nat) (j : Job) (b : Nat) (overran late : Bool) : State :=
  let n := j.bsize
  let s1 := if j.packet then s
    else forEach j.outs.zipIdx s fun e t => putSamples t e.1 (b * n) (if overran then List.replicate n 0 else j.out.getD e.2 [])
  let s2 := (setJob s1 h { j with behind := if late then j.behind + 1 else 0, blocks := min (2 ^ 32 - 1) (j.blocks + 1), overs := if overran then min (2 ^ 32 - 1) (j.overs + 1) else j.overs }).count
    (bstB j.cell + 0x128)
  let s3 := if overran then plcEvent (bstEvent ((s2.count (bstB j.cell + 0x12C)).count (plcB + 0x110)) j.cell 0) 3 else s2
  if j.kind = 5 then (match jobOf s3 h with
    | some k => meterReport s3 h k b
    | none => s3) else s3

/-- The move of a job at a boundary (R595, R596): both cells start a block once the state is copied; their outputs match, or not, at the
next. While the source has not finished its block, its state cannot have been copied. The code that PLC_JQ_STAT keeps of a failed move is not stated: free
among those of R93. -/
def moveStep (s : State) (h : Nat) (bad late : Bool) : State :=
  match jobOf s h with
  | none => s
  | some j =>
    match j.move with
    | none => s
    | some m =>
      match if m.step = 1 ∧ late then 0 else m.step with
      | 0 =>
        if 15 ≤ m.tries then (abandonMove s h s.freeCode).drawn
        else setJob s h { j with move := some { m with step := 0, tries := m.tries + 1 } }
      | 1 => setJob s h { j with move := some { m with step := 2 } }
      | _ =>
        if bad then (abandonMove s h s.freeCode).drawn
        else
          let x := layout j (cellFree s m.dst + j.dm)
          let s1 := setJob s h { x with cell := m.dst, move := none, moves := j.moves + 1 }
          settleCell (plcEvent ((refreshGroups s1).count (plcB + 0x100)) 0) j.cell

/-- A job's block in processing ends at a boundary of its clock (R559): it is published and the job's move goes on; a job that is to stop goes. -/
def endBlock (s : State) (h : Nat) (r : Option JobRun) (bad : Bool) : State :=
  match jobOf s h with
  | none => s
  | some j =>
    let late := (match r with
      | some x => x.late
      | none => false) && mayOverrun s j
    let s1 := match j.proc with
      | some b => moveStep (publish s h j b (overran s j r) late) h bad late
      | none => s
    match jobOf s1 h with
    | none => s1
    | some k => if k.stopping then removeJob s1 h k else s1

/-- The samples of a tap that a job of the same clock reads for block `b`: its predecessor's outputs for that block (R559), or what an input stream wrote. -/
def tapBlock (s : State) (b n t : Nat) : List Word :=
  match tapJob s t with
  | some e => if e.2.proc = some b then e.2.out.getD (e.2.outs.idxOf t) [] else []
  | none => (List.range n).map fun i => sampleOf s t (b * n + i)

/-- A job starts to process block `b` (R559), once its cell is ready. -/
def startBlock (s : State) (h b : Nat) : State :=
  match jobOf s h with
  | none => s
  | some j =>
    if !((cellOf s j.cell).ready && cellServes s j.cell || j.proc.isSome) then s
    else if j.packet then setJob s h { j with started := true, proc := some b }
    else
      let free := if j.kind = 0x80 then j.nout * j.bsize else 0
      let r := nodeBlock j (b * j.bsize) (j.ins.map (tapBlock s b j.bsize)) (freeWords s free)
      setJob (s.drew free) h { r.2 with started := true, proc := some b, out := r.1 }

/-- The one's-complement sum of bytes taken in 16-bit words. -/
def onesSum : List Byte → Nat
  | a :: b :: t =>
    let x := onesSum t + a.toNat * 256 + b.toNat
    x % 65536 + x / 65536
  | [a] => a.toNat * 256
  | [] => 0

/-- Fold a one's-complement sum and complement it. -/
def csum16 (x : Nat) : Nat := 65535 - (x % 65536 + x / 65536) % 65536

/-- Fill the lengths and checksums that R569 names, in a frame built from a header template. -/
def fillHeaders (bs : List Byte) : List Byte :=
  let h := parse bs
  let ip := h.toff + 2
  let b1 :=
    if h.v4 then
      let x := putNet (putNet bs (ip + 2) 2 (bs.length - ip)) (ip + 10) 2 0
      putNet x (ip + 10) 2 (csum16 (onesSum ((x.drop ip).take (h.l4 - ip))))
    else if h.v6 then putNet bs (ip + 4) 2 (bs.length - h.l4)
    else bs
  if h.udp.isSome then
    let n := bs.length - h.l4
    let b2 := putNet (putNet b1 (h.l4 + 4) 2 n) (h.l4 + 6) 2 0
    if h.v4 then b2
    else
      let pseudo := (b2.drop (ip + 8)).take 32 ++ netOfNat 4 n ++ netOfNat 4 17
      let c := csum16 (onesSum (pseudo ++ b2.drop h.l4))
      putNet b2 (h.l4 + 6) 2 (if c = 0 then 65535 else c)
  else b1

/-- Where the payload after a template's headers starts: after UDP, or at its end where it holds none. -/
def payloadOff (tpl : List Byte) : Nat :=
  let h := parse tpl
  if h.udp.isSome then h.l4 + 8 else tpl.length

/-- A template cut or filled out with free bytes to `n` bytes. -/
def tplTo (s : State) (tpl : List Byte) (n : Nat) : List Byte := tpl.take n ++ freeBytes s (n - tpl.length)

/-- Bytes of samples on the wire: L24 or L16 (R573), the sample's most significant bits first. A tap's word holds its sample in its upper
bits. -/
def wireSample (enc : Nat) (w : Word) : List Byte := if enc = 0 then netOfNat 3 (w.toNat / 256) else netOfNat 2 (w.toNat / 65536)

/-- The Pavilion that sends a stream's packets: that of the job writing its first tap. -/
def streamPav (s : State) (x : Stream) : Nat :=
  match tapJob s x.tapBase with
  | some e => e.2.cell / 16
  | none => 0

/-- One packet of an AUDIO_OUT stream, from sample index `k` (R568, R569). -/
def audioPacket (s : State) (h : Nat) (x : Stream) (k : Nat) : State :=
  let o := payloadOff x.tpl
  let hdr := tplTo s x.tpl (o + 12)
  let body := (List.range x.ptime).flatMap fun i => (List.range x.ch).flatMap fun c => wireSample x.enc (sampleOf s (x.tapBase + c) (k + i))
  let bs := putNet (putNet hdr (o + 2) 2 (x.seq % 65536)) (o + 4) 4 ((k + x.rtpOfs) % 2 ^ 32) ++ body
  let s1 := setStream (s.drew (o + 12 - x.tpl.length)) h { x with next := some (k + x.ptime), seq := x.seq + 1 }
  computeFrame s1 (streamPav s x) x.cls (fillHeaders bs)

/-- The packets of a stream whose last sample lies before `done` (R568); none before the first. -/
def audioOut (s : State) (h done : Nat) : Nat → State
  | 0 => s
  | fuel + 1 =>
    match streamOf s h with
    | none => s
    | some x =>
      match x.next with
      | none => setStream s h { x with next := some done }
      | some k => if k + x.ptime ≤ done then audioOut (audioPacket s h x k) h done fuel else s

/-- Send an AUDIO_OUT stream what the jobs of a clock have just published: samples before index `done`. A stream whose taps an input stream writes is
served by the boundaries of the shortest blocks, one whose taps several jobs write by those of the longest. -/
def serveStream (s : State) (rate blog done : Nat) (e : Nat × Stream) : State :=
  let x := e.2
  if x.skind ≠ 2 ∨ x.rate ≠ rate then s
  else
    let longest := (List.range x.ch).foldl (fun a c => match tapJob s (x.tapBase + c) with
      | some j => max a j.2.blog
      | none => a) 3
    if longest = blog then
      let s1 := match x.next with
        | some k => if done + 4096 < k then setStream s e.1 { x with next := some done } else s
        | none => s
      audioOut s1 e.1 done 33
    else s

/-- The constant bytes of an E1.31 data packet (PRESUMED, ANSI E1.31, log entry 20), with the fields that R584 names filled in: CID and universe are
the template's where it reaches them, free bytes otherwise. -/
def dmxPayload (s : State) (tpl : List Byte) (seq prio : Nat) (slots : List Byte) : List Byte :=
  let n := slots.length
  let o := payloadOff tpl
  let own := tpl.drop o
  let len (from_ : Nat) : List Byte := netOfNat 2 (0x7000 + (126 + n - from_))
  let plain := netOfNat 2 0x10 ++ netOfNat 2 0 ++ netOfNat 12 0x4153432D45312E3137000000 ++ len 16 ++ netOfNat 4 4 ++ freeBytes s 16 ++
    len 38 ++ netOfNat 4 2 ++ ((freeBytes s 80).drop 16) ++ netOfNat 1 prio ++ netOfNat 2 0 ++ netOfNat 1 (seq % 256) ++ netOfNat 1 0 ++
    ((freeBytes s 82).drop 80) ++ len 115 ++ netOfNat 1 2 ++ netOfNat 1 0xA1 ++ netOfNat 2 0 ++ netOfNat 2 1 ++ netOfNat 2 (n + 1) ++ netOfNat 1 0
  let keep (i : Nat) : Bool := decide (22 ≤ i) && decide (i < 38) || decide (113 ≤ i) && decide (i < 115)
  ((List.range 126).map fun i => if keep i then own.getD i (plain.getD i 0) else plain.getD i 0) ++ slots

/-- The sources that take part in a merge (R583): enabled, heard within 2.5 s, at the highest priority heard. -/
def dmxParts (s : State) (j : Job) : List DmxSrc :=
  let on (x : DmxSrc) : Bool := paramAt j x.idx (indexNow s j.rate) != 0
  let heard := j.srcs.filter fun x => on x && decide (s.elapsed ≤ x.lastAt + 2500000000 * tuPerNs)
  let top := (heard.map (·.prio)).foldl max 0
  heard.filter fun x => x.prio == top

/-- The merged slots (R583): MODE 0 highest, MODE 1 latest takes precedence. -/
def dmxMerge (s : State) (j : Job) : List Byte :=
  let ps := dmxParts s j
  let n := (ps.map fun x => x.slots.length).foldl max 0
  if j.arg0 % 2 = 0 then
    (List.range n).map fun i => BitVec.ofNat 8 ((ps.map fun x => (x.slots.getD i 0).toNat).foldl max 0)
  else (ps.foldl (fun (a : Nat × List Byte) x => if a.1 ≤ x.lastAt then (x.lastAt, x.slots) else a) (0, [])).2

/-- The universe is merged again; a slot that changed is to be sent (R584). -/
def dmxRefresh (s : State) (j : Job) : Job :=
  let m := dmxMerge s j
  if m = j.merged then j else { j with merged := m, changed := true }

/-- The output stream of a packet job. -/
def outStream (s : State) (j : Job) : Option Stream := match j.outs with
  | [h] => streamOf s h
  | _ => none

/-- An E131_MERGE job sends its universe (R584). -/
def dmxSend (s : State) (h : Nat) (j : Job) : State :=
  match outStream s j with
  | none => s
  | some x =>
    let prio := ((dmxParts s j).map (·.prio)).foldl max 0
    let bs := x.tpl.take (payloadOff x.tpl) ++ dmxPayload s x.tpl j.seq prio j.merged
    let s1 := setJob (s.drew 82) h { j with seq := (j.seq + 1) % 256, sentAt := s.elapsed, changed := false }
    computeFrame s1 (j.cell / 16) x.cls (fillHeaders bs)

/-- The jobs of a clock that run, in chain order. -/
def clockJobs (s : State) (rate blog : Nat) : List Nat :=
  let l := s.plc.jobs.filter fun e => e.2.rate == rate && e.2.blog == blog && !e.2.homeless
  (List.range 9).flatMap fun p => (l.filter fun e => chainPos s e.2.ins 8 == p).map (·.1)

/-- Half a block's length in elapsed time (R562). -/
def halfBlock (rate blog : Nat) : Nat := 2 ^ blog * tuPerSec / (2 * fsOf rate)

/-- Node time just before the present tick, on the present count: a step is no passage of time (R562). -/
def timeBefore (s : State) : Nat :=
  let inc := baseInc s (activeDom s)
  if s.sun.before ≤ nodeTime s ∧ nodeTime s ≤ s.sun.before + 2 * inc then s.sun.before else nodeTime s - inc

/-- Is a strobe of a clock due: the present tick reaches a boundary, at least half a block after the last strobe (R557, R558, R562)? -/
def boundaryDue (s : State) (rate blog : Nat) : Bool :=
  decide (indexAt (timeBefore s) rate / 2 ^ blog < indexNow s rate / 2 ^ blog) &&
    (match AMap.get s.plc.clocks (16 * rate + blog) with
     | none => true
     | some c => decide (c.at_ + halfBlock rate blog ≤ s.elapsed))

/-- What a cell has done since its last report: its block time in ns, and in which class the issue slots of its cycles while RUNNING fell (R599), no more than
there were; every slot not retired, wasted or front-starved is back-starved. -/
def takeWork (s : State) (w : CellWork) : State :=
  let a := bstB w.cell
  let x := cellOf s w.cell
  let ret := min w.ret (2 * x.ran)
  let waste := min w.waste (2 * x.ran - ret)
  let front := min w.front (2 * x.ran - ret - waste)
  let s1 := (((setCell s w.cell { x with ran := 0 }).count64 (a + 0x100) x.ran).count64 (a + 0x108) ret).count64 (a + 0x110) waste
  let s2 := (s1.count64 (a + 0x118) front).count64 (a + 0x120) (2 * x.ran - ret - waste - front)
  histSample s2 (some (w.cell.val / 16)) 3 (w.cell.val % 16) 0 (w.ns : Int)

/-- A strobe of a block clock (R557 to R562): blocks in processing end and are published, then the next ones start, both in chain order. -/
def runBoundary (s : State) (rate blog : Nat) (runs : List JobRun) (bad : List Nat) (work : List CellWork) : State :=
  let n := indexNow s rate / 2 ^ blog
  let s1 := { s with plc := { s.plc with clocks := AMap.set s.plc.clocks (16 * rate + blog) ⟨n, s.elapsed⟩ } }
  let s0 := forEach (clockJobs s1 rate blog) s1 fun h t => endBlock t h (runs.find? fun r => r.job.toNat == h) (bad.contains h)
  let s2 := forEach (clockJobs s0 rate blog) s0 fun h t => startBlock t h (n - 1)
  let s3 := forEach s2.plc.streams s2 fun e t => serveStream t rate blog ((n - 1) * 2 ^ blog) e
  let s4 := forEach (clockJobs s3 rate blog) s3 fun h t => match jobOf t h with
    | some j =>
      let k := dmxRefresh t j
      if j.kind = 6 ∧ j.started then (if k.changed then dmxSend t h k else setJob t h k) else t
    | none => t
  let s5 := forEach work s4 fun w t => takeWork t w
  judgeLoads (perfCount (placeHomeless s5) none { ev := 0x05 } (s5.plc.jobs.foldl (fun a e =>
    if e.2.rate = rate ∧ e.2.blog = blog ∧ e.2.started then a + jobOrgRate s5 e.2 * 2 ^ blog / fsOf rate else a) 0))

end Sys2Proof.Machine
end

