-- ==== Sys2Proof/Machine/Plc.lean ====
section
/-!
DEFINITION. Plc.lean: the events of the Bandstand and the compute operations (11_bandstand_and_placement.md R554 to R601, 12_host_rings.md R648 to
R651), one meaning per row of the table.
-/
namespace Sys2Proof.Machine

/-- Do the compute cells run: powered (R36), in a mode that runs jobs (R64), and not stopped by a fatal fault (R780) or an entry to P2 past its
commit point (R716)? -/
def cellsRun (s : State) : Bool :=
  s.alive && decide (s.pstate ≤ 1) && s.mode != 0 && s.mode != 2 && !s.flag (monB + 0x048) 31 && (match s.pwr.change with
    | .gating _ => false
    | _ => true)

/-- Cells with a block unfinished after four processing periods (R770). -/
def stuckCells (s : State) : List Nat := ((s.plc.jobs.filter fun e => decide (4 ≤ e.2.behind)).map fun e => e.2.cell).eraseDups

/-- BLOCK_BOUNDARY (R557 to R562, R770): the strobe of the clock of RATE `rate` and BLOCK_LOG 3 + `blog`. `runs` says what jobs did in the period that ends,
`bad` are those whose two cells' outputs differ, `work` is what cells report. The code recorded for a stuck cell is not stated: free among
those of R93. -/
def execBlockBoundary (rate : Bool) (blog : Fin 6) (runs : List JobRun) (bad : List (BitVec 16)) (_stuck : Unit) (work : List CellWork) (s : State) : Result :=
  let r := if rate then 1 else 0
  if !cellsRun s ∨ !boundaryDue s r (3 + blog.val) then .next s
  else
    let s1 := runBoundary s r (3 + blog.val) runs (bad.map (·.toNat)) work
    .next (forEach (stuckCells s1) s1 fun c t => retireCompute t.drawn c t.freeCode)

/-- May the engine move a job from its cell, and to which it would go (R592)? -/
def moveTarget (s : State) (j : Job) : Option Job :=
  let others := allCells.filter (· ≠ j.cell)
  if loadMax s < cellLoad s j.cell ∨ !s.flag (bstB j.cell + 0x004) 0 ∨ cellIsolated s j.cell then bestCell s j others
  else
    let home := homeOf s j
    let better := if s.flag (plcB + 0x050) 1 then bestCell s j (others.filter fun c => pavRank s j home (c / 16) < pavRank s j home (j.cell / 16)) else none
    match better with
    | some x => some x
    | none =>
      if s.flag (plcB + 0x050) 0 ∧ s.pstate = 1 ∧ (jobsOn s j.cell).length = 1 then bestCell s j (others.filter fun c => jobsOn s c ≠ []) else none

/-- Moves in progress, on the chip and from one cell (R593). -/
def movesNow (s : State) : List (Nat × Job) := s.plc.jobs.filter fun e => e.2.move.isSome

/-- JOB_MOVE_START (R592, R593, step 1 of R595): the engine decides to move job `h`. A job that has no block in processing has nothing to copy: it takes its new
cell at once. -/
def execJobMoveStart (h : BitVec 16) (_home : Unit) (s : State) : Result :=
  match jobOf s h.toNat with
  | none => .next s
  | some j =>
    if !cellsRun s ∨ j.homeless ∨ j.move.isSome ∨ j.stopping ∨ 8 ≤ (movesNow s).length ∨ ((movesNow s).any fun e => e.2.cell == j.cell) = true then
      .next s
    else
      match moveTarget s j with
      | none => .next s
      | some x =>
        if j.proc.isNone then .next (settleCell (refreshGroups (setJob s h.toNat x)) j.cell)
        else .next (refreshGroups (setJob s h.toNat { j with move := some { dst := x.cell } }))

/-- JOB_STATE_COPY (step 2 of R595): the state after the block that the source has finished is copied. -/
def execJobStateCopy (h : BitVec 16) (s : State) : Result :=
  match jobOf s h.toNat with
  | some j =>
    match j.move with
    | some m =>
      if m.step = 0 ∧ cellsRun s ∧ (cellOf s m.dst).ready then .next (setJob s h.toNat { j with move := some { m with step := 1 } }) else .next s
    | none => .next s
  | none => .next s

/-- The frames delivered to a Pavilion's compute port. -/
def inboxOf (s : State) (r : Nat) : List Frame := AMap.getD s.sw.inbox r []
/-- Replace them. -/
def setInbox (s : State) (r : Nat) (l : List Frame) : State := { s with sw := { s.sw with inbox := AMap.put s.sw.inbox r l [] } }

/-- The streams of SKIND `k` that a frame's group delivers. -/
def streamsFor (s : State) (f : Frame) (k : Nat) : List (Nat × Stream) :=
  s.plc.streams.filter fun e => e.2.skind == k && (match f.grp with
    | some g => e.2.grp == g
    | none => false)

/-- The packet jobs of kind `k` on Pavilion `r` that a frame reaches, with the stream it comes by. -/
def packetJobs (s : State) (r : Nat) (f : Frame) (k : Nat) : List (Nat × Nat) :=
  (streamsFor s f 3).flatMap fun x =>
    (s.plc.jobs.filter fun e => e.2.kind == k && e.2.cell / 16 == r && !e.2.homeless && e.2.started && e.2.ins.contains x.1).map fun e => (e.1, x.1)

/-- A packet has brought a stream to the compute ports (R576, R591): it counts once, at the lowest port that has it, and the stream keeps the network port by
which it came. -/
def countPacket (s : State) (r : Nat) (f : Frame) (h : Nat) : State :=
  match streamOf s h with
  | none => s
  | some x =>
    let first := (List.range r).all fun q => !bit (cmpMask s x.grp) (1 + q)
    let y := x.secondsOver s.elapsed
    setStream s h { y with count := if first then y.count + 1 else y.count, inPort := if f.ing < 128 then some f.ing else y.inPort }

/-- Where the UDP payload of a frame starts and ends. -/
def udpPayload (bs : List Byte) : Option (List Byte) :=
  let h := parse bs
  if h.udp.isSome ∧ 8 ≤ getNet bs (h.l4 + 4) 2 then some ((bs.drop (h.l4 + 8)).take (getNet bs (h.l4 + 4) 2 - 8)) else none

/-- Where the payload of an RTP packet starts. -/
def rtpHeader (p : List Byte) : Nat :=
  let n := 12 + 4 * (getNet p 0 1 % 16)
  if getNet p 0 1 / 16 % 2 = 1 then n + 4 + 4 * getNet p (n + 2) 2 else n

/-- The media index of a timestamp: the value nearest `now` that is congruent to it modulo 2^32 (R566). -/
def mediaIndex (ts ofs now : Nat) : Int :=
  let m := (ts + 2 ^ 32 - ofs % 2 ^ 32) % 2 ^ 32
  (now : Int) + signedOf 32 ((m + 2 ^ 32 - now % 2 ^ 32) % 2 ^ 32)

/-- The jobs on Pavilion `r` that read a tap. -/
def tapReaders (s : State) (r tap : Nat) : List (Nat × Job) :=
  s.plc.jobs.filter fun e => !e.2.packet && !e.2.homeless && e.2.cell / 16 == r && e.2.ins.contains tap

/-- Is tap index `k` late for a job: has the processing of its block begun (R559, R567)? -/
def lateFor (s : State) (j : Job) (k : Nat) : Bool := decide (k / j.bsize + 1 ≤ indexNow s j.rate / j.bsize)

/-- One sample of a stream reaches its tap, or is discarded as late (R566, R567): late for a job whose processing of the sample's block has begun, and kept for
the others that read the tap at longer blocks. -/
def putIn (s : State) (r tap : Nat) (k : Int) (v : Word) : State :=
  if k < 0 then s
  else
    let readers := tapReaders s r tap
    let lates := readers.filter fun e => lateFor s e.2 k.toNat
    let s1 := if lates ≠ [] ∧ lates.length = readers.length then s else putSamples s tap k.toNat [v]
    if lates = [] then s1
    else
      forEach lates (s1.count (plcB + 0x114)) fun e t => match jobOf t e.1 with
        | some j => setJob t e.1 { j with late := min (2 ^ 32 - 1) (j.late + 1) }
        | none => t

/-- The samples of an AUDIO_IN packet (R566). -/
def takeAudio (s : State) (r : Nat) (x : Stream) (p : List Byte) : State :=
  let w := if x.enc = 0 then 3 else 2
  let body := p.drop (rtpHeader p)
  let m := mediaIndex (getNet p 4 4) x.rtpOfs (indexNow s x.rate) + x.linkOfs
  forEach (List.range (body.length / (w * x.ch))) s fun i t =>
    forEach (List.range x.ch) t fun c u => putIn u r (x.tapBase + c) (m + i) (w32 (getNet body ((i * x.ch + c) * w) w * 2 ^ (32 - 8 * w)))

/-- The job's source of a CID, or the index of a new one: the lowest free. -/
def dmxIndex (j : Job) : Option Nat := (List.range 16).find? fun i => !(j.srcs.any fun x => x.idx == i)

/-- An E1.31 packet reaches a merge job (R583). Offsets as in ANSI E1.31 (PRESUMED, log entry 20). -/
def takeDmx (s : State) (h : Nat) (p : List Byte) : State :=
  match jobOf s h with
  | none => s
  | some j =>
    let cid := getNet p 22 16
    let opts := getNet p 112 1
    let ok := getNet p 4 12 = 0x4153432D45312E3137000000 ∧ getNet p 18 4 = 4 ∧ getNet p 40 4 = 2 ∧ getNet p 117 1 = 2 ∧ getNet p 125 1 = 0 ∧ 126 ≤ p.length
    let univ := getNet p 113 2
    if !decide ok ∨ opts / 128 = 1 ∨ !(j.univ == none || j.univ == some univ) then s
    else if opts / 64 % 2 = 1 then setJob s h (dmxRefresh s { j with srcs := j.srcs.filter fun x => x.cid != cid })
    else
      let slots := (p.drop 126).take (getNet p 123 2 - 1)
      let known := j.srcs.find? fun x => x.cid == cid
      let idx := match known with
        | some x => some x.idx
        | none => dmxIndex j
      match idx with
      | none => s.count (plcB + 0x118)
      | some i =>
        let x : DmxSrc := { cid := cid, prio := getNet p 108 1, lastAt := s.elapsed, slots := slots, idx := i }
        setJob s h (dmxRefresh s { j with univ := some univ, srcs := (j.srcs.filter fun y => y.cid != cid) ++ [x] })

/-- E131_SOURCE_TIMEOUT (R583): the sources of job `h` silent for 2.5 s are dropped. -/
def execE131SourceTimeout (h : BitVec 16) (s : State) : Result :=
  match jobOf s h.toNat with
  | some j =>
    if j.kind = 6 then .next (setJob s h.toNat (dmxRefresh s { j with srcs := j.srcs.filter fun x => decide (s.elapsed < x.lastAt + 2500000000 * tuPerNs) }))
    else .next s
  | none => .next s

/-- E131_KEEPALIVE (R584): KEEPALIVE ms have passed since job `h` last sent its universe. -/
def execE131Keepalive (h : BitVec 16) (s : State) : Result :=
  match jobOf s h.toNat with
  | some j =>
    if j.kind = 6 ∧ j.started ∧ cellsRun s ∧ j.sentAt + j.arg1 * 1000000 * tuPerNs ≤ s.elapsed then .next (dmxSend s h.toNat j) else .next s
  | none => .next s

/-- An RTP packet reaches an ST2022_7_MERGE job: passed with the template's headers, or dropped (R585). -/
def takeRtp (s : State) (h : Nat) (p : List Byte) : State :=
  match jobOf s h with
  | none => s
  | some j =>
    let ssrc := getNet p 8 4
    let seq := getNet p 2 2
    let other : Bool := match j.ssrc with
      | some x => decide (x ≠ ssrc)
      | none => false
    if p.length < 12 ∨ other ∨ j.passed.contains seq then s.count (plcB + 0x118)
    else
      let s1 := setJob s h { j with ssrc := some ssrc, passed := (seq :: j.passed).take 32768 }
      match outStream s1 j with
      | some x => computeFrame s1 (j.cell / 16) x.cls (fillHeaders (x.tpl.take (payloadOff x.tpl) ++ p))
      | none => s1

/-- Does an AUDIO_IN stream, or a packet job on Pavilion `r`, take a frame? -/
def usesFrame (s : State) (r : Nat) (f : Frame) : Bool := streamsFor s f 1 != [] || packetJobs s r f 6 != [] || packetJobs s r f 7 != []

/-- A frame at a compute port goes to everything that takes it (R566, R583, R585). -/
def takeFrame (s : State) (r : Nat) (f : Frame) : State :=
  match udpPayload f.bytes with
  | none => s
  | some p =>
    let s1 := forEach (streamsFor s f 1 ++ streamsFor s f 3) s fun e t => countPacket t r f e.1
    let s2 := forEach (streamsFor s f 1) s1 fun e t => takeAudio t r e.2 p
    let s3 := forEach (packetJobs s r f 6) s2 fun e t => takeDmx t e.1 p
    forEach (packetJobs s r f 7) s3 fun e t => takeRtp t e.1 p

/-- The oldest frame of a compute port that anything takes is taken, if it is one of those that `mine` names; frames that nothing takes any more are left
out. -/
def takeHead (s : State) (r : Nat) (mine : Frame → Bool) : State :=
  match if cellsRun s then (inboxOf s r).dropWhile (fun f => !usesFrame s r f) else [] with
  | [] => s
  | f :: l => if mine f then setInbox (takeFrame s r f) r l else s

/-- AUDIO_IN_PACKET (R566, R567): the oldest frame of Pavilion `r`'s compute port, when a group of an AUDIO_IN stream delivered it. -/
def execAudioInPacket (r : Fin 8) (s : State) : Result := .next (takeHead s r fun f => streamsFor s f 1 != [])

/-- E131_PACKET (R583): the oldest frame of Pavilion `r`'s compute port, for the E131_MERGE jobs that its stream feeds. -/
def execE131Packet (r : Fin 8) (s : State) : Result := .next (takeHead s r fun f => packetJobs s r f 6 != [])

/-- ST2022_7_PACKET (R585): the oldest frame of Pavilion `r`'s compute port, for the merge jobs that its stream feeds. -/
def execSt20227Packet (r : Fin 8) (s : State) : Result := .next (takeHead s r fun f => packetJobs s r f 7 != [])

/-- CELL_READY (R600): a gated cell in service is ready for a job; in P1 only one that has a job, or is to take one, is ungated. -/
def execCellReady (c : Fin 128) (s : State) : Result :=
  if cellsRun s ∧ cellServes s c ∧ !(cellOf s c).ready ∧ (s.pstate = 0 ∨ jobsOn s c ≠ [] ∨ jobsTo s c ≠ []) then
    .next (setCell s c { cellOf s c with ready := true })
  else .next s

/-- The fields of a compute descriptor (R648). -/
def cdOp (d : List Word) : Nat := bits (dwAt d 2) 31 28
def cdHandle (d : List Word) : Nat := bits (dwAt d 2) 15 0
def cdAddr (d : List Word) : Nat := join (dwAt d 1) (dwAt d 0)
def cdLen (d : List Word) : Nat := (dwAt d 3).toNat

/-- Does an OP use a buffer? -/
def cdBuffer (op : Nat) : Bool := op == 1 || op == 4 || op == 5 || op == 7

/-- Step 1 of R650. -/
def cdIllegal (d : List Word) : Bool :=
  let op := cdOp d
  op == 0 || decide (7 < op) || bits (dwAt d 2) 27 16 != 0 || bits (dwAt d 0) 2 0 != 0 || dwAt d 6 != 0 || dwAt d 7 != 0 ||
    (!cdBuffer op && (cdAddr d != 0 || cdLen d != 0)) || ((op == 1 || op == 5) && cdHandle d != 0) ||
    (if op = 3 then bits (dwAt d 4) 21 20 != 0 || bits (dwAt d 4) 23 22 == 3
     else if op = 4 then bits (dwAt d 4) 27 16 != 0 || dwAt d 5 != 0
     else dwAt d 4 != 0 || dwAt d 5 != 0)

/-- A number rounded up to a multiple of 4. -/
def pad4 (n : Nat) : Nat := (n + 3) / 4 * 4

/-- The length of a job record and of a stream record, from their own fields (R572, R573). -/
def jobRecLen (rec : List Word) : Nat := 64 + pad4 (2 * (bits (dwAt rec 1) 31 16 + bits (dwAt rec 1) 15 0))
/-- See `jobRecLen`. -/
def streamRecLen (rec : List Word) : Nat :=
  let k := bits (dwAt rec 0) 31 28
  64 + (if k = 2 ∨ k = 4 then pad4 (bits (dwAt rec 4) 15 8) else 0)

/-- Step 2 of R650: `rec` is the record of a creation. -/
def cdLength (s : State) (d rec : List Word) : Nat :=
  let bad := match cdOp d with
    | 1 => decide (cdLen d ≠ jobRecLen rec)
    | 4 => (match jobOf s (cdHandle d) with
      | some j => decide (cdLen d ≠ bits (dwAt d 4) 7 0 * j.nin * 4)
      | none => false)
    | 5 => decide (cdLen d ≠ streamRecLen rec)
    | 7 => decide (cdLen d < 32)
    | _ => false
  if bad then 0x05 else 0

/-- Step 3 of R650. -/
def cdExists (s : State) (d : List Word) : Nat :=
  let h := cdHandle d
  let ok := match cdOp d with
    | 2 | 3 | 4 | 7 => (jobOf s h).isSome
    | 6 => (streamOf s h).isSome
    | _ => true
  if ok then 0 else 0x06

/-- Steps 1 to 3 of R650. -/
def cdCheck (s : State) (d rec : List Word) : Nat :=
  if cdIllegal d then 0x01 else if cdLength s d rec ≠ 0 then 0x05 else cdExists s d

/-- A compute descriptor completes. E_NORESOURCE of a creation or load counts in PLC_NOROOM. -/
def cdDone (s : State) (n i code : Nat) (info : Word) : State :=
  complete (if code = 0x07 then noRoom s else s) n { status := code, desc := i, info := if code = 0 then info else 0 }

/-- A compute ring's next descriptor is taken and, when it has OP `op`, served after the first checks of R650. -/
def cdTake (s : State) (n : Nat) (d rec : List Word) (op : Nat) (serve : State → Nat → State) : State :=
  let c := cdCheck s d rec
  if !canTake s n 5 ∨ (c = 0 ∧ cdOp d ≠ op) then s
  else
    let x := takeDesc s n
    if c ≠ 0 then cdDone x.1 n x.2 c 0 else serve x.1 x.2

/-- Halfword `i` of the list that follows a 64-byte record. -/
def recHalf (rec : List Word) (i : Nat) : Nat :=
  let w := dwAt rec (16 + i / 2)
  if i % 2 = 0 then bits w 15 0 else bits w 31 16

/-- Dword `i` of an image of bytes. -/
def imgDw (img : List Byte) (i : Nat) : Nat := natOfBytes ((img.drop (4 * i)).take 4)

/-- The length that a Duden image gives itself. -/
def imgLen (img : List Byte) : Nat := 64 + 16 * (imgDw img 0 / 65536 % 256) + imgDw img 1 + imgDw img 2

/-- The job that a record describes, before it has a cell. -/
def jobOfRec (rec : List Word) (img : List Byte) : Job :=
  let nin := bits (dwAt rec 1) 31 16
  let nout := bits (dwAt rec 1) 15 0
  let custom := bits (dwAt rec 0) 31 24 = 0x80
  { kind := bits (dwAt rec 0) 31 24, rate := bits (dwAt rec 0) 19 19, blog := bits (dwAt rec 0) 18 16,
    ins := (List.range nin).map (recHalf rec), outs := (List.range nout).map fun i => recHalf rec (nin + i),
    arg0 := (dwAt rec 3).toNat, arg1 := (dwAt rec 4).toNat, hint := bits (dwAt rec 2) 23 16, near := bits (dwAt rec 2) 15 0,
    c0 := if custom then imgDw img 4 else 0, c1 := if custom then imgDw img 5 else 0,
    descs := if custom then (List.range (imgDw img 0 / 65536 % 256)).map fun i =>
        ⟨w32 (imgDw img (16 + 4 * i)), w32 (imgDw img (17 + 4 * i)), w32 (imgDw img (18 + 4 * i)), decide (imgDw img (19 + 4 * i) % 2 = 1)⟩
      else [],
    stateLen := if custom then imgDw img 3 else 0, orgKib := if custom then imgDw img 6 else 0, cell := 0 }

/-- NIN and NOUT within a kind's ranges (R575). -/
def countsOk (j : Job) : Bool :=
  let i := j.nin
  let o := j.nout
  match j.kind with
  | 0x01 => decide (1 ≤ i ∧ i ≤ 8192 ∧ 1 ≤ o ∧ o ≤ 128)
  | 0x02 | 0x03 | 0x04 => decide (1 ≤ i ∧ i ≤ 64 ∧ o = i)
  | 0x05 => decide (1 ≤ i ∧ i ≤ 64 ∧ o = 0)
  | 0x06 => decide (i = 1 ∧ o = 1)
  | 0x07 => decide (i = 2 ∧ o = 1)
  | 0x08 => decide (1 ≤ o ∧ o ≤ 32 ∧ i = 2 * o)
  | _ => decide (i ≤ 1024 ∧ o ≤ 1024)

/-- ARG0 and ARG1 within a kind's ranges (R575). -/
def argsOk (j : Job) : Bool :=
  match j.kind with
  | 0x01 | 0x04 => decide (1 ≤ j.arg0 ∧ j.arg0 ≤ 16 ∧ j.arg1 = 0)
  | 0x03 => decide (1 ≤ j.arg0 ∧ j.arg0 ≤ 16777215 ∧ j.arg1 = 0)
  | 0x05 => decide (1 ≤ j.arg0 ∧ j.arg0 ≤ 65535 ∧ j.arg1 ≤ 255)
  | 0x06 => decide (j.arg0 ≤ 1 ∧ 100 ≤ j.arg1 ∧ j.arg1 ≤ 1000)
  | 0x80 => true
  | _ => decide (j.arg0 = 0 ∧ j.arg1 = 0)

/-- Do a job's inputs exist, and the stream that a packet job sends by? -/
def inputsOk (s : State) (j : Job) : Bool :=
  let kindOf (h : Nat) : Nat := match streamOf s h with
    | some x => x.skind
    | none => 0
  if j.packet then j.ins.all (fun h => kindOf h == 3) && j.outs.all (fun h => kindOf h == 4)
  else j.ins.all (tapExists s) && j.outs.all fun t => decide (1 ≤ t ∧ t ≤ 0xFFFE)

/-- Are two numbers of a list equal? -/
def repeats (l : List Nat) : Bool := decide (l.eraseDups.length ≠ l.length)

/-- The rates and block lengths of a job's inputs agree with it, and its chain holds at most eight jobs (R560, R564). -/
def graphOk (s : State) (j : Job) : Bool :=
  j.packet || (j.ins.all (fun t => (match tapJob s t with
    | some e => e.2.rate == j.rate && e.2.blog == j.blog
    | none => (match tapStream s t with
      | some x => x.2.rate == j.rate
      | none => true))) && decide (chainPos s j.ins 9 ≤ 8))

/-- Rows 1 to 6 of R574, and 0 where all pass. -/
def jobCheck (s : State) (rec : List Word) (img : List Byte) (j : Job) : Nat :=
  let h := bits (dwAt rec 0) 15 0
  let custom := j.kind = 0x80
  let known := j.kind = 0x80 ∨ (1 ≤ j.kind ∧ j.kind ≤ 8)
  let resv := bits (dwAt rec 2) 31 24 ≠ 0 ∨ dwAt rec 5 ≠ 0 ∨ ((List.range 7).any fun i => dwAt rec (9 + i) != 0) = true ∨
    (!decide custom ∧ (dwAt rec 6 ≠ 0 ∨ dwAt rec 7 ≠ 0 ∨ dwAt rec 8 ≠ 0))
  let imgResv := (imgDw img 0 % 65536 ≠ 0 ∨ ((List.range 8).any fun i => imgDw img (7 + i) != 0) = true)
  let imgRange := imgDw img 1 < 4 ∨ 65536 < imgDw img 1 ∨ imgDw img 1 % 4 ≠ 0 ∨ 458752 < imgDw img 3
  if bits (dwAt rec 0) 23 20 ≠ 1 ∨ (custom ∧ imgDw img 0 / 2 ^ 24 ≠ 1) then 0x08
  else if (custom ∧ ((dwAt rec 8).toNat ≠ imgLen img ∨ img.length ≠ imgLen img)) ∨ (j.kind = 3 ∧ 2 ^ 30 < delayBytes j) ∨
      (j.kind = 1 ∧ 2 ^ 29 < j.arg0 * gainSetBytes j) then 0x05
  else if !decide known ∨ resv ∨ (custom ∧ (imgResv ∨ crc32 (img.take 60 ++ img.drop 64) ≠ imgDw img 15)) then 0x01
  else if j.blog < 3 ∨ !countsOk j ∨ !argsOk j ∨ !inputsOk s j ∨ h = 0 ∨ h = 0xFFFF ∨ (custom ∧ imgRange) then 0x06
  else if (jobOf s h).isSome ∨ (!j.packet ∧ (j.outs.any (tapExists s) = true ∨ repeats j.outs)) then 0x0B
  else if !graphOk s j then 0x01
  else 0

/-- CREATE_JOB (R572, R574, R588 to R591): `rec` is the record at ADDR, `img` the image that it names. -/
def execCreateJob (n : Fin 256) (d : List Word) (rec : List Word) (img : List Byte) (_home : Unit) (s : State) : Result :=
  .next (cdTake s n d rec 1 fun t i =>
    let j := jobOfRec rec img
    let h := bits (dwAt rec 0) 15 0
    let c := jobCheck t rec img j
    if c ≠ 0 then cdDone t n i c 0
    else if 8192 ≤ t.plc.jobs.length ∨ (!j.packet ∧ 32768 < tapCount t + j.nout) then cdDone t n i 0x07 0
    else
      match bestCell t j allCells with
      | none => cdDone t n i 0x07 0
      | some x =>
        let t1 := judgeLoads (refreshGroups (setJob t h x))
        cdDone t1 n i 0 (fieldW 14 8 x.cell ||| fieldW 7 0 (halfPercent (jobCycles t1 x))))

/-- Does a Bandstand job other than `h` read one of these taps? -/
def tapsRead (s : State) (h : Nat) (taps : List Nat) : Bool :=
  s.plc.jobs.any fun e => e.1 != h && !e.2.packet && e.2.ins.any taps.contains

/-- The taps go, and a Grotto job that reads one ends (R331, R571). -/
def endTapReaders (s : State) (taps : List Nat) : State :=
  abortGrotto s fun t g => decide (t.fld (grtCfg g) 1 0 = 1) && (taps.contains (t.fld (grtCfg g + 4) 31 16) || taps.contains (t.fld (grtCfg g + 4) 15 0))

/-- DELETE_JOB (R570, R571): a job that runs stops after its block in processing. -/
def execDeleteJob (n : Fin 256) (d : List Word) (s : State) : Result :=
  .next (cdTake s n d [] 2 fun t i =>
    match jobOf t (cdHandle d) with
    | none => t
    | some j =>
      let h := cdHandle d
      let taps := if j.packet then [] else j.outs
      if tapsRead t h taps then cdDone t n i 0x0B 0
      else
        let t1 := endTapReaders t taps
        cdDone (if j.proc.isSome then setJob t1 h { j with stopping := true } else removeJob t1 h j) n i 0 0)

/-- SET_PARAM (R570, R578 to R581). -/
def execSetParam (n : Fin 256) (d : List Word) (s : State) : Result :=
  .next (cdTake s n d [] 3 fun t i =>
    match jobOf t (cdHandle d) with
    | none => t
    | some j =>
      let p := bits (dwAt d 4) 31 24
      let c := paramCheck j p (dwAt d 5)
      if c ≠ 0 then cdDone t n i c 0
      else
        let len := bits (dwAt d 4) 19 0
        let k := changeParam t j p (nextFresh t j) len (bits (dwAt d 4) 23 22) (dwAt d 5) false
        cdDone (judgeLoads (setJob t (cdHandle d) k)) n i 0 0)

/-- LOAD_SET (R582, R649): `gains` is the buffer. -/
def execLoadSet (n : Fin 256) (d : List Word) (gains : List Word) (s : State) : Result :=
  .next (cdTake s n d [] 4 fun t i =>
    match jobOf t (cdHandle d) with
    | none => t
    | some j =>
      let set := bits (dwAt d 4) 31 28
      let row := bits (dwAt d 4) 15 8
      let rows := bits (dwAt d 4) 7 0
      let gs := (List.range (rows * j.nin)).map (dwAt gains)
      if !gs.all f32Finite then cdDone t n i 0x01 0
      else if j.kind ≠ 1 ∨ rows = 0 ∨ 128 < rows ∨ j.nout < row + rows ∨ j.arg0 ≤ set ∨
          (gs.any fun g => decide (16 * f32One < (f32Val g).natAbs)) = true then cdDone t n i 0x06 0
      else
        let base := (set * j.nout + row) * j.nin
        let m := (gs.zip (List.range gs.length)).foldl (fun a e =>
          if f32Val e.1 = 0 then AMap.del a (base + e.2) else AMap.set a (base + e.2) e.1) j.gains
        let k := { j with gains := m }
        if cellCycles < jobCycles t k ∧ jobCycles t j < jobCycles t k then cdDone t n i 0x07 0
        else cdDone (judgeLoads (setJob t (cdHandle d) k)) n i 0 0)

/-- The stream that a record describes (R573). -/
def streamOfRec (rec : List Word) : Stream :=
  let tpl := ((rec.drop 16).flatMap bytesOfWord).take (bits (dwAt rec 4) 15 8)
  { skind := bits (dwAt rec 0) 31 28, rate := bits (dwAt rec 0) 23 23, enc := bits (dwAt rec 0) 22 20, grp := bits (dwAt rec 1) 31 16,
    ch := bits (dwAt rec 1) 15 8, ptime := bits (dwAt rec 1) 7 0, linkOfs := bits (dwAt rec 2) 31 16, tapBase := bits (dwAt rec 2) 15 0,
    rtpOfs := (dwAt rec 3).toNat, tpl := tpl, cls := bits (dwAt rec 4) 2 0 }

/-- Are the fields that a stream's SKIND does not use 0, and the reserved bits too (R573)? -/
def streamFieldsOk (rec : List Word) (x : Stream) : Bool :=
  let audio := x.skind == 1 || x.skind == 2
  let sends := x.skind == 2 || x.skind == 4
  let input := x.skind == 1 || x.skind == 3
  bits (dwAt rec 0) 19 16 == 0 && bits (dwAt rec 4) 31 16 == 0 && bits (dwAt rec 4) 7 3 == 0 && ((List.range 11).all fun i => dwAt rec (5 + i) == 0) &&
    (audio || (x.rate == 0 && x.enc == 0 && x.ch == 0 && x.tapBase == 0 && x.rtpOfs == 0)) && (input || x.grp == 0) &&
    (x.skind == 2 || x.ptime == 0) && (x.skind == 1 || x.linkOfs == 0) && (sends || (bits (dwAt rec 4) 15 8 == 0 && x.cls == 0))

/-- The checks of a CREATE_STREAM, in the order that R574 gives a job (the spec gives a stream none, log entry 21). -/
def streamCheck (s : State) (rec : List Word) (x : Stream) : Nat :=
  let h := bits (dwAt rec 0) 15 0
  let audio := x.skind = 1 ∨ x.skind = 2
  let taps := (List.range x.ch).map (x.tapBase + ·)
  let tl := bits (dwAt rec 4) 15 8
  if bits (dwAt rec 0) 27 24 ≠ 1 then 0x08
  else if x.skind = 0 ∨ 4 < x.skind ∨ !streamFieldsOk rec x ∨ (audio ∧ 1 < x.enc) ∨ x.cls = 7 then 0x01
  else if h = 0 ∨ 0xFFF < h ∨ (audio ∧ (x.ch = 0 ∨ 64 < x.ch ∨ x.tapBase = 0 ∨ 0xFFFE < x.tapBase + x.ch - 1)) ∨ (x.skind = 2 ∧ x.ptime = 0) ∨
      ((x.skind = 2 ∨ x.skind = 4) ∧ (tl < 14 ∨ 64 < tl)) ∨ (x.skind = 2 ∧ !taps.all (tapExists s)) then 0x06
  else if (streamOf s h).isSome ∨ (x.skind = 1 ∧ taps.any (tapExists s) = true) then 0x0B
  else if x.skind = 2 ∧ (taps.any fun t => (match tapJob s t with
      | some e => e.2.rate != x.rate
      | none => (match tapStream s t with
        | some y => y.2.rate != x.rate
        | none => false))) = true then 0x01
  else if x.skind = 1 ∧ 32768 < tapCount s + x.ch then 0x07
  else 0

/-- CREATE_STREAM (R573): `rec` is the record at ADDR. -/
def execCreateStream (n : Fin 256) (d : List Word) (rec : List Word) (s : State) : Result :=
  .next (cdTake s n d rec 5 fun t i =>
    let x := streamOfRec rec
    let c := streamCheck t rec x
    if c ≠ 0 then cdDone t n i c 0
    else cdDone (refreshGroup (setStream t (bits (dwAt rec 0) 15 0) { x with since := t.elapsed }) x.grp) n i 0 0)

/-- DELETE_STREAM (R571). -/
def execDeleteStream (n : Fin 256) (d : List Word) (s : State) : Result :=
  .next (cdTake s n d [] 6 fun t i =>
    match streamOf t (cdHandle d) with
    | none => t
    | some x =>
      let h := cdHandle d
      let taps := if x.skind = 1 then (List.range x.ch).map (x.tapBase + ·) else []
      if tapsRead t 0 taps then cdDone t n i 0x0B 0
      else
        let t1 := dropTaps (endTapReaders t taps) taps
        let t2 := { t1 with plc := { t1.plc with streams := AMap.del t1.plc.streams h } }
        cdDone (if x.skind = 1 ∨ x.skind = 3 then refreshGroup t2 x.grp true else t2) n i 0 0)

/-- READ_JOB (R649): the 32-byte report. -/
def execReadJob (n : Fin 256) (d : List Word) (s : State) : Result :=
  .next (cdTake s n d [] 7 fun t i =>
    match jobOf t (cdHandle d) with
    | none => t
    | some j =>
      let h := cdHandle d
      cdDone (t.emit (.dma (cdAddr d) [jqPlace t h, jqStat t h, w32 j.blocks, w32 j.overs, w32 j.late, 0, 0, 0])) n i 0 0)

end Sys2Proof.Machine
end

