-- ==== Sys2Proof/Machine/CueOps.lean ====
section
/-!
DEFINITION. CueOps.lean: cues in their slots, their outcomes, clean switches and the messages of fabric cues (10_cue_transactions.md), as far as
they do not write registers.
-/
namespace Sys2Proof.Machine

/-- Fields of a cue's header (R505). -/
def Cue.kind (c : Cue) : Nat := bits (dwAt c.image 0) 27 26
/-- See `Cue.kind`. -/
def Cue.format (c : Cue) : Nat := bits (dwAt c.image 0) 31 28
/-- See `Cue.kind`. -/
def Cue.qcMax (c : Cue) : Nat := bits (dwAt c.image 0) 18 16
/-- See `Cue.kind`. -/
def Cue.tag (c : Cue) : Word := dwAt c.image 2
/-- ARM_LEAD in 2^-40 ns. -/
def Cue.lead (c : Cue) : Nat := (dwAt c.image 3).toNat * 1000 * tuPerNs
/-- The dwords of T. -/
def Cue.ft (c : Cue) : List Word := (List.range 4).map fun i => dwAt c.image (4 + i)

/-- CUE_SLOTs_STAT of slot `k`. -/
def slotReg (k : Nat) : Nat := cueB + 0x400 + 0x10 * k
/-- The STATE of a slot: 0 FREE, 1 VALIDATING, 2 STAGED, 3 PREPARED, 4 ARMED, 5 COMMITTING. -/
def slotState (s : State) (k : Nat) : Nat := s.fld (slotReg k) 23 20
/-- See `slotState`. -/
def setSlotState (s : State) (k x : Nat) : State := s.setFld (slotReg k) 23 20 x

/-- The cue in a slot. -/
def cueOf (s : State) (k : Nat) : Option Cue := AMap.get s.cue.cues k
/-- Replace it. -/
def setCue (s : State) (k : Nat) (c : Cue) : State := { s with cue := { s.cue with cues := AMap.set s.cue.cues k c } }

/-- The lowest free slot (R514). -/
def freeSlot (s : State) : Option Nat := (List.range 64).find? fun k => (cueOf s k).isNone && slotState s k == 0

/-- Cues staged and the actions they hold (CUE_STATUS). -/
def stagedCues (s : State) : List (Nat × Cue) := s.cue.cues.filter fun e => decide (2 ≤ slotState s e.1) && !e.2.finished
/-- See `stagedCues`. -/
def stagedActs (s : State) : Nat := (stagedCues s).foldl (fun a e => a + e.2.acts.length) 0
/-- CUE_STATUS as read. -/
def cueStatusView (s : State) : Word := fieldW 30 24 (stagedCues s).length ||| fieldW 16 0 (stagedActs s)

/-- The node's number, and whether the node holds one. -/
def ownNode (s : State) : Nat := s.fld (chpB + 0x050) 11 0

/-- Is a trunk port UP? -/
def trunkUp (s : State) (p : Nat) : Bool := portIs s p 1 && decide (s.fld (trkState p) 3 0 = 7)

/-- The trunk port that leads upstream: the SOURCE of slot 7. -/
def upPort (s : State) : Option Nat := if refSource s 7 < 128 ∧ portIs s (refSource s 7) 1 then some (refSource s 7) else none

/-- May a fabric cue be rooted at this node (R535)? SUN_TRK_ROOT.VALID and CHP_NODE_ID.SET say whether the numbers are there (R68). -/
def isRoot (s : State) : Bool :=
  (bit (trkRootView s) 31 && s.flag (chpB + 0x050) 31 && bits (trkRootView s) 11 0 == ownNode s) || (upPort s).isNone

/-- Operating version, CUE_MIN, CUE_MAX. -/
def opv (s : State) : Nat := s.fld (cueB + 0x048) 3 0
/-- See `opv`. -/
def cueMin (s : State) : Nat := s.fld (cueB + 0x048) 11 8
/-- See `opv`. -/
def cueMax (s : State) : Nat := s.fld (cueB + 0x048) 15 12

/-- The nodes whose PRESENCE has come within the last 3 s (R536). -/
def presentNodes (s : State) : List Nat := (s.cue.nodes.filter fun e => decide (s.elapsed ≤ e.2.at_ + 3 * tuPerSec)).map (·.1)
/-- CUE_MEMBERS as read. -/
def cueMembersView (s : State) : Word := w32 (1 + (presentNodes s).length)

/-- A message: its 12 header dwords (R537) and its payload. -/
structure CueMsg where
  hdr : List Word
  payload : List Byte
  deriving DecidableEq, Repr

/-- The bytes of a message from its header on. -/
def CueMsg.bytes (m : CueMsg) : List Byte := ((List.range 12).map (dwAt m.hdr)).flatMap bytesOfWord ++ m.payload

/-- The CRC of a message: bytes 0 to 43, then the payload. -/
def CueMsg.crc (m : CueMsg) : Nat := crc32 (m.bytes.take 44 ++ m.payload)

/-- A message of MTYPE `ty` (R537). -/
def cueMsg (s : State) (ty format root fid status frag cnt reason : Nat) (ft : List Word) (payload : List Byte) : CueMsg :=
  let d0 := fieldW 31 28 ty ||| fieldW 27 24 format ||| fieldW 23 20 (opv s) ||| fieldW 19 16 (cueMin s) ||| fieldW 15 12 (cueMax s)
  let d1 := fieldW 31 20 root ||| fieldW 19 8 (ownNode s) ||| fieldW 7 0 status
  let h := [d0, d1, w32 fid, fieldW 31 16 frag ||| fieldW 15 0 cnt] ++ (List.range 4).map (dwAt ft) ++
    [fieldW 31 16 payload.length ||| fieldW 7 0 reason, 0, 0]
  let m : CueMsg := ⟨h ++ [0], payload⟩
  ⟨h ++ [w32 m.crc], payload⟩

/-- The Ethernet frame of a message, FCS included (R537). The node number in SA is the header's SENDER. -/
def cueFrame (m : CueMsg) : List Byte :=
  let body := netOfNat 6 0x030000000010 ++ netOfNat 6 (0x020000000000 + bits (dwAt m.hdr 1) 19 8) ++ netOfNat 2 0x88B5 ++ m.bytes
  let padded := body ++ List.replicate (60 - body.length) 0
  padded ++ fcsOf padded

/-- Send a frame of the cue engine on a trunk port, in TC6 (R537): a copy in the port's queue of that class. -/
def sendOn (s : State) (p : Nat) (bs : List Byte) : State :=
  let f : Frame := { id := s.sw.next, bytes := bs, ing := 255, cls := 6, inNode := nodeTime s }
  admitCopy { s with sw := { s.sw with next := s.sw.next + 1 } } { f := f, ports := [p] } p

/-- Send a message on every UP trunk port but `but` (R538, R539). -/
def floodMsg (s : State) (but : Option Nat) (m : CueMsg) : State :=
  forEach ((List.range 128).filter fun p => trunkUp s p && but != some p) s fun p t => sendOn t p (cueFrame m)

/-- Send a message on the upstream port; it waits while that port is not UP. -/
def sendUp (s : State) (m : CueMsg) : State :=
  match upPort s with
  | some p =>
    if trunkUp s p then sendOn s p (cueFrame m)
    else { s with cue := { s.cue with outbox := s.cue.outbox ++ [cueFrame m] } }
  | none => { s with cue := { s.cue with outbox := s.cue.outbox ++ [cueFrame m] } }

/-- Messages that waited for the upstream port leave. -/
def flushOutbox (s : State) : State :=
  match upPort s with
  | some p =>
    if trunkUp s p then forEach s.cue.outbox { s with cue := { s.cue with outbox := [] } } fun b t => sendOn t p b else s
  | none => s

/-- The tag of node time at a commit, in the place of an FT's TAG (R173, R655); none for a cue that never reached its tick. -/
def outcomeFt (s : State) (c : Cue) (reached : Bool) : List Word :=
  if reached then fullTime c.t (stampTag s 2 true 0) else c.ft

/-- One outcome event (R646, R647, R655). -/
def outcomeEvent (s : State) (k : Nat) (c : Cue) (code reason : Nat) (reached : Bool) : State :=
  let body := [c.tag, fieldW 31 24 code ||| fieldW 23 16 reason ||| fieldW 15 14 c.kind, if c.kind = 1 then w32 c.fid else 0] ++ outcomeFt s c reached
  match c.ring with
  | some (n, _) => (eventWrite s (s.fld (ringCfg n) 23 16) 0x06 k [body]).1
  | none => if s.flag (hifB + 0x050) 8 then (eventWrite s (s.fld (hifB + 0x050) 7 0) 0x06 k [body]).1 else s

/-- A slot becomes FREE with its LAST_CODE; whatever was held for its cue is released (R495, R533). -/
def freeCue (s : State) (k code : Nat) : State :=
  let a := slotReg k
  let s1 := releaseHeld ((((s.wr a (fieldW 31 24 code)).wr (a + 4) 0).wr (a + 8) 0).wr (a + 12) 0) k
  { s1 with cue := { s1.cue with cues := AMap.del s1.cue.cues k, csws := s1.cue.csws.filter fun x => x.slot != some k } }

/-- The answer table shows a cue's answers (CUE_FAB_ANSWER, CUE_FAB_TALLY). -/
def showAnswers (s : State) (c : Cue) : State :=
  let ok := (c.answers.filter fun e => e.2.reported && e.2.status == 0).length
  let bad := (c.answers.filter fun e => e.2.reported && e.2.status != 0).length
  if s.rd (cueB + 0x060) = w32 c.fid then
    ({ s with cue := { s.cue with last := c.answers } }).wr (cueB + 0x064) (fieldW 28 16 bad ||| fieldW 12 0 ok)
  else s

/-- CUE_FAB_ANSWER as read. -/
def cueAnswerView (s : State) : Word :=
  let n := s.fld (cueB + 0x058) 11 0
  let p : Nat × Nat := if n = ownNode s ∧ AMap.has s.cue.last n then (cueMax s, cueMin s) else match AMap.get s.cue.nodes n with
    | some x => (x.mx, x.mn)
    | none => (0, 0)
  let who := fieldW 7 4 p.1 ||| fieldW 3 0 p.2
  match AMap.get s.cue.last n with
  | some a => bitW 31 true ||| bitW 30 a.ready ||| bitW 29 a.reported ||| fieldW 23 16 a.status ||| fieldW 15 8 a.reason ||| who
  | none => who

/-- The outcome of a fabric cue rooted here (R546): OK, E_ABORTED or E_MISSED, with the reason of the root or of the first member that
gave one. -/
def fabOutcome (c : Cue) : Nat × Nat :=
  if c.aborted then (0x0A, 0)
  else if c.answers.all fun e => e.2.reported && e.2.status == 0 then (0, 0)
  else (0x0F, match c.answers.find? fun e => e.2.reason != 0 with
    | some e => e.2.reason
    | none => 0)

/-- The root delivers a fabric cue's outcome (R546). -/
def deliverFab (s : State) (k : Nat) (c : Cue) : State :=
  let o := fabOutcome c
  let silent := (c.answers.filter fun e => !e.2.reported).length
  let s1 := (showAnswers s c).wr (cueB + 0x068) (w32 silent)
  freeCue (cueEvent (outcomeEvent s1 k c o.1 o.2 (!c.aborted)) 4) k o.1

/-- A member's RESULT reaches the root's record: its outcome is delivered once every member has reported (R546). -/
def recordResult (s : State) (k : Nat) (c : Cue) (node status reason : Nat) : State :=
  match AMap.get c.answers node with
  | none => s
  | some a =>
    let b := if a.failed then { a with reported := true } else { a with reported := true, status := status, reason := reason }
    let c1 := { c with answers := AMap.set c.answers node b }
    let s1 := showAnswers (setCue s k c1) c1
    if c1.finished ∧ c1.answers.all (fun e => e.2.reported) = true then deliverFab s1 k c1 else s1

/-- The counter and event of an outcome of this node's own part. -/
def countOutcome (s : State) (code : Nat) : State :=
  if code = 0 then cueEvent (s.count (cueB + 0x100)) 0
  else if code = 0x0A then cueEvent (s.count (cueB + 0x10C)) 2
  else cueEvent (s.count (cueB + 0x104)) 1

/-- This node's part in a cue ends with `code` (R522, R524, R525, R543, R544, R546). A local cue's outcome carries the reason as its status; a
fabric cue's is E_MISSED with the reason in REASON. -/
def endPart (s : State) (k : Nat) (c : Cue) (code reason : Nat) (reached : Bool) : State :=
  let s1 := countOutcome s code
  if c.kind = 0 then freeCue (outcomeEvent s1 k c (if code = 0x0F then reason else code) 0 reached) k (if code = 0x0F then reason else code)
  else if c.own then
    let c1 := { c with finished := true, aborted := c.aborted || decide (code = 0x0A) }
    let s2 := releaseHeld (setCue s1 k c1) k
    recordResult { s2 with cue := { s2.cue with csws := s2.cue.csws.filter fun x => x.slot != some k } } k c1 (ownNode s) code reason
  else
    let m := cueMsg s 5 c.format c.root c.fid code 0 1 reason c.ft []
    freeCue (outcomeEvent (sendUp s1 m) k c code reason reached) k code

/-- A staged cue is abandoned with E_ABORTED: nothing applies (R524, R525, R543). -/
def abandonCue (s : State) (k : Nat) : State :=
  match cueOf s k with
  | some c => endPart s k c 0x0A 0 false
  | none => s

/-- The root sends ABORT for a fabric cue before ARM (R542, R547). -/
def rootAbort (s : State) (k : Nat) (c : Cue) : State :=
  let c1 := { c with aborted := true }
  let m := cueMsg s 4 c.format (ownNode s) c.fid 0 0 1 0 c.ft []
  abandonCue (floodMsg (setCue s k c1) none m) k

/-- The root sends ARM when every member has sent READY with OK, no later than D (R542). -/
def rootArm (s : State) (k : Nat) (c : Cue) : State :=
  if !c.armed ∧ c.answers.all (fun e => e.2.ready) = true ∧ nodeTime s + c.lead ≤ c.t then
    let m := cueMsg s 3 c.format (ownNode s) c.fid 0 0 1 0 c.ft []
    floodMsg (setSlotState (setCue s k { c with armed := true }) k 4) none m
  else s

/-- A READY reaches the root: recorded; ARM when it was the last, ABORT when it holds a failing code (R542). -/
def recordReady (s : State) (k : Nat) (c : Cue) (node status : Nat) : State :=
  match AMap.get c.answers node with
  | none => s
  | some a =>
    let b := if status = 0 then { a with ready := true } else { a with failed := true, status := status }
    let c1 := { c with answers := AMap.set c.answers node b }
    let s1 := showAnswers (setCue s k c1) c1
    if c.armed ∨ c.aborted then s1 else if status ≠ 0 then rootAbort s1 k c1 else rootArm s1 k c1

/-- The code of a CUE_CANCEL write with GO (R524, R547, R553): 0 where the cancel is taken. -/
def cancelCode (s : State) (k : Nat) : Nat :=
  match cueOf s k with
  | none => 0x06
  | some c =>
    if slotState s k < 2 then 0x06
    else if c.kind = 1 ∧ !c.own then 0x01
    else if c.kind = 1 then (if c.armed ∨ c.aborted ∨ c.finished then 0x0B else 0)
    else if slotState s k = 5 ∨ c.t ≤ nodeTime s + 1000 * tuPerNs then 0x0B
    else 0

/-- A cancel that is taken. -/
def cancelCue (s : State) (k : Nat) : State :=
  match cueOf s k with
  | none => s
  | some c => if c.kind = 1 then rootAbort s k c else abandonCue s k

/-- The frame period of a RATE code, in 2^-40 ns: numerator and denominator of frames a second (R530). -/
def frameRate (r : Nat) : Nat × Nat :=
  match r with
  | 0 => (24000, 1001)
  | 1 => (24, 1)
  | 2 => (25, 1)
  | 3 => (30000, 1001)
  | 4 => (30, 1)
  | 5 => (50, 1)
  | 6 => (60000, 1001)
  | _ => (60, 1)

/-- Frame `n` of a RATE starts at this node time. -/
def frameStart (r n : Nat) : Nat := n * tuPerSec * (frameRate r).2 / (frameRate r).1
/-- The first frame boundary at or after a node time. -/
def nextFrameAt (r t : Nat) : Nat :=
  let q := (frameRate r).2 * tuPerSec
  frameStart r ((t * (frameRate r).1 + q - 1) / q)
/-- One frame period. -/
def framePeriod (r : Nat) : Nat := frameStart r 1

/-- Set or clear a port's bit in a group's mask, in the entry that stands (R529, R534). -/
def setMember (s : State) (g p : Nat) (on : Bool) : State :=
  match groupAt s g with
  | none => s
  | some e =>
    let i := if p < 128 then p / 32 else 4
    let b := if p < 128 then p % 32 else p - 128
    let v := putBits (dwAt e i) b b (if on then 1 else 0)
    { s with tbl := { s.tbl with grp := AMap.set s.tbl.grp g (e.set i v) } }

/-- Has a switch's cue committed? -/
def Csw.live (x : Csw) : Bool := x.slot.isNone

/-- One side or both of a switch happen. A switch whose sides have both switched is done (R533). -/
def switchSides (s : State) (x : Csw) (off on : Bool) : State :=
  let s1 := if off && !x.offDone then setMember s x.src x.port false else s
  let s2 := if on && !x.onDone then setMember s1 x.dst x.port true else s1
  let y := { x with offDone := x.offDone || off, onDone := x.onDone || on }
  { s2 with cue := { s2.cue with csws :=
    if y.offDone ∧ y.onDone then s2.cue.csws.filter (· ≠ x) else s2.cue.csws.map fun z => if z = x then y else z } }

/-- The RTP marker bit of a frame (R529). -/
def rtpMarker (bs : List Byte) : Bool :=
  let h := parse bs
  h.udp.isSome && getNet bs (h.l4 + 9) 1 / 128 == 1

/-- A frame of a group has been forwarded: a marked packet at or after S switches its side of each switch that waits for it (R529). -/
def cswFrame (s : State) (f : Frame) (g : Nat) : State :=
  if s.cue.csws = [] ∨ !rtpMarker f.bytes then s
  else
    forEach s.cue.csws s fun x t =>
      if x.live ∧ x.point ≤ f.inNode ∧ (x.src = g ∨ x.dst = g) then switchSides t x (decide (x.src = g)) (decide (x.dst = g)) else t

/-- Is a message one that R540 discards? -/
def msgBad (s : State) (m : CueMsg) : Bool :=
  let w := dwAt m.hdr
  decide (m.hdr.length ≠ 12) || decide (m.crc ≠ (w 11).toNat) || bits (w 0) 11 0 != 0 || bits (w 8) 15 8 != 0 || w 9 != 0 || w 10 != 0 ||
    decide (bits (w 8) 31 16 ≠ m.payload.length) || !bit (trkRootView s) 31 || bits (w 1) 31 20 != bits (trkRootView s) 11 0

/-- A message is discarded (R540). -/
def discardMsg (s : State) : State := cueEvent (s.count (cueB + 0x118)) 7

/-- What a message is known by for forwarding (R539). -/
def msgKey (m : CueMsg) : Nat × Nat × Nat × Nat :=
  (bits (dwAt m.hdr 1) 31 20, (dwAt m.hdr 2).toNat, bits (dwAt m.hdr 0) 31 28, bits (dwAt m.hdr 3) 31 16)

/-- The operating version that a message brings (R550). -/
def adoptOpv (s : State) (m : CueMsg) : State :=
  let v := bits (dwAt m.hdr 0) 23 20
  if cueMin s ≤ v ∧ v ≤ cueMax s then s.setFld (cueB + 0x048) 3 0 v else s

/-- A PREPARE, ARM or ABORT that has not passed before goes on, on every other UP trunk port (R539). -/
def passOn (s : State) (p : Nat) (m : CueMsg) : State :=
  let s1 := { s with cue := { s.cue with seen := msgKey m :: s.cue.seen } }
  floodMsg (adoptOpv s1 m) (some p) m

/-- The slot of the fabric cue that a message names, at a node that staged it. -/
def fabSlot (s : State) (m : CueMsg) : Option (Nat × Cue) :=
  s.cue.cues.find? fun e => e.2.kind == 1 && e.2.root == bits (dwAt m.hdr 1) 31 20 && e.2.fid == (dwAt m.hdr 2).toNat && decide (2 ≤ slotState s e.1)

end Sys2Proof.Machine
end

