-- ==== Sys2Proof/Machine/PortOps.lean ====
section
/-!
DEFINITION. PortOps.lean: lanes and ports (07_lanes_and_ports.md): what MAC_CFG accepts, the states of trunk bring-up, what a lane's loss does,
negotiation, upstream selection, eye scans.
-/
namespace Sys2Proof.Machine

/-- TRK_Pk_STATE.STATE (R374): 0 DISABLED, 1 SIGNAL, 2 FRAME, 3 NEGOTIATE, 4 STEP, 5 TRAIN, 6 VERIFY, 7 UP, 8 HOLD, 9 FAULT. -/
def trkSt (s : State) (p : Nat) : Nat := s.fld (trkState p) 3 0

/-- Is a lane retired (R770)? -/
def laneRetired (s : State) (l : Nat) : Bool := s.flag (pmonB (l / 16) + 0x048) (16 + l % 16)

/-- Does a rate and width belong to the table of R342? -/
def ethCombo (rate width : Nat) : Bool :=
  match rate with
  | 1 => width == 1
  | 2 => width == 1
  | 3 => width == 1 || width == 4
  | 5 => true
  | 6 => width != 8
  | _ => false

/-- Is the rate legal for a trunk or a local port (R343)? -/
def lineRate (mode rate : Nat) : Bool :=
  if mode = 1 then decide (1 ≤ rate) && decide (rate ≤ 6) else rate == 3 || rate == 5 || rate == 6

/-- A MAC_CFG value that R342, R343, R345 or R352 makes E_ILLEGAL. A port that is not to be enabled and has RATE 0 is not configured yet, and its
rate is not judged (DEDUCED, log entry 25). -/
def macValue (p : Nat) (v : Word) : Nat :=
  let rate := bits v 31 24
  let width := 2 ^ bits v 19 18
  let mode := bits v 17 16
  if p % 16 % width ≠ 0 then 0x01
  else if rate = 0 ∧ !bit v 0 then (if bit v 6 then 0x01 else 0)
  else if mode = 0 ∧ !ethCombo rate width then 0x01
  else if mode ≠ 0 ∧ !lineRate mode rate then 0x01
  else if bit v 6 ∧ rate ≠ 1 ∧ rate ≠ 5 ∧ rate ≠ 6 then 0x01
  else 0

/-- The ports that hold lane `l`, port `but` left out. -/
def laneTaken (s : State) (but l : Nat) : Bool :=
  match portOfLane s l with
  | some q => q != but
  | none => false

/-- Refusals of a MAC_CFG write after the checks of R89 (R344, R345, R771). -/
def macOwn (s : State) (p : Nat) (v : Word) : Nat :=
  let old := s.rd (macB p + 0x040)
  let ls := (List.range (2 ^ bits v 19 18)).map (p + ·)
  if bit old 0 ∧ (old &&& 0xFF0F00C0) ≠ (v &&& 0xFF0F00C0) then 0x0B
  else if bit v 0 ∧ !bit old 0 then
    (if ls.any (laneTaken s p) then 0x0B else if ls.any (laneRetired s) then 0x07 else 0)
  else 0

/-- The bits that a lane's scan has compared by now (R391). -/
def eyeBits (s : State) (l : Nat) : Nat :=
  min (2 ^ s.fld (lanB l + 0x060) 31 24) ((s.elapsed - (laneRec s l).eyeAt) * laneNum (laneRate s l) / (32 * tuPerNs))

/-- An eye scan of a lane ends early (R392). How many of the bits it compared disagreed is not stated: a free value. -/
def abortEye (s : State) (l : Nat) : State :=
  let a := lanB l + 0x068
  if s.flag a 0 then
    let n := eyeBits s l
    ((s.drawn.wr64 (lanB l + 0x070) n).wr64 (lanB l + 0x078) (s.free.toNat % (n + 1))).wr a (bitW 2 true)
  else s

/-- Slot 7 loses activity as the port that feeds it loses superblock lock (R101). -/
def slot7Loses (s : State) (p : Option Nat) : State := if p = some (refSource s 7) then loseActivity s 7 else s

/-- A lane's registers show a rate, its clocks not locked yet but for the transmit PLL when `tx`; its scan ends and its delays are loaded when
the rate changes (R267, R392), and a calibration run on it stops (R263). -/
def setLaneRate (s : State) (l rate : Nat) (tx : Bool) : State :=
  let old := laneRate s l
  let sa := if old = rate then s else abortEye s l
  let s0 := if s.flag (lanB l + 0x040) 3 then slot7Loses sa (portOfLane s l) else sa
  let s1 := s0.wr (lanB l + 0x040) (fieldW 15 8 rate ||| bitW 2 tx)
  let s2 := setLaneRec s1 l { laneRec s1 l with good := 0, bad := 0, got := [], rxRun := (false, 0) }
  if old = rate then calLaneStop s2 l else laneRateChanged s2 l rate

/-- Every lane of a port. -/
def setPortRate (s : State) (p rate : Nat) (tx : Bool) : State := forEach (lanesOf s p) s fun l t => setLaneRate t l rate tx

/-- The Grotto jobs that range a port end with E_ABORTED, and calibration runs on its lanes stop (R263, R331). -/
def stopRanging (s : State) (p : Nat) : State :=
  forEach (lanesOf s p) (abortGrotto s fun t j => t.fld (grtCfg j) 1 0 == 2 && grtPort t j == p) fun l t => calLaneStop t l

/-- A trunk or local port takes a state (R374): TRK_EVENT on a change; UP begins and ends with it (R376, R436). -/
def setTrk (s : State) (p st : Nat) : State :=
  let old := trkSt s p
  let s1 := if old = 7 ∧ st ≠ 7 then portDown (stopRanging s p) p else s
  let r := portRec s1 p
  let r1 := if old = 7 ∧ st ≠ 7 then { r with out := [], rx := none } else r
  let s2 := setPortRec s1 p
    { r1 with since := s.elapsed, leftNeg := if old = 3 then s.elapsed else r.leftNeg, checked := 0, phase := if st = 6 then none else r.phase }
  let s3 := s2.setFld (trkState p) 3 0 st
  let s4 := if old = st then s3 else pavEvent s3 (p / 16) 16 (trkB (p / 16) + 0x044) (p % 16)
  if st = 7 ∧ old ≠ 7 then portComesUp s4 p else s4

/-- TRK_Pk_STATE.RATE. -/
def setTrkRate (s : State) (p rate : Nat) : State := s.setFld (trkState p) 23 16 rate

/-- A trunk port returns to SIGNAL at 1.25 Gbit/s (R375); a local port to TRAIN at its own rate (R384). -/
def restartTrk (s : State) (p : Nat) : State :=
  if portIs s p 2 then setTrk (setPortRate s p (s.fld (macB p + 0x040) 31 24) true) p 5
  else
    let s1 := setTrk s p 1
    let s2 := setPortRec s1 p { portRec s1 p with stepRate := 0, stepAt := 0, rx := none }
    setTrkRate (setPortRate s2 p 1 true) p 1

/-- A trunk or local port goes to FAULT with a code (R370, R378): a trunk port at 1.25 Gbit/s, a local one at its own rate, which 0x01 is not (R339). -/
def faultTrk (s : State) (p code : Nat) : State :=
  let rate := if portIs s p 2 then s.fld (macB p + 0x040) 31 24 else 1
  setTrkRate ((setPortRate (setTrk s p 9) p rate true).setFld (trkState p) 31 24 code) p rate

/-- An enabled port starts its bring-up (R374, R384). With AN an Ethernet port advertises its width and rate (R352): by Clause 37 at 1G, else by Clause 73. -/
def startPort (s : State) (p : Nat) : State :=
  let rate := s.fld (macB p + 0x040) 31 24
  match s.fld (macB p + 0x040) 17 16 with
  | 1 => setTrkRate (setTrk (setPortRate s p 1 true) p 1) p 1
  | 2 => setTrkRate (setTrk (setPortRate s p rate true) p 5) p rate
  | _ =>
    let t := setPortRate s p rate true
    if s.flag (macB p + 0x040) 6 then t.emit (.autoneg p (if rate = 1 then 37 else 73) rate (portWidth s p)) else t

/-- A port stops: its lanes go down, and what its time words gave is forgotten (R212, R374, R392, R436). An asymmetry run on it ends (R278). The rates
excluded under R375 stay so while EN is 1. -/
def stopPort (s : State) (p : Nat) : State :=
  let ls := lanesOf s p
  let s1 := slot7Loses (portDown (abandonRun (stopRanging s p) 2 p false) p) (some p)
  let s2 := if trkSt s1 p = 0 then s1 else setTrk s1 p 0
  let kept := if configured s p then fieldW 15 10 (s2.fld (trkState p) 15 10) else 0
  let s3 := forEach [0, 1] (setPortRec (s2.wr (trkState p) kept) p {}) fun d t => setTrkTime t p d { seq := (trkTime t p d).seq }
  forEach ls (s3.wr (trkPeer p) 0) fun l t => setLaneRec ((abortEye t l).wr (lanB l + 0x040) 0) l {}

/-- Does the chip mode, or a fatal fault, hold the network ports down (R64, R780)? -/
def portsHeld (s : State) : Bool := s.mode == 0 || s.mode == 2 || s.flag (monB + 0x048) 31

/-- Is the switch core going to P2, or in it (R698, R716)? -/
def darkening (s : State) : Bool :=
  s.pstate == 2 || (match s.pwr.change with
    | .gating _ => true
    | _ => false)

/-- May an enabled port run: the chip in a mode that lets ports up, its Pavilion neither gated nor isolated, and in P2 only a trunk port (R700,
R716, R778)? In bypass no trunk port runs, and an Ethernet port only on a clock near enough (R154). -/
def mayStart (s : State) (p : Nat) : Bool :=
  s.alive && !portsHeld s && !s.pwr.gated.contains (p / 16) && !s.pavIsolated (p / 16) && (!darkening s || portIs s p 1) &&
    !(portIs s p 1 && (inBypass s || s.flag (pmonB (p / 16) + 0x040) 19)) && !(portIs s p 0 && inBypass s && !netNear s)

/-- Start the bring-up of every enabled port that a test picks and that may run. -/
def startPorts (s : State) (pick : Nat → Bool) : State :=
  forEach ((List.range 128).filter fun p => s.flag (macB p + 0x040) 0 && pick p) s fun p t => if mayStart t p then startPort t p else t

/-- A write of MAC_CFG takes effect: `b` is the state before the store (R13, R345, R436, R700). A port enabled in a gated Pavilion starts when
the Pavilion has been ungated. -/
def macApply (b s : State) (p : Nat) : State :=
  let was := b.flag (macB p + 0x040) 0
  let on := s.flag (macB p + 0x040) 0
  if on && !was then (if mayStart s p then startPort s p else s)
  else if was && !on then stopPort s p
  else s

/-- LAN_EVENT bit `b` of a lane drives the lane's source (R670). -/
def lanEvent (s : State) (l b : Nat) : State := pavEvent s (l / 16) (l % 16) (lanB l + 0x044) b

/-- A lane's port loses what it needs: a trunk port goes back to SIGNAL, a local port to TRAIN, an Ethernet port goes down (R351, R375,
R384). -/
def lanePortLost (s : State) (l : Nat) : State :=
  match portOfLane s l with
  | none => s
  | some p =>
    if portIs s p 0 then portDown s p
    else if portIs s p 1 then (if 2 ≤ trkSt s p ∧ trkSt s p ≤ 8 then restartTrk s p else s)
    else if 5 ≤ trkSt s p ∧ trkSt s p ≤ 7 then restartTrk s p else s

/-- A lane loses CDR lock: LAN_CDR_LOSS, CDR_LOSS, its scan, its port (R375, R392). -/
def loseCdr (s : State) (l : Nat) : State :=
  let a := lanB l + 0x040
  if !s.flag a 1 then s
  else
    let s0 := if s.flag a 3 then slot7Loses s (portOfLane s l) else s
    let s1 := (s0.setFlag a 1 false).setFlag a 3 false
    lanePortLost (calLaneStop (abortEye (lanEvent (s1.count (lanB l + 0x080)) l 0) l) l) l

/-- A lane is retired (R770): its record, ISOLATED, its port. The CODE of its record the spec does not state (log entry 2). -/
def retireLane (s : State) (l : Nat) : State :=
  if laneRetired s l then s
  else
    let r := l / 16
    let s1 := (recordRetire s.drawn 0 r (l % 16) s.freeCode false).setFlag (pmonB r + 0x048) (16 + l % 16) true
    let s2 := markIsolated (pavRetire s1 r) ⟨.lan, r, l % 16⟩
    match portOfLane s2 l with
    | some p => stopPort s2 p
    | none => s2

/-- A lane's transmit PLL loses lock (R770): TXPLL_LOSS, its port; repeated losses while the APLL is locked retire it. -/
def loseTxPll (s : State) (l : Nat) : State :=
  let a := lanB l + 0x040
  if !s.flag a 2 then s
  else
    let s1 := lanePortLost (calLaneStop (abortEye (lanEvent (s.setFlag a 2 false) l 1) l) l) l
    let s2 := s1.setFlag a 2 false
    if s.flag (clkB + 0x040) 0 then
      let x := windowHit s2 (0x1000 + l)
      if retireLim s ≤ x.2 then retireLane x.1 l else x.1
    else s2

/-- Do all lanes of a port have the given bit of LAN_STATUS? -/
def allLanes (s : State) (p b : Nat) : Bool := (lanesOf s p).all fun l => s.flag (lanB l + 0x040) b

/-- RATES of this end's NEG words, bit `code - 1` for each rate offered (R377). -/
def ownRates (s : State) (p : Nat) : Nat :=
  let top := s.fld (macB p + 0x040) 31 24
  ((List.range 6).filter fun i => decide (i + 1 ≤ top) && !s.flag (trkState p) (10 + i)).foldl (fun a i => a + 2 ^ i) 0

/-- VER_MAX of this end (R377). -/
def ownVerMax (s : State) (p : Nat) : Nat := min (s.fld (trkB (p / 16) + 0x040) 7 4) (s.fld (trkCfg p) 11 8)
/-- VER_MIN. -/
def ownVerMin (s : State) (p : Nat) : Nat := s.fld (trkB (p / 16) + 0x040) 3 0

/-- Bits `hi` down to `lo` of a 64-bit word. -/
def wbits (w : BitVec 64) (hi lo : Nat) : Nat := (w.toNat >>> lo) % 2 ^ (hi + 1 - lo)

/-- The NEG word that a port sends (R377). The part is a YL7260-A0-FCE, so GRADE is 0 (DESIGN CHOICE, log entry 34). -/
def negWord (s : State) (p : Nat) : BitVec 64 :=
  let x := portRec s p
  let v := s.rd (trkB (p / 16) + 0x040)
  BitVec.ofNat 64 (0x5A + ownVerMin s p * 2 ^ 8 + ownVerMax s p * 2 ^ 12 + bits v 11 8 * 2 ^ 16 + bits v 15 12 * 2 ^ 20 + ownRates s p * 2 ^ 24 +
    (if s.flag (trkState p) 7 then 2 ^ 31 else 0) + ownNode s * 2 ^ 32 + (if s.pwr.sendHold then 2 ^ 44 else 0) +
    s.fld (macB p + 0x040) 19 18 * 2 ^ 45 + x.stepRate * 2 ^ 47 + x.stepAt % 4096 * 2 ^ 52)

/-- The highest code set in both ends' RATES (R379); 0 where there is none. -/
def chosenRate (s : State) (p : Nat) (w : BitVec 64) : Nat :=
  ((List.range 6).filter fun i => ownRates s p / 2 ^ i % 2 == 1 && wbits w 29 24 / 2 ^ i % 2 == 1).foldl (fun _ i => i + 1) 0

/-- Does this end report FLOCK, its monitor finding the peer within 50 ppb or not (R380)? -/
def ownFlock (s : State) (p : Nat) (near : Bool) : Bool :=
  near && (followed s 0 != some 7 || refSource s 7 != p || (dpllSt s 0 == 2 && hoValidOf s 0))

/-- Is a peer's frequency, `ppt` off the network clock, within 50 ppb of it (R380)? -/
def freqNear (ppt : Int) : Bool := decide (ppt.natAbs ≤ 50000)

/-- Does this end lead its port (R381)? -/
def leadsPort (s : State) (p : Nat) : Bool :=
  match (portRec s p).peer with
  | some w => decide (ownNode s < wbits w 43 32)
  | none => false

/-- Has the superblock of STEP_AT, the leader's, just ended (R377, R381): the leader has sent it last, or the follower received it last? -/
def rateStepDue (s : State) (p : Nat) : Bool :=
  let at_ := (portRec s p).stepAt % 4096
  if leadsPort s p then (portRec s p).sb % 4096 == (at_ + 1) % 4096 else (laneRec s p).seq % 4096 == at_

/-- This end announces a step (R381, R383): as leader at least 64 superblocks ahead. -/
def announce (s : State) (p rate : Nat) : State :=
  setPortRec s p { portRec s p with stepRate := rate, stepAt := ((portRec s p).sb + 64) % 4096 }

/-- The step a peer has announced. -/
def followStep (s : State) (p : Nat) (w : BitVec 64) : State :=
  if wbits w 49 47 = 0 then s else setPortRec s p { portRec s p with stepRate := wbits w 49 47, stepAt := wbits w 63 52 }

/-- A NEG word drives its port (R378 to R383); `near` says whether the frequency monitor finds the peer within 50 ppb. -/
def takeNeg (s : State) (p : Nat) (w : BitVec 64) (near : Bool) : State :=
  let st := trkSt s p
  let node := wbits w 43 32
  let flock := ownFlock s p near
  let s1 := s.wr (trkPeer p) (fieldW 31 16 (wbits w 31 16) ||| bitW 12 true ||| fieldW 11 0 node)
  let s2 := (s1.setFlag (trkState p) 8 (wbits w 31 31 == 1)).setFlag (trkState p) 7 flock
  let s3 := setPortRec s2 p { portRec s2 p with peer := some w, since := s.elapsed }
  let idc := node == ownNode s || !s.flag (chpB + 0x050) 31
  let leads := decide (ownNode s < node)
  let hold := s.pwr.sendHold || wbits w 44 44 == 1
  let vmin := max (ownVerMin s p) (wbits w 11 8)
  let vmax := min (ownVerMax s p) (wbits w 15 12)
  let rate := chosenRate s p w
  match st with
  | 3 =>
    if vmax < vmin then faultTrk s3 p 0x08
    else if wbits w 46 45 ≠ s.fld (macB p + 0x040) 19 18 then faultTrk s3 p 0x01
    else
      let s4 := (s3.setFlag (trkState p) 9 idc).setFld (trkState p) 6 4 vmax
      if idc then s4
      else if hold then setTrk s4 p 8
      else if flock && wbits w 31 31 == 1 then
        (if rate ≤ 1 then setTrk (s4.wr (trkPeer p + 4) 0) p 6
         else if leads then (if (portRec s4 p).stepRate = 0 then announce s4 p rate else s4)
         else followStep s4 p w)
      else s4
  | 7 =>
    if !hold then s3
    else
      let s4 := setTrk s3 p 8
      if leads then announce s4 p 1 else followStep s4 p w
  | 8 =>
    let s4 := if leads then s3 else followStep s3 p w
    if hold then s4 else setPortRec (setTrk s4 p 3) p { portRec (setTrk s4 p 3) p with stepRate := 0, stepAt := 0 }
  | _ => s3

/-- The announced superblock has ended: both ends change rate (R381, R383). -/
def stepRateNow (s : State) (p : Nat) : State :=
  let rate := (portRec s p).stepRate
  let hold := trkSt s p = 8
  let s1 := setTrkRate (setPortRate s p rate hold) p rate
  let s2 := setPortRec s1 p { portRec s1 p with stepRate := 0, stepAt := 0, phase := none }
  if hold then s2 else setTrk s2 p 4

/-- Is a trunk port eligible as upstream (R385)? -/
def upEligible (s : State) (p : Nat) : Bool :=
  let x := trkTime s p 0
  portIs s p 1 && s.flag (trkCfg p) 0 && [3, 7, 8].contains (trkSt s p) && x.qc != 7 &&
    (match x.lastAt with
     | some t => decide (s.elapsed ≤ t + 1000000 * tuPerNs)
     | none => false)

/-- Is port `p` strictly better than `q` as upstream by HOPS and QC (R386)? Port numbers break the last tie. -/
def upBefore (s : State) (p q : Nat) : Bool :=
  let a := trkTime s p 0
  let b := trkTime s q 0
  decide (a.hops < b.hops) || (a.hops == b.hops && (decide (a.qc < b.qc) || (a.qc == b.qc && decide (p < q))))

/-- The best eligible port. -/
def bestUp (s : State) : Option Nat :=
  ((List.range 128).filter (upEligible s)).foldl (fun b p => match b with
    | none => some p
    | some q => if upBefore s p q then some p else some q) none

/-- Slot 7's SOURCE takes a port and the slot is enabled; with none eligible it is disabled (R387). -/
def setUpstream (s : State) (p : Option Nat) : State :=
  let a := refCfg 7
  let s1 := match p with
    | some q => (s.setFld a 31 24 q).setFlag a 0 true
    | none => s.setFlag a 0 false
  let s2 := s1.setFlag (refStatus 7) 3 false
  dropPhase (judgeSlot s2 7) 7

/-- GO of an eye scan (R391): BUSY, the counts cleared. A lane with no CDR lock ends it at once (R392). -/
def startEye (s : State) (l : Nat) : State :=
  let a := lanB l
  let s1 := forEach [0x070, 0x074, 0x078, 0x07C] (setLaneRec s l { laneRec s l with eyeAt := s.elapsed }) fun o t => t.wr (a + o) 0
  if s.flag (a + 0x040) 1 then s1.wr (a + 0x068) (bitW 0 true) else s1.wr (a + 0x068) (bitW 2 true)

/-- LAN_EYE_CFG value checks: an NRZ lane accepts only the middle eye. -/
def eyeCfgValue (s : State) (l : Nat) (v : Word) : Nat :=
  if laneRate s l ≤ 4 ∧ bits v 15 14 ≠ 1 ∧ bits v 15 14 ≠ 3 then 0x01 else 0

/-- A write of LAN_EYE_CFG while a scan runs is E_BUSY (R392). -/
def eyeCfgOwn (s : State) (l : Nat) : Nat := if s.flag (lanB l + 0x068) 0 then 0x0B else 0

/-- A write of LAN_EYE_CMD takes effect (R391, R392). -/
def eyeCmdApply (s : State) (l : Nat) (v : Word) : State :=
  if bit v 1 then abortEye s l else if bit v 0 ∧ !s.flag (lanB l + 0x068) 0 then startEye s l else s

end Sys2Proof.Machine
end

