-- ==== Sys2Proof/Machine/Switch.lean ====
section
/-!
DEFINITION. Switch.lean: the events of the switch core and its schedulers (08_switch_core.md) and of queue tier moves (R598), one meaning per
row of the table, and what writes of QUE registers check and do.
-/
namespace Sys2Proof.Machine

/-- Does the crossbar serve an attachment (R778)? -/
def attachOk (s : State) (r : Nat) : Bool := r == 8 || !s.pavIsolated r

/-- The parse FIFO of ingress attachment `r` toward `e` at a level whose head has waited longest. The spec orders attachments only (DESIGN
CHOICE, log entry 27). -/
def oldestFifo (s : State) (r e l : Nat) : Option Nat :=
  let ports := if r = 8 then [128] else (List.range 16).map (16 * r + ·) ++ [129 + r]
  ((ports.map fun p => fifoKey p e l).filter fun k => fifoOf s k ≠ []).foldl (fun b k => match b with
    | none => some k
    | some x => if AMap.getD s.sw.heads k 0 < AMap.getD s.sw.heads x 0 then some k else some x) none

/-- The FIFO that the crossbar serves next for attachment `e` at level `l`: ingress attachments round-robin (R400). -/
def nextFifo (s : State) (e l : Nat) : Option (Nat × Nat) :=
  let last := AMap.getD s.sw.served (3 * e + l) 8
  (((List.range 9).map fun i => (last + 1 + i) % 9).filter (attachOk s)).findSome? fun r => (oldestFifo s r e l).map fun k => (r, k)

/-- When a frame of `len` bytes, granted now, has streamed to an attachment at its rate: 2.4 Tbit/s to a Pavilion, 256 Gbit/s to the Gatehouse (R401). -/
def acrossAt (s : State) (e len : Nat) : Nat := max s.elapsed (AMap.getD s.sw.across e 0) + len * tuPerNs / (if e = 8 then 32 else 300)

/-- CROSSBAR_GRANT (R400, R401): egress attachment `e` is granted the next frame by level; its copies are admitted or dropped. Valid once the frame granted
before has streamed across, at the latest by the end of the present tick. -/
def execCrossbarGrant (e : Fin 9) (s : State) : Result :=
  if !switchRuns s ∨ !attachOk s e ∨ s.elapsed + baseInc s (activeDom s) ≤ AMap.getD s.sw.across e.val 0 then .next s
  else
    match [0, 1, 2].findSome? fun l => (nextFifo s e l).map fun x => (l, x) with
    | none => .next s
    | some (l, r, k) =>
      match fifoOf s k with
      | [] => .next s
      | x :: _ =>
        let s1 := popFifo s k
        let s2 := { s1 with sw := { s1.sw with
          served := AMap.set s1.sw.served (3 * e.val + l) r, across := AMap.set s1.sw.across e.val (acrossAt s e x.f.bytes.length) } }
        .next (admitAll (perfCount s2 none { ev := 0x06, cls := some x.f.cls } 1) x)

/-- CROSSBAR_TIMEOUT_DROP (R401): valid on a frame that has been at the head of its FIFO for 2 us. -/
def execCrossbarTimeoutDrop (ing : Fin 137) (e : Fin 9) (l : Fin 3) (s : State) : Result :=
  let k := fifoKey ing e l
  match if switchRuns s then fifoOf s k else [] with
  | [] => .next s
  | x :: _ =>
    if AMap.getD s.sw.heads k 0 + 2000 * tuPerNs ≤ s.elapsed then
      let s1 := popFifo s k
      let s2 := if ing.val = 128 then s1 else s1.count (quePortCtr ing + 0x10)
      .next (abortStamped (perfCount s2 none { ev := 0x07, cls := some x.f.cls } 1) x.done)
    else .next s

/-- A compute port takes its next frame (R415, R569): it reaches the Bandstand where some input stream has its group. -/
def computeTake (s : State) (p : Nat) : State :=
  match pickClass s p with
  | none => s
  | some (t, x) =>
    match queueOf s p t with
    | [] => s
    | c :: l =>
      let s1 := releaseCopy (setPortSw (setQueue s p t l) p (spendTokens s p t c.f.bytes.length x)) c
      let s2 := abortStamped (s1.count (queCtr p t + 4)) c.done
      let r := p - 129
      let wanted := s.plc.streams.any fun e => (e.2.skind == 1 || e.2.skind == 3) && some e.2.grp == c.f.grp
      if wanted then { s2 with sw := { s2.sw with inbox := AMap.set s2.sw.inbox r (AMap.getD s2.sw.inbox r [] ++ [c.f]) } } else s2

/-- FRAME_TRANSMIT (R415): port `p` can start a frame; heads that fit no window of their class are dropped first (R423). -/
def execFrameTransmit (p : Fin 137) (s : State) : Result :=
  if !switchRuns s ∨ p.val = 128 then .next s
  else if 129 ≤ p.val then .next (if s.pavIsolated (p.val - 129) then s else computeTake s p)
  else if !portUp s p ∨ (portSw s p).tx.isSome then .next s
  else
    let s1 := forEach (List.range 7) s fun t y => dropGated y p t (queueOf y p t).length
    match pickClass s1 p with
    | some (t, x) => .next (startTx s1 p t x)
    | none => .next s1

/-- GATE_ENTRY_CHANGE (R420, R421): an entry or a cycle of port `p` starts. -/
def execGateEntryChange (p : Fin 128) (s : State) : Result := .next (showGate s p)

/-- ACTIVE of a scheduler changes: SCHED_CHG, the gates shown. -/
def setActiveSched (s : State) (p : Nat) (b : Bool) : State :=
  let s1 := queEvent (s.setFlag (queSlot p + 0x004) 8 b) (portPav p) 0
  showGate (if b then s1 else setPortSw s1 p { portSw s1 p with credit4 := 0, credit5 := 0, lastUntil := 0 }) p

/-- SCHEDULER_STOPPED (R425): valid once EN is clear and no frame is in transmission. -/
def execSchedulerStopped (p : Fin 128) (s : State) : Result :=
  if s.flag (queSlot p + 0x004) 8 ∧ !s.flag (queSlot p + 0x004) 0 ∧ (portSw s p).tx.isNone then .next (setActiveSched s p false) else .next s

/-- FLUSH_COMPLETE (R436, R440): port `p`'s flush has completed; after 10 us it has in any case (`tickPorts`). -/
def execFlushComplete (p : Fin 128) (s : State) : Result := .next (setPortSw s p { portSw s p with flushing := none })

/-- May the engine move queue (p, t) to the Orangery (R17, R414, R598)? -/
def moveUpDue (s : State) (p t : Nat) : Bool :=
  !queTier s p t && decide (orgUp s < depthOf s p t) && decide (524288 * 2 ^ 40 ≤ 4 * meterNow s) &&
    (match AMap.get s.plc.above (8 * p + t) with
     | some e => decide (e + 1000000 * tuPerNs ≤ s.elapsed)
     | none => false)

/-- May it move back to SRAM? -/
def moveDownDue (s : State) (p t : Nat) : Bool :=
  queTier s p t && decide (depthOf s p t < orgDown s) && decide (AMap.getD s.plc.below (8 * p + t) 0 + 10000000 * tuPerNs ≤ s.elapsed)

/-- TIER_MOVE_START (R413, R414, R598): queue (p, t) of a best-effort class. -/
def execTierMoveStart (p : Fin 137) (t : Fin 4) (s : State) : Result :=
  if p.val ≠ 128 ∧ !queMoving s p t ∧ (moveUpDue s p t ∨ moveDownDue s p t) then
    .next (plcEvent ((s.setFlag (queAdm p t + 0x0C) 31 true).count (plcB + 0x108)) 4)
  else .next s

/-- TIER_MOVE_DONE (R413): valid once every frame of the old tier has left the moving queue. -/
def execTierMoveDone (p : Fin 137) (t : Fin 4) (s : State) : Result :=
  if p.val ≠ 128 ∧ queMoving s p t ∧ ((queueOf s p t).all fun c => c.tier == newTier s p t) then .next (endMove s p t) else .next s

/-- Value checks of QUE registers (R398). -/
def queValue (e : Eff) (off : Nat) (v : Word) : Nat :=
  match e with
  | .queMap =>
    let n := if off % 0x400 = 0x01C then 8 else if off % 0x400 = 0x048 then 4 else 10
    if (List.range n).any fun i => bits v (3 * i + 2) (3 * i) == 7 then 0x01 else 0
  | _ => 0

/-- Does R427 let a scheduler start? -/
def schedMayStart (s : State) (p : Nat) : Bool :=
  let c := cycleTu s p
  let es := (gateList s p).dropLast
  decide ((s.rd (queSlot p + 0x010)).toNat * tuPerNs < c) && es.all (fun e => decide (64 * tuPerNs ≤ e.2)) &&
    decide (es.foldl (fun a e => a + e.2) 0 < c) &&
    decide (((s.rd (queAdm p 5 + 8)).toNat + (s.rd (queAdm p 4 + 8)).toNat) * 1000 ≤ portBps s p)

/-- Refusals of QUE writes after the checks of R89 (R406, R427). `p` is the port of the slot. -/
def queOwn (s : State) (e : Eff) (a p : Nat) (v : Word) : Nat :=
  match e with
  | .queSched => if bit v 0 ∧ !s.flag a 0 ∧ !schedMayStart s p then 0x06 else 0
  | .queAdm =>
    let old := s.fld a 15 0
    if old < bits v 15 0 ∧ 32768 < minSum s (portPav p) - old + bits v 15 0 then 0x07 else 0
  | _ => 0

/-- A write of a QUE register takes effect (R425). `b` is the state before the store. -/
def queApply (b s : State) (e : Eff) (p : Nat) : State :=
  match e with
  | .queSched =>
    let was := b.flag (queSlot p + 0x004) 0
    let on := s.flag (queSlot p + 0x004) 0
    if on && !was then
      let from_ := nodeTime s + (cycleTu s p - gatePos s p)
      let s1 := setPortSw s p { portSw s p with gateFrom := from_ }
      if s1.flag (queSlot p + 0x004) 8 then s1 else setActiveSched s1 p true
    else if was && !on && (portSw s p).tx.isNone then setActiveSched s p false
    else s
  | .queAdm => judgePool b s (portPav p)
  | _ => s

end Sys2Proof.Machine
end

