-- ==== Sys2Proof/Machine/ClkWrites.lean ====
section
/-!
DEFINITION. ClkWrites.lean: what writes of CLK registers check and do (03_reference_and_synthesis.md), and the loss of lock, the bypass and
the return from it (R152 to R157, R829, R830), which reach every engine.
-/
namespace Sys2Proof.Machine

/-- f_pd in units of 100 kHz for a CLK_APLL_CFG value; none for an illegal pair (R143). -/
def apllPd (c : Word) : Option Nat :=
  match bits c 1 0, bits c 9 8 with
  | 0, 1 => some 100
  | 0, 2 => some 200
  | 1, 0 => some 100
  | 1, 1 => some 200
  | 1, 2 => some 400
  | 2, 0 => some 125
  | 2, 1 => some 250
  | 3, 0 => some 250
  | _, _ => none

/-- Does the APLL lock with an oscillator of `hz` (R830)? -/
def apllLocks (c : Word) (hz : Nat) : Bool :=
  match apllPd c with
  | some f =>
    let vco := hz * f * (100000 / f) / oscNominal c
    decide (9800000000 ≤ vco) && decide (vco ≤ 11200000000)
  | none => false

/-- The slot, DPLL or output of a CLK register at `a`, whose row gave index `i`. -/
def clkIndex (e : Eff) (a i : Nat) : Nat :=
  match e with
  | .clkRefCfg => (a - clkB - 0x100) / 0x20
  | .clkDpllCfg => (a - clkB - 0x200) / 0x40
  | _ => i

/-- Value checks of CLK writes beyond the field tables: 0, 0x01 or 0x06 (R100, R143, R146). -/
def clkValue (s : State) (e : Eff) (i : Nat) (v : Word) : Nat :=
  match e with
  | .clkRefCfg => if 5 ≤ i ∧ 128 ≤ bits v 31 24 then 0x06 else 0
  | .clkRefLimit => if bits v 15 0 = 0 ∨ bits v 31 16 ≤ bits v 15 0 then 0x06 else 0
  | .clkApllCfg =>
    match apllPd v with
    | some f => if f * 5 < 200 * 2 ^ bits v 11 10 then 0x06 else 0
    | none => 0x06
  | .clkOutCfg => if bits v 9 8 = 2 ∧ (s.rd (clkB + 0x304 + 0x20 * i)).toNat < 40 then 0x06 else 0
  | .clkOutDiv => if s.fld (clkB + 0x300 + 0x20 * i) 9 8 = 2 ∧ v.toNat < 40 then 0x06 else 0
  | _ => 0

/-- The network lanes as the clocks enter bypass (R154): trunk lanes go down; the transmit PLLs of Ethernet lanes lose lock unless the bypass clock is
near enough. -/
def bypassLanes (s : State) : State :=
  forEach ((List.range 128).filter fun p => portIs s p 1) s fun p t =>
    let t1 := restartTrk t p
    forEach (lanesOf t1 p) t1 fun l u => u.wr (lanB l + 0x040) (fieldW 15 8 1)

/-- See `bypassLanes`. -/
def bypassEth (s : State) : State :=
  if netNear s then s
  else forEach ((List.range 128).filter fun p => portIs s p 0) s fun p t => forEach (lanesOf t p) t fun l u => loseTxPll u l

/-- The APLL loses lock, and the clocks go to their bypass sources (R152 to R154, R829). -/
def loseLock (s : State) : State :=
  let s1 := clkEvent (s.setFlag (clkB + 0x040) 0 false) 6
  let s2 := { s1 with clk := { s1.clk with pdBad := 0, unlockClr := false } }
  if inBypass s then s2
  else
    let s3 := (s2.setFlag (clkB + 0x040) 1 true).setFld (clkB + 0x040) 11 8 4
    refreshQc (calStop (gnsBypass (bypassEth (bypassLanes (loadBypInc (switchClkOuts s3))))))

/-- APLL_LOSS_OF_LOCK (R152, R153): valid while the APLL is locked, once its phase detector's error has been excessive on 8 consecutive cycles. -/
def execApllLossOfLock (s : State) : Result := if clkRuns s ∧ s.flag (clkB + 0x040) 0 ∧ 8 ≤ s.clk.pdBad then .next (loseLock s) else .next s

/-- APLL_LOCK (R829, R830): the APLL settles with OSCIN at `oscHz`; it locks only if its VCO lands in its tuning range. -/
def execApllLock (oscHz : Nat) (s : State) : Result :=
  if clkRuns s ∧ !s.flag (clkB + 0x040) 0 ∧ apllLocks (s.rd (clkB + 0x050)) oscHz ∧ !s.clk.oscLost then
    .next { s.setFlag (clkB + 0x040) 0 true with clk := { s.clk with lockedAt := s.elapsed, pdBad := 0, unlockClr := false } }
  else .next s

/-- The clocks return from bypass: output dividers resynchronised, clock quality as the loops stand, lanes that went down start their bring-up
(R156, R157). -/
def leaveBypass (s : State) : State :=
  let s1 := (s.setFlag (clkB + 0x040) 1 false).setFld (clkB + 0x040) 11 8 s.clk.cq
  let down (t : State) (p : Nat) : Bool := portIs t p 1 || (portIs t p 0 && (lanesOf t p).any fun l => !t.flag (lanB l + 0x040) 2)
  let s3 := startPorts (switchClkOuts s1) (down s1)
  refreshQc (clkEvent s3 7)

/-- BYPASS_RETURN (R156, R157): valid once the APLL has stayed locked for RET_HOLD ms and the return is automatic or allowed. -/
def execBypassReturn (s : State) : Result :=
  if clkRuns s ∧ inBypass s ∧ s.flag (clkB + 0x040) 0 ∧ s.clk.lockedAt + s.fld (clkB + 0x05C) 31 16 * 1000000 * tuPerNs ≤ s.elapsed ∧ (s.flag (clkB + 0x05C) 8 ∨ s.clk.unlockClr) then
    .next (leaveBypass s)
  else .next s

/-- A slot starts anew after a write that changes what it measures, or is switched on or off (R99, R100, R105). -/
def restartSlot (s : State) (n : Nat) : State :=
  let r := slotRec s n
  let s1 := setSlotRec s n { r with ofs0 := none, ofs1 := none, qualMs := 0, qualAge := 0, win := [] }
  let s2 := dropPhase (judgeSlot (s1.setFlag (refStatus n) 3 false) n) n
  refreshLoops s2

/-- A write of a CLK register takes effect; `b` is the state before the store, `v` the word written (R100, R113, R129, R145 to R150, R156, R829). -/
def clkApply (b s : State) (m : Master) (e : Eff) (i : Nat) (v : Word) : State :=
  match e with
  | .clkEvent =>
    if bit v 6 && s.flag (clkB + 0x040) 0 && inBypass s then { s with clk := { s.clk with unlockClr := true } } else s
  | .clkMonCfg => forEach (List.range 8) s fun n t => judgeSlot t n
  | .clkRefCfg =>
    let old := b.rd (refCfg i)
    let new := s.rd (refCfg i)
    if bit old 0 ≠ bit new 0 ∨ (bit new 0 ∧ (old &&& 0xFF030000) ≠ (new &&& 0xFF030000)) then restartSlot s i
    else refreshLoops s
  | .clkRefNom => if refEnabled s i ∧ b.rd (refCfg i + 4) ≠ s.rd (refCfg i + 4) then restartSlot s i else s
  | .clkRefLimit => judgeSlot s i
  | .clkDpllCfg => applyMode s i (dpllMode b i)
  | .clkOutEn => outEnWritten s (m == .cue)
  | .clkOutDelay => outDelayWritten s i (m == .cue)
  | .clkApllCfg => loseLock s
  | .clkBypCfg => if inBypass s then refreshQc (bypassEth (loadBypInc s)) else s
  | .clkOscTrim => mirrorLoops (rebaseTrim s (oscTrim b) (oscTrim s))
  | _ => s

end Sys2Proof.Machine
end

