-- ==== Sys2Proof/Machine/GnsWrites.lean ====
section
/-!
DEFINITION. GnsWrites.lean: what writes of GNS registers check and do (06_belvedere_gnss.md), and the end of a Grotto job (R322 to R328).
-/
namespace Sys2Proof.Machine

/-- GNS_CHc_CARR with one half replaced. -/
def carrWith (s : State) (a i : Nat) (v : Word) : Int :=
  let lo := chanCfg i + 8
  let n := if a = lo then join (s.rd (lo + 4)) v else join v (s.rd lo)
  signedOf 48 n

/-- The signed target of a CS NS field against node time, in ns (R176). -/
def nsAhead (s : State) (v : Word) : Int := signedOf 32 (v.toNat + 2 ^ 32 - nodeTime s / tuPerNs % 2 ^ 32)

/-- Is an NS target strictly after node time (R176, R225)? -/
def nsIsAhead (s : State) (v : Word) : Bool := decide ((nodeTime s % tuPerNs / 2 ^ 24 : Nat) < nsAhead s v * 65536)

/-- The node time that an NS target names. -/
def nsTarget (s : State) (v : Word) : Nat := ((nodeTime s / tuPerNs * tuPerNs : Nat) + nsAhead s v * (tuPerNs : Nat)).toNat

/-- Value checks of GNS writes beyond the field tables: 0, 0x01 or 0x06 (R286, R292, R299, R305). -/
def gnsValue (s : State) (e : Eff) (a i : Nat) (v : Word) : Nat :=
  match e with
  | .gnsPpsCfg => if bits v 9 8 ≤ 1 ∧ bits v 15 12 < 4 then 0x06 else 0
  | .gnsAcqReq =>
    if bits v 31 29 ≠ 0 ∧ snapState s (bits v 31 29 - 1) ≠ 3 then 0x01
    else if sigRefused s (bits v 3 1) (bits v 9 4) (bits v 13 10) then 0x06 else 0
  | .gnsChCfg => if sigRefused s (bits v 3 1) (bits v 9 4) (bits v 13 10) then 0x06 else 0
  | .gnsChCarr =>
    if (sampleRate s (sigInput (s.fld (chanCfg i) 3 1)) * 65536 : Nat) < 2 * (carrWith s a i v).natAbs then 0x06 else 0
  | _ => 0

/-- May a master write a channel's registers (R300, R301)? The host is master 0; management cores act for the firmware. -/
def ownsChannel (s : State) (c : Nat) (m : Master) : Bool := s.flag (chanCfg c) 21 == (m.num == 0)

/-- The code that refuses GO on a job slot (R321, R329, R332, R335); 0 where it is taken. -/
def grtGoCode (s : State) (j : Nat) : Nat :=
  let cfg := s.rd (grtCfg j)
  let src := s.rd (grtCfg j + 4)
  let lag := s.rd (grtCfg j + 8)
  if grtLive s j then 0x0B
  else
    let c := match bits cfg 1 0 with
      | 1 =>
        if s.pstate = 2 then 0x07
        else if !tapExists s (bits src 15 0) ∨ !tapExists s (bits src 31 16) then 0x06
        else if tapRate s (bits src 15 0) ≠ tapRate s (bits src 31 16) then 0x01
        else if sbits lag 31 16 < sbits lag 15 0 ∨ ((2 ^ (bits cfg 11 8 - 1) : Nat) : Int) < sbits lag 31 16 - sbits lag 15 0 + 1 then 0x06
        else 0
      | 2 => if portIs s (grtPort s j) 1 then 0 else 0x01
      | _ => 0
    if c ≠ 0 then c else if bit cfg 2 ∧ !nsIsAhead s (s.rd (grtCfg j + 0x0C)) then 0x0F else 0

/-- Refusals of GNS writes after the checks of R89 (R284, R293, R300, R301, R312, R320, R321, R329, R330, R332, R335). -/
def gnsOwn (s : State) (e : Eff) (a i : Nat) (m : Master) (v : Word) : Nat :=
  match e with
  | .gnsCtrl =>
    if (List.range 64).any fun c => chanState s c == 2 && decide (c < bits v 22 16) then 0x0B else 0
  | .gnsFeCfg | .gnsFeLo => if inputBusy s ((a - gnsB - 0x080) / 0x20) then 0x0B else 0
  | .gnsAcqCmd => if bit v 0 ∧ s.flag (gnsB + 0x30C) 31 then 0x0B else 0
  | .gnsSnapCmd =>
    let k := bits v 5 4
    if bit v 0 then
      (if snapState s k ≠ 0 then 0x0B
       else if s.pstate = 2 ∨ orgSize < orgUsed s + 2 ^ 26 then 0x07
       else if s.fld (gnsB + 0x400) 9 8 = 1 ∧ !nsIsAhead s (s.rd (gnsB + 0x404)) then 0x0F
       else 0)
    else if bit v 1 ∧ snapState s k = 2 then 0x0B
    else 0
  | .gnsGrt => if s.flag (grtCfg i) 22 then 0x0B else 0
  | .gnsGrtCmd => if s.flag (grtCfg i) 22 then 0x0B else if bit v 0 then grtGoCode s i else 0
  | .gnsChCfg =>
    let old := s.rd a
    let swap := bit old 21 != bit v 21
    if swap && m.num != 0 then 0x02
    else if chanState s i = 2 then 0x0B
    else if !swap && !ownsChannel s i m then 0x0B
    else if swap && !ownsChannel s i m && (old &&& 0xFFDFFFFF) != (v &&& 0xFFDFFFFF) then 0x0B
    else 0
  | .gnsChCode | .gnsChCarr | .gnsChSlew => if ownsChannel s i m then 0 else 0x0B
  | _ => 0

/-- A write of a channel's CFG takes effect (R296, R301): a change of OWNER waits for the next epoch of a running channel. A channel that starts takes the
NCO values written and begins at phase 0 (DESIGN CHOICE, log entry 179). -/
def chanCfgApply (b s : State) (c : Nat) : State :=
  let a := chanCfg c
  let old := b.rd a
  let new := s.rd a
  let s0 := s.setFld (a + 0x14) 1 0 (if bit new 0 then 1 else 0)
  let s1 := if bit new 0 = bit old 0 then s0
    else setGnsCh s0 c { gnsCh s0 c with code := s.rd (a + 4), carr := s.rd64 (a + 8) % 2 ^ 48, phase := 0, cycles := 0, ended := none, extra := 0 }
  if bit old 21 != bit new 21 && bit old 0 then
    setGnsCh ((s1.setFlag a 21 (bit old 21)).setFlag (a + 0x14) 4 true) c { gnsCh s1 c with ownerNext := some (bit new 21) }
  else if bit new 0 then s1
  else
    match (gnsCh s1 c).ownerNext with
    | some o => setGnsCh ((s1.setFlag a 21 o).setFlag (a + 0x14) 4 false) c { gnsCh s1 c with ownerNext := none }
    | none => s1

/-- A write of a GNS register takes effect; `b` is the state before the store, `v` the word written. -/
def gnsApply (b s : State) (e : Eff) (i j : Nat) (v : Word) : State :=
  match e with
  | .gnsNtCfg => notchMode b s i j
  | .gnsTacc => judgeFix s false
  | .gnsPpsCfg =>
    let s1 := if s.fld (gnsB + 0x200) 9 8 = 1 ∧ b.fld (gnsB + 0x200) 9 8 ≠ 1 then
      { s with gns := { s.gns with survey := (0, 0, 0) } }.wr (gnsB + 0x20C) 0 else s
    judgeFix s1 false
  | .gnsAcqCmd =>
    if bit v 0 then
      let src := s.fld (gnsB + 0x300) 31 29
      let s1 := { s with gns := { s.gns with
        acqs := s.gns.acqs ++ [AcqWho.host], acq := { req := s.rd (gnsB + 0x300), dop := s.rd (gnsB + 0x304) } } }.wr (gnsB + 0x30C) (bitW 31 true)
      if !gnsRuns s1 then endAcq s1 0x0A else if src ≠ 0 ∧ snapState s1 (src - 1) ≠ 3 then endAcq s1 0x01 else s1
    else s
  | .gnsSnapCmd =>
    let k := bits v 5 4
    if bit v 0 then
      setSnapState (setSnapRec s k
        { cfg := s.rd (gnsB + 0x400)
          start := match s.fld (gnsB + 0x400) 9 8 with
            | 0 => some (s.gns.vco + 1)
            | 1 => some (nsTarget s (s.rd (gnsB + 0x404)))
            | _ => none }) k 1
    else if bit v 1 ∧ snapState s k ≠ 0 then setSnapState (setSnapRec s k {}) k 0
    else s
  | .gnsGrtCmd =>
    if bit v 0 then
      (if s.fld (grtCfg i) 1 0 = 0 then s
       else
         let s1 := startGrotto s i (if s.flag (grtCfg i) 2 then nsTarget s (s.rd (grtCfg i + 0x0C)) else nodeTime s) none
         if gnsRuns s1 then s1 else endGrotto s1 i 0x0A false)
    else if bit v 1 ∧ grtLive s i then endGrotto s i 0x0A false
    else s
  | .gnsChCfg => chanCfgApply b s i
  | .gnsChSlew =>
    s.wrSigned (chanCfg i + 0x10) (sbits (b.rd (chanCfg i + 0x10)) 31 0 + sbits v 31 0)
  | _ => s

/-- A write of GNS_BLK_CTRL takes effect (R336). -/
def gnsBlkCtrl (b s : State) : State :=
  if b.flag (gnsB + 0x004) 0 && !s.flag (gnsB + 0x004) 0 then gnsOff s else s

/-- The samples of a job's tap in order: one that never came reads 0 (R567). -/
def grtSeries (s : State) (j : Nat) (m : AMap Word) : List Word :=
  (List.range (grtSamples s j)).map fun i => AMap.getD m ((jobRec s j).first.getD 0 + i) 0

/-- The correlation of a job's taps at a lag, and at a lag in quarter samples, normalised in units of 2^-15 (R322, R323). The spec states no arithmetic for it:
it is the part's own (log entry 180). -/
def grtCoarse (s : State) (j : Nat) (lag : Int) : Int :=
  let x := jobRec s j
  Config.coarseCorr (s.flag (grtCfg j) 3) (s.fld (grtCfg j) 11 8) (grtSeries s j x.xs) (grtSeries s j x.ys) lag
/-- See `grtCoarse`. -/
def grtFine (s : State) (j : Nat) (quarter : Int) : Int :=
  let x := jobRec s j
  Config.fineCorr (s.fld (grtCfg j) 11 8) (grtSeries s j x.xs) (grtSeries s j x.ys) quarter

/-- The lags of a job's window, LAG_MIN to LAG_MAX (R322). -/
def grtLags (s : State) (j : Nat) : List Int :=
  let r := s.rd (grtCfg j + 8)
  (List.range (sbits r 31 16 - sbits r 15 0 + 1).toNat).map fun (i : Nat) => sbits r 15 0 + (i : Int)

/-- The element of a list that is largest by a measure, the first of equals. -/
def largest (l : List Int) (f : Int → Nat) : Int :=
  match l with
  | [] => 0
  | a :: t => t.foldl (fun b x => if f b < f x then x else b) a

/-- A job's integer lag: that of the largest correlation magnitude (R322). -/
def grtLag (s : State) (j : Nat) : Int := largest (grtLags s j) fun l => (grtCoarse s j l).natAbs

/-- PEAK of a job in 1/256 sample (R323): seven lags a quarter sample apart around the integer peak, and a parabola through the largest and its two
neighbours. The largest is sought among the five that have two neighbours (DEDUCED, log entry 180). -/
def grtPeak (s : State) (j : Nat) : Int :=
  let q := 4 * grtLag s j
  let m (i : Int) : Int := (grtFine s j (q + i)).natAbs
  let i := largest [-2, -1, 0, 1, 2] fun i => (m i).natAbs
  let den := m (i - 1) - 2 * m i + m (i + 1)
  64 * (q + i) + (if den = 0 then 0 else divRound (if den < 0 then -(32 * (m (i - 1) - m (i + 1))) else 32 * (m (i - 1) - m (i + 1))) den.natAbs)

/-- MAG and RATIO of a job (R324): the normalised peak magnitude in Q1.15, and the peak over the largest value at least 8 samples away within the window in
Q8.8, both saturating. -/
def grtMag (s : State) (j : Nat) : Nat × Nat :=
  let l := grtLag s j
  let peak := (grtCoarse s j l).natAbs
  let far := (grtLags s j).filter fun x => decide (8 ≤ (x - l).natAbs)
  let next := (far.map fun x => (grtCoarse s j x).natAbs).foldl max 0
  (min peak 65535, if next = 0 then 65535 else min (peak * 256 / next) 65535)

/-- Has a job all it needs for its result (R293, R322, R326, R328): in MODE 1 its samples, with its turn at the acquisition engine come; in MODE 2 its code sent
and the markers exchanged? -/
def grtReady (s : State) (j : Nat) : Bool :=
  let x := jobRec s j
  if s.fld (grtCfg j) 1 0 = 2 then x.exchanged && decide (4095 * (s.fld (grtCfg j) 21 12 + 1) ≤ x.chips)
  else s.gns.acqs.head? == some (.job j)

/-- The results of a job: PEAK, RATIO and MAG, DELAY in ps, the time of T0 and the domain it is in (R322 to R328). Of a ranging job the spec forms no RATIO
and no MAG: they read 0 (DESIGN CHOICE, log entry 180). -/
def grtResults (s : State) (j : Nat) : Int × Word × Int × Nat × Nat :=
  let x := jobRec s j
  if s.fld (grtCfg j) 1 0 = 2 then (x.apart.tdiv (sbTime s (grtPort s j)), 0, x.delay, x.left.getLastD 0, 0)
  else
    let fs := fsOf ((tapRate s (s.fld (grtCfg j + 4) 15 0)).getD 0)
    let m := grtMag s j
    (grtPeak s j, fieldW 31 16 m.2 ||| fieldW 15 0 m.1, divRound (grtPeak s j * 10 ^ 12) (256 * fs), x.first.getD 0 * tuPerSec / fs, 2)

/-- GROTTO_DONE (R322 to R328, R333): job `j` completes with its results; CONF is 1 when RATIO reaches MIN_RATIO. -/
def execGrottoDone (j : Fin 8) (_x _y _z : Unit) (s : State) : Result :=
  if grtState s j = 2 ∧ grtReady s j = true ∧ gnsRuns s then
    let r := grtResults s j
    let s1 := ((s.wr (grtCfg j + 0x18) (BitVec.ofInt 32 r.1)).wr (grtCfg j + 0x1C) r.2.1).wr64 (grtCfg j + 0x20) (codeOf 64 r.2.2.1)
    let s2 := s1.wr64 (grtCfg j + 0x28) (compactStamp s1 r.2.2.2.2 r.2.2.2.1 false 0)
    let s3 := match (jobRec s j).forPort with
      | some p => if (calItem s2 2 p).run then setCalItem s2 2 p { calItem s2 2 p with ranged := some r.2.2.1 } else s2
      | none => s2
    .next (endGrotto s3 j 0 (decide (s.fld (grtCfg j) 7 4 * 128 ≤ bits r.2.1 31 16)))
  else .next s

end Sys2Proof.Machine
end

