-- ==== Sys2Proof/Machine/Host.lean ====
section
/-!
DEFINITION. Host.lean: doorbells, transmit and receive, moderation, the PCIe link and function (12_host_rings.md R616 to R639, R656 to R664,
16_pins_package_electrical.md R804), one meaning per row of the table. Function resets, which reach the cue engine, stand in Reset.lean.
-/
namespace Sys2Proof.Machine

/-- A refused doorbell (R618): recorded, DB_ERR. -/
def refuseDoorbell (s : State) (n code : Nat) (v : Word) : State :=
  hifEvent ((s.wr (hifB + 0x048) (fieldW 31 24 code ||| fieldW 23 16 n)).wr (hifB + 0x04C) v) 0

/-- The first condition of R618 that refuses a doorbell; 0 where none does. -/
def doorbellCode (s : State) (be : BitVec 4) (n : Nat) (v : Word) : Nat :=
  let cq := bit v 31
  let size := if cq then cqSize s n else ringSize s n
  let p := if cq then cqP s n else ringP s n
  let c := if cq then cqC s n else ringC s n
  let i := bits v 15 0
  let producer := !cq && ringType s n != 6
  if be ≠ 0xF then 0x11
  else if bits v 29 16 ≠ 0 ∨ (bit v 30 ∧ !cq) ∨ !(if cq then cqEn s n else ringEn s n) then 0x01
  else if size ≤ i then 0x06
  else if producer then (if usedOf i c size < usedOf p c size then 0x06 else 0)
  else if usedOf p c size < usedOf i c size then 0x06 else 0

/-- A doorbell on page `n` (R616 to R619). -/
def doorbell (s : State) (be : BitVec 4) (n : Nat) (v : Word) : State :=
  if !s.alive then s
  else
    let code := doorbellCode s be n v
    if code ≠ 0 then refuseDoorbell s n code v
    else if bit v 31 then
      let s1 := s.setFld (cqCfg n + 0x0C) 15 0 (bits v 15 0)
      if bit v 30 then setCqRec (setArmed s1 n true) n { cqRec s1 n with armedAt := s1.elapsed } else s1
    else if ringType s n = 6 then s.setFld (ringCfg n + 0x0C) 15 0 (bits v 15 0)
    else s.setFld (ringCfg n + 0x0C) 31 16 (bits v 15 0)

/-- A write of BAR2 (R42, R43): offset 0 of page `n` is the doorbell of ring `n`, every other offset is ignored. -/
def bar2Write (s : State) (be : BitVec 4) (a : Nat) (v : Word) : State := if a % 0x1000 = 0 then doorbell s be (a / 0x1000) v else s

/-- RING_DOORBELL (R617): a write with TARGET 0. -/
def execRingDoorbell (be : BitVec 4) (a : BitVec 20) (v : Word) (s : State) : Result := .next (bar2Write s be a.toNat v)

/-- CQ_DOORBELL (R617): a write with TARGET 1. -/
def execCqDoorbell (be : BitVec 4) (a : BitVec 20) (v : Word) (s : State) : Result := .next (bar2Write s be a.toNat v)

/-- CQ_REARM (R617, R660): a write with TARGET 1 and REARM 1. -/
def execCqRearm (be : BitVec 4) (a : BitVec 20) (v : Word) (s : State) : Result := .next (bar2Write s be a.toNat v)

/-- The code of a transmit descriptor (R627). -/
def txCode (d : List Word) : Nat :=
  let len := bits (dwAt d 2) 31 16
  let vid := bits (dwAt d 2) 15 4
  let mode := bits (dwAt d 3) 31 30
  let dest := bits (dwAt d 3) 15 0
  let fcs := bit (dwAt d 3) 25
  if len = 0 ∨ 16384 < len ∨ (!fcs ∧ 16380 < len) ∨ (fcs ∧ len < 64) then 0x05
  else if bits (dwAt d 2) 3 0 ≠ 0 ∨ bits (dwAt d 3) 24 16 ≠ 0 ∨ dwAt d 4 ≠ 0 ∨ dwAt d 5 ≠ 0 ∨ dwAt d 6 ≠ 0 ∨ dwAt d 7 ≠ 0 ∨ mode = 3 ∨
      (mode = 0 ∧ dest ≠ 0) ∨ (mode ≠ 0 ∧ vid ≠ 0) ∨ (mode = 1 ∧ (dest = 128 ∨ reservedPort dest)) ∨
      (bit (dwAt d 3) 26 ∧ !(mode = 1 ∧ dest < 128)) then 0x01
  else if (mode = 1 ∧ 255 < dest) ∨ (mode = 0 ∧ (vid = 0 ∨ vid = 4095)) then 0x06
  else 0

/-- The next frame's number. -/
def State.nextFrame (s : State) : State := { s with sw := { s.sw with next := s.sw.next + 1 } }

/-- The frame that a transmit descriptor makes of its bytes (R26, R628). -/
def txFrame (s : State) (d : List Word) (data : List Byte) : Frame :=
  let raw := (List.range (bits (dwAt d 2) 31 16)).map fun i => data.getD i 0
  let padded := raw ++ List.replicate (60 - raw.length) 0
  { id := s.sw.next, bytes := if bit (dwAt d 3) 25 then raw else padded ++ fcsOf padded, ing := 128, cls := bits (dwAt d 3) 29 27,
    inNode := nodeTime s }

/-- The transmit ring whose turn it is: the next after the one served last that has a descriptor to take (R631). -/
def nextTx (s : State) : Option Nat := ((List.range 256).map fun k => (s.hif.txLast + 1 + k) % 256).find? fun n => canTake s n 1

/-- TX_DESCRIPTOR (R627 to R631): ring `n`'s next descriptor `d` and the bytes it names. -/
def execTxDescriptor (n : Fin 256) (d : List Word) (data : List Byte) (s : State) : Result :=
  if nextTx s ≠ some n.val ∨ !switchRuns s then .next s
  else
    let x := takeDesc { s with hif := { s.hif with txLast := n } } n
    let s1 := x.1
    let code := txCode d
    if code ≠ 0 then .next (complete s1 n { status := code, desc := x.2, info := 0 })
    else
      let f := txFrame s1 d data
      let s2 := s1.nextFrame
      let dest := bits (dwAt d 3) 15 0
      if bit (dwAt d 3) 26 then .next (forward s2 f (.port dest) false (some (n.val, x.2)))
      else
        let s3 := match bits (dwAt d 3) 31 30 with
          | 0 =>
            let r := resolveFrame s2 0 (bits (dwAt d 2) 15 4) (parse f.bytes) true (.port dropPort)
            forward r.1 { f with vact := r.2.vact, newVid := r.2.newVid } r.2.toward false none
          | 1 => forward s2 f (.port dest) false none
          | _ => forward s2 f (.group dest) false none
        .next (complete s3 n { status := 0, desc := x.2, info := w32 (bits (dwAt d 2) 31 16) })

/-- Is a receive descriptor illegal (R632)? -/
def rxIllegal (d : List Word) : Bool := bits (dwAt d 0) 5 0 != 0 || (List.range 6).any fun i => dwAt d (2 + i) != 0

/-- Write bytes into buffers of `size` bytes at the addresses listed (R633). -/
def fillBuffers (s : State) (size : Nat) : List Nat → List Byte → State
  | [], _ => s
  | a :: t, bs => fillBuffers (s.emit (.dmaBytes a (bs.take size))) size t (bs.drop size)

/-- Take receive descriptors of ring `n` until `need` legal ones are found; illegal ones complete at once (R632). Answers the state, the
legal ones taken (address, index) and whether there were enough. -/
def takeBuffers (n need : Nat) : List (List Word) → State → List (Nat × Nat) → State × List (Nat × Nat)
  | [], s, got => (s, got)
  | d :: t, s, got =>
    if need ≤ got.length ∨ ringP s n = ringC s n then (s, got)
    else
      let i := ringC s n
      let s1 := s.setFld (ringCfg n + 0x0C) 15 0 ((i + 1) % ringSize s n)
      if rxIllegal d then takeBuffers n need t (complete s1 n { status := 0x01, desc := i, info := 0 }) got
      else takeBuffers n need t s1 (got ++ [(join (dwAt d 1) (dwAt d 0), i)])

/-- The illegal descriptors at the front of ring `n` are taken and complete (R90, R632), whatever the delivery that looked at them finds. -/
def dropIllegal (n : Nat) : List (List Word) → State → State
  | [], s => s
  | d :: t, s =>
    if ringP s n = ringC s n ∨ !rxIllegal d then s
    else
      let i := ringC s n
      dropIllegal n t (complete (s.setFld (ringCfg n + 0x0C) 15 0 ((i + 1) % ringSize s n)) n { status := 0x01, desc := i, info := 0 })

/-- Deliver bytes to receive ring `n` (R633 to R636): the state, and 0 delivered, 1 too many buffers, 2 too few posted. -/
def deliverRx (s : State) (n : Nat) (bs : List Byte) (info : Nat → Word) (stamp : Option Nat) (trunc : Nat) (descs : List (List Word)) :
    State × Nat :=
  let size := s.fld (ringCfg n) 15 9 * 256
  let nbuf := (bs.length + size - 1) / size
  if 16 < nbuf then (s.count (ringCfg n + 0x1C), 1)
  else
    let legal := ((descs.take (ringUsed s n)).filter fun d => !rxIllegal d).length
    if legal < nbuf then ((dropIllegal n descs s).count (ringCfg n + 0x18), 2)
    else
      let x := takeBuffers n nbuf descs s []
      let s1 := fillBuffers x.1 size (x.2.map (·.1)) bs
      (complete s1 n { status := 0, desc := (x.2.getD 0 (0, 0)).2, info := info nbuf, stamp := stamp, trunc := trunc }, 0)

/-- Can a receive ring take a delivery now: enabled, and neither paused by a full completion queue (R622)? -/
def rxReady (s : State) (n : Nat) : Bool := ringEn s n && decide (ringType s n = 2)
/-- See `rxReady`. -/
def rxPaused (s : State) (n : Nat) : Bool := (ringRec s n).wait != [] || cqFull s (ringCq s n)

/-- The head of host queue `t` is delivered or dropped (R634, R635, R638). -/
def deliverHost (s : State) (t : Nat) (descs : List (List Word)) : State :=
  match queueOf s 128 t with
  | [] => s
  | c :: l =>
    let n := s.fld (hifB + 0x100 + 0x10 * t) 7 0
    let s1 := releaseCopy (setQueue s 128 t l) c
    if !rxReady s n then s1.count (hifB + 0x18C + 0x10 * t)
    else
      let bs := egressBytes s 128 c.f (nodeTime s)
      let info (k : Nat) : Word := fieldW 31 16 bs.length ||| fieldW 15 8 c.f.ing ||| fieldW 7 5 c.f.cls ||| fieldW 3 0 (k - 1)
      let r := deliverRx s1 n bs info c.f.stamp 0 descs
      if r.2 = 0 then r.1.count (hifB + 0x184 + 0x10 * t) else r.1

/-- The oldest sampled copy is delivered, in one buffer, or discarded (R443, R636). -/
def deliverSample (s : State) (descs : List (List Word)) : State :=
  match s.sw.samples with
  | [] => s
  | x :: l =>
    let s1 := { s with sw := { s.sw with samples := l } }
    let lost := s1.count (quePortCtr x.port + 0x0C)
    if !rxReady s x.ring then lost
    else
      let info (_ : Nat) : Word := fieldW 31 16 x.len ||| fieldW 15 8 x.port ||| fieldW 7 5 x.cls ||| bitW 4 true
      let r := deliverRx s1 x.ring (x.bytes.take (s.fld (ringCfg x.ring) 15 9 * 256)) info (some x.stamp) x.trunc descs
      if r.2 = 0 then r.1.count (quePortCtr x.port + 8) else lost

/-- What the Gatehouse delivers next (R638): queue 0 to 7, or 8 the sample queue; one whose ring is paused waits (R622). -/
def nextDelivery (s : State) : Option Nat :=
  [7, 6, 8, 5, 4, 3, 2, 1, 0].find? fun t =>
    if t = 8 then (match s.sw.samples with
      | x :: _ => !(rxReady s x.ring && rxPaused s x.ring)
      | [] => false)
    else queueOf s 128 t != [] && !(rxReady s (s.fld (hifB + 0x100 + 0x10 * t) 7 0) && rxPaused s (s.fld (hifB + 0x100 + 0x10 * t) 7 0))

/-- RX_FRAME_DELIVERY (R632 to R638): `descs` are the buffer descriptors posted next in the ring that takes it. -/
def execRxFrameDelivery (descs : List (List Word)) (s : State) : Result :=
  if hostPortDown s ∨ !s.alive then .next s
  else
    match nextDelivery s with
    | none => .next s
    | some 8 => .next (deliverSample s descs)
    | some t => .next (deliverHost s t descs)

/-- COMPLETION_RESUME (R614, R622): the oldest waiting completion of ring `n` is written. -/
def execCompletionResume (n : Fin 256) (s : State) : Result :=
  match (ringRec s n).wait with
  | [] => .next s
  | x :: t =>
    if cqFull s (ringCq s n) ∨ hostPortDown s then .next s
    else .next (writeCompletion (setRingRec s n { ringRec s n with wait := t }) n x)

/-- Does a queue fire (R656)? -/
def cqDue (s : State) (c : Nat) : Bool :=
  let q := cqRec s c
  let us (x : Nat) : Nat := x * 1000 * tuPerNs
  cqArmed s c && decide (0 < q.unann) &&
    (decide (s.fld (cqCfg c + 0x10) 15 0 ≤ q.unann) || decide (q.newest + us (s.fld (cqCfg c + 0x14) 15 0) ≤ s.elapsed) ||
      decide (max q.oldest q.armedAt + us (s.fld (cqCfg c + 0x14) 31 16) ≤ s.elapsed))

/-- CQ_FIRE (R656, R657, R662, R663). -/
def execCqFire (c : Fin 256) (s : State) : Result :=
  if cqDue s c ∧ s.alive then
    .next (cqSignal (setArmed (setCqRec s c { cqRec s c with unann := 0 }) c false) (s.fld (cqCfg c) 15 8))
  else .next s

/-- Send the messages that were held, once the link and the function allow it (R662, R663, R689). -/
def sendHeld (s : State) : State :=
  if canSend s then forEach s.hif.held { s with hif := { s.hif with held := [] } } fun v t => msixEmit t v else s

/-- The link takes a state (HIF_STATUS); LINK_CHG on a change of LINK. -/
def setLink (s : State) (link width speed : Nat) : State :=
  let a := hifB + 0x040
  let s1 := s.wr a (putBits (putBits (putBits (s.rd a) 19 16 link) 11 8 width) 2 0 speed)
  if linkState s = link then s1 else hifEvent s1 5

/-- The link reaches L0: PCIE_WAKE_N is released and held messages leave (R662). -/
def reachL0 (s : State) (width speed : Nat) : State :=
  let s1 := setLink s 0 width speed
  sendHeld { s1 with wakeNLow := false, hif := { s1.hif with l1Exit := false } }

/-- LINK_L0_REACHED (R662): valid while an exit that the device started is under way. -/
def execLinkL0Reached (s : State) : Result :=
  if s.hif.l1Exit ∧ s.alive then .next (reachL0 s (s.fld (hifB + 0x040) 11 8) (s.fld (hifB + 0x040) 2 0)) else .next s

/-- The host port's queues and sampled copies are flushed (R639). -/
def flushHost (s : State) : State :=
  let s1 := forEach (List.range 8) s fun t x =>
    let l := queueOf x 128 t
    let y := (setQueue x 128 t []).count (hifB + 0x18C + 0x10 * t) l.length
    forEach l y fun c z => releaseCopy z c
  let s2 := forEach s1.sw.samples s1 fun x t => t.count (quePortCtr x.port + 0x0C)
  { s2 with sw := { s2.sw with samples := [] } }

/-- The function takes DSTATE, BME and MSIX_EN (R639, R662, R688): the host port goes down or comes up with them. -/
def setFunction (s : State) (d3 bme msix : Bool) : State :=
  let a := hifB + 0x040
  let old := s.rd a
  let s1 := s.wr a (putBits (putBits (putBits old 31 31 (if bme then 1 else 0)) 30 30 (if msix then 1 else 0)) 29 28 (if d3 then 3 else 0))
  let s2 := if bit old 31 = bme ∧ (bits old 29 28 = 3) = d3 then s1 else hifEvent s1 5
  if hostPortDown s2 && !hostPortDown s then flushHost s2
  else if !hostPortDown s2 && hostPortDown s then resignalAll (sendHeld s2)
  else s2

/-- The function's present bits. -/
def fnD3 (s : State) : Bool := s.fld (hifB + 0x040) 29 28 != 0
def fnBme (s : State) : Bool := s.flag (hifB + 0x040) 31
def fnMsix (s : State) : Bool := s.flag (hifB + 0x040) 30

/-- HOST_PORT_DOWN (R639): the function leaves D0, loses Bus Master Enable, or has MSI-X disabled. -/
def execHostPortDown (d3 bme0 msix0 : Bool) (s : State) : Result :=
  if !s.alive then .next s else .next (setFunction s (fnD3 s || d3) (fnBme s && !bme0) (fnMsix s && !msix0))

/-- HOST_PORT_UP (R639, R688): the function is in D0 with Bus Master Enable and MSI-X enabled. -/
def execHostPortUp (s : State) : Result :=
  if !s.alive ∨ s.hif.flr then .next s else .next (setFunction s false true true)

/-- A width and a speed that PCIe trains a x8 link of generation 5 to (R607). -/
def linkTrains (width speed : Nat) : Bool := [1, 2, 4, 8].contains width && decide (1 ≤ speed) && decide (speed ≤ 5)

/-- PCIE_LINK_CHANGE (R607, R662): the link takes LINK state `link` (0 L0 to 4 down), WIDTH and SPEED; it trains only once the
Gatehouse is ready and PCIE_PERST_N high (R804, R805). -/
def execPcieLinkChange (link : Fin 5) (width speed : BitVec 4) (s : State) : Result :=
  if !s.alive ∨ (link.val ≠ 4 ∧ (!linkTrains width.toNat speed.toNat ∨ !s.pwr.ready ∨ s.pwr.perstLow)) then .next s
  else if link.val = 0 then .next (reachL0 s width.toNat speed.toNat)
  else if link.val = 4 then .next (setLink s 4 0 0)
  else .next (setLink s link width.toNat speed.toNat)

/-- A failed buffer read: the next descriptor of the ring completes with E_ABORTED and changes nothing (R664). -/
def bufferReadFailed (s : State) (n : Nat) : State :=
  let x := takeDesc s n
  complete x.1 n { status := 0x0A, desc := x.2, info := 0 }

/-- A failed descriptor fetch: the ring is disabled (R664). -/
def fetchFailed (s : State) (n : Nat) : State :=
  let s1 := s.setFlag (ringCfg n) 0 false
  hifEvent (if (ringRec s n).busy ∨ (ringRec s n).wait ≠ [] then s1 else setActiveRing s1 n false) 3

/-- DMA_READ_ERROR (R664): a read for ring `n`'s next descriptor ends with an error; `fetch` tells a descriptor fetch from a buffer read. -/
def execDmaReadError (n : Fin 256) (fetch : Bool) (s : State) : Result :=
  let ty := ringType s n
  if !canTake s n ty ∨ ty = 6 ∨ (!fetch ∧ ty = 2) then .next s
  else
    let i := ringC s n
    let s1 := if fetch then fetchFailed s n else bufferReadFailed s n
    .next (hifEvent (s1.wr (hifB + 0x060) (fieldW 31 24 n ||| bitW 16 fetch ||| fieldW 15 0 i)) 1)

end Sys2Proof.Machine
end

