-- ==== Sys2Proof/Machine/HifWrites.lean ====
section
/-!
DEFINITION. HifWrites.lean: what writes of HIF and IRQ registers check and do (12_host_rings.md R611 to R613, R637, R657, R659, R835, R836;
13_interrupts_and_wake.md R674 to R691).
-/
namespace Sys2Proof.Machine

/-- Value checks of HIF writes beyond the field tables: 0, 0x01 or 0x06 (R613, R659, R836). -/
def hifValue (s : State) (e : Eff) (v : Word) : Nat :=
  match e with
  | .hifRingCfg =>
    let ty := bits v 3 1
    let en := bit v 0
    if ty = 7 ∨ (en ∧ ty = 0) ∨ (bits v 23 16 ≠ 0 ∧ ty ≠ 4) ∨ (bits v 15 9 ≠ 0 ∧ ty ≠ 2) ∨ (en ∧ !cqEn s (bits v 31 24)) then 0x01
    else if en ∧ ty = 2 ∧ bits v 15 9 = 0 then 0x06
    else 0
  | .hifCqTime => if bits v 31 16 < bits v 15 0 then 0x06 else 0
  | _ => 0

/-- The enabled rings whose CQ field names a queue. -/
def ringsOfCq (s : State) (c : Nat) : List Nat := (List.range 256).filter fun n => ringEn s n && decide (ringCq s n = c)

/-- Refusals of HIF writes after the checks of R89: E_BUSY of R612, R613 and R835, E_NORESOURCE of R637. `i` is the ring or queue. -/
def hifOwn (s : State) (e : Eff) (a i : Nat) (v : Word) : Nat :=
  match e with
  | .hifRingCfg => if ringActive s i ∧ (v ^^^ s.rd a) &&& ~~~1 ≠ 0 then 0x0B else 0
  | .hifRingBase => if ringActive s i then 0x0B else 0
  | .hifCqCfg =>
    if cqEn s i ∧ ((v ^^^ s.rd a) &&& ~~~1 ≠ 0 ∨ (!bit v 0 ∧ ringsOfCq s i ≠ [])) then 0x0B else 0
  | .hifCqBase => if cqEn s i then 0x0B else 0
  | .hifHqAdm =>
    let old := s.fld a 15 0
    if old < bits v 15 0 ∧ 4096 < minSum s 8 - old + bits v 15 0 then 0x07 else 0
  | _ => 0

/-- Does a ring that is not enabled still have a descriptor in progress or a completion to write (R612)? -/
def ringDraining (s : State) (n : Nat) : Bool := (ringRec s n).busy || (ringRec s n).wait != []

/-- A disabled queue can write nothing more: completions that wait for it are dropped (log entry 28), and a ring with nothing else in progress
becomes inactive. -/
def dropWaits (s : State) (c : Nat) : State :=
  forEach ((AMap.keys s.hif.rings).filter fun n => ringCq s n = c) s fun n t =>
    let t1 := setRingRec t n { ringRec t n with wait := [] }
    if ringEn t1 n || ringDraining t1 n then t1 else setActiveRing t1 n false

/-- The host unmasks vector `v`: a pending message is sent (R657). -/
def vectorWritten (s : State) (v : Nat) : State := if s.flag (hifB + 0x9000 + 4 * (v / 32)) (v % 32) then msixEmit s v else s

/-- A write of a HIF register takes effect; `b` is the state before the store (R611, R612, R623). -/
def hifApply (b s : State) (e : Eff) (i : Nat) : State :=
  match e with
  | .hifRingCfg =>
    if ringEn s i && !ringEn b i then
      setRingRec (setActiveRing (s.wr (ringCfg i + 0x0C) 0) i true) i { ringRec s i with phase := true }
    else if ringEn b i && !ringEn s i && !ringDraining s i then setActiveRing s i false
    else s
  | .hifCqCfg =>
    if cqEn s i && !cqEn b i then setCqRec (s.wr (cqCfg i + 0x0C) 0) i {}
    else if cqEn b i && !cqEn s i then dropWaits (setArmed s i false) i
    else s
  | .hifVecCtrl => vectorWritten s i
  | _ => s

/-- RING_STOPPED (R612): valid for a disabled ring that is still ACTIVE with nothing left in progress. -/
def execRingStopped (n : Fin 256) (s : State) : Result :=
  if ringActive s n ∧ !ringEn s n ∧ !ringDraining s n then .next (setActiveRing s n false) else .next s

/-- The sources of word `w` named by the ones of a write (R674). -/
def namedSources (w : Nat) (v : Word) : List Nat := (onesOf v).map (32 * w + ·)

/-- A write of IRQ_PEND_SET latches the sources it names as hardware edges would (R676, R687), and each may wake (R692). -/
def pendSet (s : State) (w : Nat) (v : Word) : State :=
  let ns := (namedSources w v).filter (canLatch s)
  let s1 := rejudge s (forEach ns s fun n t => setPend t n true) ns
  forEach ns s1 fun n t => wakeJudge t n

/-- A change of mask bits is judged for delivery (R675, R687). -/
def maskWritten (b s : State) (w : Nat) : State := rejudge b s ((pendingSources s).filter fun n => decide (n / 32 = w))

/-- IRQ_TGT: CORE and VEC are 0 unless TKIND uses them (E_ILLEGAL). -/
def tgtIllegal (v : Word) : Bool := (bits v 13 12 != 1 && bits v 9 8 != 0) || (bits v 13 12 != 0 && bits v 7 0 != 0)

/-- Value checks of IRQ writes beyond the field tables (R686, R691). `i` is the wake entry. -/
def irqValue (s : State) (e : Eff) (i : Nat) (v : Word) : Nat :=
  match e with
  | .irqTgt => if tgtIllegal v then 0x01 else 0
  | .irqStackClr => if !bit v 31 ∧ 260 < bits v 8 0 then 0x06 else 0
  | .irqWake =>
    let n := bits v 8 0
    if !bit v 31 then 0
    else if (List.range 32).any fun j => j != i && s.flag (wakeReg j) 31 && decide (s.fld (wakeReg j) 8 0 = n) then 0x01
    else if !wakesP2 n then 0x06
    else 0
  | _ => 0

/-- Is a source on some priority stack? -/
def onStack (s : State) (n : Nat) : Bool := srcActive s n

/-- E_LOCKED of R679 and R684 (check 3 of R89): `i` is the source, the vector or the core. -/
def irqLocked (s : State) (e : Eff) (i : Nat) (m : Master) (v : Word) : Bool :=
  match e with
  | .irqTgt => m == .host && (decide (s.fld (tgtReg i) 13 12 = 1) || decide (bits v 13 12 = 1))
  | .irqEoiV => m.num != 0
  | .irqEoiC => m.num != i + 1
  | _ => false

/-- E_BUSY of R678, after the checks of R89. -/
def irqOwn (s : State) (e : Eff) (i : Nat) : Nat :=
  match e with
  | .irqTgt => if !srcMask s i ∨ onStack s i then 0x0B else 0
  | _ => 0

/-- A write of an IRQ register takes effect. `off` is the register's decoded offset, `m` its master (R676, R682, R683, R686). -/
def irqApply (b s : State) (e : Eff) (i off : Nat) (m : Master) (v : Word) : State :=
  match e with
  | .irqPend => if off % 8 = 0 then pendSet b i v else s
  | .irqMask => maskWritten b s i
  | .irqStackClr => clearStacks s (stackClrTargets s v)
  | .irqEoiV | .irqEoiC =>
    let t := if e = .irqEoiC then 256 + i else i
    let x := eoi s t (bits v 8 0)
    if x.2 then latchErr x.1 ⟨.irq, 0, 0⟩ 0x0C off m else x.1
  | _ => s

end Sys2Proof.Machine
end

