-- ==== Sys2Proof/Machine/PwrOps.lean ====
section
/-!
DEFINITION. PwrOps.lean: the Lodge counter, power-state requests, the alarm and WAKE words (14_power_and_feeds.md R698 to R714, R721 to R731),
as register writes and the events of Power.lean use them.
-/
namespace Sys2Proof.Machine

/-- The nominal period of the Lodge clock in 2^-40 ns (R721): OSC_FREQ selects 10, 20, 25 or 50 MHz, the last divided by 2. -/
def lodgePeriod (s : State) : Nat :=
  tuPerNs * match s.fld (pwrB + 0x054) 1 0 with
    | 0 => 100
    | 1 => 50
    | _ => 40

/-- PWR_LODGE_INC in 2^-40 ns. -/
def lodgeInc (s : State) : Nat := (s.rd64 (pwrB + 0x070)) % 2 ^ 48

/-- The Lodge counter at its last clock edge (R721, R833), in 2^-40 ns. -/
def lodgeNow (s : State) : Nat :=
  if s.pwr.lapse ∨ !s.pwr.lodgeOn then s.pwr.lodge else s.pwr.lodge + (s.elapsed - s.pwr.lodgeAt) / lodgePeriod s * lodgeInc s

/-- The Lodge counter takes a time. -/
def setLodge (s : State) (t : Nat) : State := { s with pwr := { s.pwr with lodge := t, lodgeAt := s.elapsed } }

/-- PWR_STATUS.LODGE_SET. -/
def setLodgeSet (s : State) (b : Bool) : State := s.setFlag (pwrB + 0x040) 20 b

/-- PWR_LODGE_INC for OSCIN's offset from node time as DPLL0 measures it (R96, R723). -/
def lodgeIncNow (s : State) : Nat :=
  (divRound ((lodgePeriod s : Int) * (10 ^ 12 + dpllFreqPpt s 0)) (10 ^ 12 + oscTrim s).toNat).toNat % 2 ^ 48

/-- PWR_LODGE_NS as read: the nanoseconds of the last Lodge clock edge. A read latches the seconds (R748). -/
def lodgeNsView (s : State) : Word := w32 (lodgeNow s % tuPerSec / tuPerNs)
/-- The seconds that such a read latches: their low and high register. -/
def lodgeSecView (s : State) (high : Bool) : Word :=
  let sec := lodgeNow s / tuPerSec
  if high then w32 (sec / 2 ^ 32 % 2 ^ 16) else w32 sec

/-- The second in PWR_ALARM_SEC. -/
def alarmSec (s : State) : Nat := (s.rd (pwrB + 0x090)).toNat + s.fld (pwrB + 0x094) 15 0 * 2 ^ 32
/-- ALARM_EN. -/
def alarmOn (s : State) : Bool := s.flag (pwrB + 0x094) 31

/-- The code of a write of PWR_ALARM_SEC_LO or _HI (R727): E_MISSED where it would leave ALARM_EN 1 with a second that is not after the Lodge
counter. -/
def alarmCode (s : State) (high : Bool) (v : Word) : Nat :=
  let lo := if high then (s.rd (pwrB + 0x090)).toNat else v.toNat
  let hi := if high then v else s.rd (pwrB + 0x094)
  if bit hi 31 ∧ (lo + bits hi 15 0 * 2 ^ 32) * tuPerSec ≤ lodgeNow s then 0x0F else 0

/-- Does an enabled wake entry watch a source that wakes from P3 (R702)? -/
def canWakeP3 (s : State) : Bool := (List.range 32).any fun i => s.flag (wakeReg i) 31 && wakesP3 (s.fld (wakeReg i) 8 0)

/-- Is the change in progress before its commit point (R704, R714)? -/
def beforeCommit (s : State) : Bool :=
  match s.pwr.change with
  | .hold _ _ => true
  | .linkWait c => !c
  | _ => false

/-- Is no change in progress? -/
def noChange (s : State) : Bool := s.pwr.change == .idle

/-- PWR_CTRL's own rule of check 2 of R89: TARGET P2 or P3 only in SERVICE (R702). -/
def pwrModeBad (s : State) (v : Word) : Bool := decide (2 ≤ bits v 1 0) && s.mode != 1

/-- Value checks of PWR writes beyond the field tables (R702, R727, the register tables). -/
def pwrValue (s : State) (e : Eff) (v : Word) : Nat :=
  match e with
  | .pwrCtrl => if bits v 1 0 = 3 ∧ !canWakeP3 s then 0x01 else 0
  | .pwrFeedLim => if bits v 31 16 ≤ bits v 15 0 then 0x06 else 0
  | .pwrTrkWake => if 128 ≤ bits v 7 0 ∧ bits v 7 0 ≠ 255 then 0x06 else 0
  | _ => 0

/-- Refusals of PWR writes after the checks of R89 (R705, R713, R727, R730). -/
def pwrOwn (s : State) (e : Eff) (v : Word) : Nat :=
  match e with
  | .pwrCtrl => if noChange s || beforeCommit s then 0 else 0x0B
  | .pwrAlarmLo => alarmCode s false v
  | .pwrAlarmHi => alarmCode s true v
  | .pwrTrkWake => if bit v 31 ∧ s.pwr.wakeBusy then 0x0B else 0
  | _ => 0

/-- The lowest watched source that is pending (R706). -/
def pendingWatched (s : State) : Option Nat := (pendingSources s).find? (watched s)

/-- A request begins: RESULT reads IN_PROGRESS, and the change has its final target. -/
def beginChange (s : State) (c : Change) (t : Nat) : State :=
  let s1 := setResult (setChange s c t) 1 0
  { s1 with pwr := { s1.pwr with stepAt := s1.elapsed } }

/-- An entry to P2 or P3 starts, unless a watched source is already pending (R706, R716). -/
def beginEntry (s : State) (c : Change) (t : Nat) : State :=
  let s1 := beginChange s c t
  match pendingWatched s with
  | some n => abortEntry (setWakeLast s1 n) 4 n
  | none => match c with
    | .hold _ _ => { s1 with pwr := { s1.pwr with sendHold := true } }
    | _ => s1

/-- A request with no change in progress (R703, R710 to R716). -/
def requestState (s : State) (t : Nat) : State :=
  if t = s.pstate then s
  else
    match s.pstate, t with
    | 0, 1 => beginChange s .trim 1
    | 1, 0 => beginChange s .untrim 0
    | 2, 3 => beginEntry s (.linkWait false) 3
    | 2, _ => beginChange s (.leave (decide (t = 1))) t
    | _, _ => beginEntry s (.hold (decide (s.pstate = 1)) (decide (t = 3))) t

/-- A request while an entry is before its commit point (R705). -/
def requestDuring (s : State) (t : Nat) : State :=
  if t = s.pstate then abortEntry s 5 0
  else if t ≤ 1 then (if noChange (abortEntry s 5 0) then requestState (abortEntry s 5 0) t else abortEntry s 5 0)
  else
    match s.pwr.change with
    | .hold p1 _ => setChange s (.hold p1 (decide (t = 3))) t
    | _ => s

/-- A PWR_CTRL write is taken: `b` is the state before the store. One that names the present state with no change in progress changes nothing
(R703). -/
def pwrCtrlApply (b s : State) (v : Word) : State :=
  let t := bits v 1 0
  if noChange b then (if t = b.pstate then b else requestState s t) else requestDuring s t

/-- A trunk port in HOLD or UP. -/
def holdOrUp (s : State) (p : Nat) : Bool := portIs s p 1 && (trkSt s p == 7 || trkSt s p == 8)

/-- A WAKE word (R729). -/
def wakeWord (reason origin seq : Nat) (flood : Bool) : Nat :=
  0x69 + reason * 2 ^ 8 + origin * 2 ^ 16 + seq % 256 * 2 ^ 28 + (if flood then 2 ^ 36 else 0)

/-- Queue a WAKE word for the next `n` superblocks of a port (R730). -/
def queueWake (s : State) (p w n : Nat) : State :=
  setPortRec s p { portRec s p with wakes := (portRec s p).wakes ++ List.replicate n w }

/-- A PWR_TRK_WAKE write with GO 1 starts a send (R730). -/
def sendWake (s : State) (v : Word) : State :=
  let w := wakeWord (bits v 15 8) (ownNode s) s.pwr.wakeSeq (bit v 16)
  let ps := if bits v 7 0 = 255 then (List.range 128).filter (portIs s · 1) else [bits v 7 0]
  let s1 := { s with pwr := { s.pwr with wakeSeq := (s.pwr.wakeSeq + 1) % 256, wakeBusy := true } }
  forEach ps s1 fun p t => queueWake t p w 8

/-- The first word of an ORIGIN and SEQ within 1 s acts (R731): TRUNK_WAKE, PWR_TRK_WAKE_RX, and with FLOOD 1 it goes on. -/
def takeWake (s : State) (p : Nat) (w : BitVec 64) : State :=
  let o := wbits w 27 16
  let q := wbits w 35 28
  let old := s.pwr.wakeSeen.filter fun x => decide (s.elapsed < x.2.2 + tuPerSec)
  if old.any (fun x => x.1 == o && x.2.1 == q) then s
  else
    let s1 := { s with pwr := { s.pwr with wakeSeen := (o, q, s.elapsed) :: old } }
    let s2 := s1.wr (pwrB + 0x09C) (bitW 31 true ||| fieldW 30 24 p ||| fieldW 23 12 o ||| fieldW 7 0 (wbits w 15 8))
    let s3 := if wbits w 36 36 = 1 then
        forEach ((List.range 128).filter fun x => x != p && holdOrUp s2 x) s2 fun x t => queueWake t x w.toNat 1
      else s2
    pwrEvent s3 7

/-- Is a WAKE word valid (R729)? -/
def wakeValid (w : BitVec 64) : Bool := wbits w 7 0 == 0x69 && wbits w 63 37 == 0

/-- Feed `x` (0 A, 1 B) is in range: PWR_STATUS.FEED_A_OK, FEED_B_OK. -/
def feedOk (s : State) (x : Nat) : Bool := s.flag (pwrB + 0x040) (16 + x)
/-- The preferred feed (PWR_FEED_CFG.PREF). -/
def prefFeed (s : State) : Nat := s.fld (pwrB + 0x058) 8 8

/-- A write of a PWR register takes effect; `b` is the state before the store. -/
def pwrApply (b s : State) (e : Eff) (v : Word) : State :=
  match e with
  | .pwrCtrl => pwrCtrlApply b s v
  | .pwrTrkWake => if bit v 31 then sendWake s v else s
  | .pwrFeedCfg =>
    if prefFeed b = prefFeed s then s
    else { s with pwr := { s.pwr with holdSince := if s.pwr.fet = some (1 - prefFeed s) ∧ feedOk s (prefFeed s) then some s.elapsed else none } }
  | _ => s

end Sys2Proof.Machine
end

