-- ==== Sys2Proof/Machine/MiscWrites.lean ====
section
/-!
DEFINITION. MiscWrites.lean: what writes of TBL, CUE, PLC, BST, MON and the remaining TDC registers check and do
(09_forwarding_tables.md R468, R492, 10_cue_transactions.md R524, R547, R553, 11_bandstand_and_placement.md R592, R604, R606,
15_monitoring_and_containment.md R752 to R764).
-/
namespace Sys2Proof.Machine

/-- Refusals of TBL and CUE writes after the checks of R89 (R468, R524, R547, R553): a seed only while both tables are empty. -/
def tblCueOwn (s : State) (e : Eff) (v : Word) : Nat :=
  match e with
  | .tblSeed => if tablesEmpty s then 0 else 0x0B
  | .cueCancel => if bit v 8 then cancelCode s (bits v 5 0) else 0
  | _ => 0

/-- Writes of TBL and CUE registers that do more than store. -/
def tblCueApply (b s : State) (e : Eff) (v : Word) : State :=
  match e with
  | .tblLock => locksChanged s (b.rd (tblB + 0x064))
  | .cueCancel => if bit v 8 then cancelCue s (bits v 5 0) else s
  | _ => s

/-- PLC_TIER_CFG: ORG_DOWN below ORG_UP (R604). -/
def plcValue (e : Eff) (v : Word) : Nat :=
  match e with
  | .plcTier => if bits v 31 16 ≤ bits v 15 0 then 0x06 else 0
  | _ => 0

/-- The limits of the tier change: the times above and below are reckoned anew against them (R598). -/
def tierLimits (s : State) : State :=
  let s1 := { s with plc := { s.plc with above := [], below := [] } }
  forEach ((List.range 137).filter (· ≠ 128)) s1 fun p t => forEach [0, 1, 2, 3] t fun c u => noteDepth u p c

/-- A write of a PLC register takes effect (R598, R604). -/
def plcApply (_b s : State) (e : Eff) : State :=
  match e with
  | .plcTier => tierLimits s
  | .plcCfg | .plcOrgCfg => judgeLoads s
  | _ => s

/-- A write of BST_BLK_CTRL takes effect (R606): a cell whose EN is cleared is evacuated, one whose EN is set returns to service. -/
def bstCtrl (b s : State) (c : Nat) : State :=
  let was := b.flag (bstB c + 0x004) 0
  let on := s.flag (bstB c + 0x004) 0
  if was && !on then settleCell (setCell s c { cellOf s c with evac := true }) c
  else if on && !was then placeHomeless (setCell s c { cellOf s c with evac := false })
  else s

/-- SRC and SEL within the table of R752, and CLASS 0 but for Pavilion SRC 1. -/
def histLegal (inPav : Bool) (v : Word) : Bool :=
  let sel := bits v 15 8
  (bits v 18 16 == 0 || (inPav && bits v 6 4 == 1)) &&
  match inPav, bits v 6 4 with
  | _, 0 => true
  | true, 1 => decide (sel ≤ 16)
  | true, 2 => decide (sel % 128 ≤ 15)
  | true, 3 => decide (sel ≤ 15)
  | false, 1 => decide (sel ≤ 7)
  | false, 2 => decide (sel ≤ 15)
  | false, 3 => decide (sel ≤ 7)
  | false, 4 => decide (sel ≤ 17)
  | _, _ => false

/-- The checks of a write that sets EN (R754); `a` is the address of the unit's CFG. -/
def histEnCode (s : State) (inPav : Bool) (a : Nat) (v : Word) : Nat :=
  let sgn := histSigned inPav (bits v 6 4)
  let base := sbits (s.rd (a + 4)) 31 0
  let step := (s.rd (a + 8)).toNat
  let last : Int := base + 62 * step
  if bit v 1 ∧ sgn then 0x01
  else if bit v 1 ∧ (base < 1 ∨ 65536 < base) then 0x06
  else if !bit v 1 ∧ (step = 0 ∨ last < -(2 ^ 31) ∨ 2 ^ 31 - 1 < last) then 0x06
  else if bit v 2 ∧ histLimit s (a + 0x0C) sgn < histLimit s (a + 0x10) sgn then 0x06
  else 0

/-- Value checks of MON writes beyond the field tables (R752, R754, R764). -/
def monValue (s : State) (inPav : Bool) (e : Eff) (a : Nat) (v : Word) : Nat :=
  match e with
  | .monHistCfg => if !histLegal inPav v then 0x01 else if bit v 0 then histEnCode s inPav a v else 0
  | .monPcCfg => if bit v 8 ∧ (bits v 7 0 = 0 ∨ (if inPav then 9 else 13) < bits v 7 0) then 0x01 else 0
  | _ => 0

/-- E_BUSY of R755: while a unit's EN is 1, only a CFG write that clears EN and nothing else is taken. -/
def monOwn (s : State) (e : Eff) (a : Nat) (v : Word) : Nat :=
  match e with
  | .monHistCfg => if s.flag a 0 ∧ v ≠ s.rd a &&& ~~~1 then 0x0B else 0
  | .monHistPar => if s.flag (a / 0x200 * 0x200) 0 then 0x0B else 0
  | _ => 0

/-- A write of a MON register takes effect (R756): setting EN clears the unit; `u` is the unit's number. -/
def monApply (b s : State) (inPav : Bool) (e : Eff) (a u : Nat) : State :=
  match e with
  | .monHistCfg =>
    if s.flag a 0 && !b.flag a 0 then
      { s with mon := { s.mon with units := AMap.put s.mon.units a {} {}, last := if inPav then s.mon.last else AMap.del s.mon.last u } }
    else s
  | _ => s

/-- A write of TDC_CAL_CTRL, TDC_CAL_CMD, TDC_ASYM, a channel or a difference unit takes effect (R242, R252, R261, R268, R269, R279). A command
within the time of R261 starts nothing; one for a lane that is down waits for it all the same. -/
def tdcApply (b s : State) (e : Eff) (i : Nat) (v : Word) : State :=
  match e with
  | .tdcCalCtrl => calCtrlWritten b s
  | .tdcCalCmd =>
    let k := bits v 9 8
    let i := bits v 7 0
    if (calItem s k i).retryAt ≤ s.elapsed then askCal s k i
    else if k = 1 ∧ !trunkLaneUp s i then setCalItem s k i { calItem s k i with wait := true }
    else s
  | .tdcChCfg => chCfgWritten b s i
  | .tdcDiffCfg => diffCfgWritten b s i
  | .tdcAsymCfg =>
    if b.flag (tdcB + 0x3000 + 0x10 * i) 0 && !s.flag (tdcB + 0x3000 + 0x10 * i) 0 then
      letFinish (abandonRun s 2 i false) (asymOwned b i) i
    else s
  | _ => s

end Sys2Proof.Machine
end

