-- ==== Sys2Proof/Machine/Bus.lean ====
section
/-!
DEFINITION. Bus.lean: register accesses (02_register_model.md R39 to R94): the checks of R89, what a write stores, reads with their side effects,
dual-write pairs, mode keys and snapshots.
-/
namespace Sys2Proof.Machine

/-- A register reached by an access: its block, its decoded offset, its row and the row's indices. -/
structure Reg where
  b : Block
  o : Nat
  row : Row
  i : Nat
  j : Nat
  deriving DecidableEq, Repr

/-- Its canonical BAR0 offset. -/
def Reg.addr (x : Reg) : Nat := x.b.base + x.o

/-- Where its value is kept: a CLR address shares its SET register, a complement address its DW register. -/
def Reg.home (x : Reg) : Nat :=
  match x.row.cls with
  | .clr => x.addr - 4
  | .comp => x.addr - 0x800
  | _ => x.addr

/-- The register at an address, if it lies in a block that has one there. -/
def regOf (a : Nat) : Option Reg :=
  match resolve a with
  | some (b, o) => (regAt b o).map fun f => ⟨b, o, f.row, f.i, f.j⟩
  | none => none

/-- The lane, port or cell of a slot. -/
def Reg.slot (x : Reg) : Nat := 16 * x.b.r + x.b.k
/-- The port of a QUE or LRN slot. -/
def Reg.port (x : Reg) : Nat := if x.i < 16 then 16 * x.b.r + x.i else 129 + x.b.r
/-- The Pavilion of a MON block, or the chip. -/
def Reg.inPav (x : Reg) : Bool := x.b.ty.inPav

/-- May CHP_MODE move from `old` to `new` by a write (R64, R66, R781)? -/
def moveAllowed (s : State) (old new : Nat) : Bool :=
  old == new ||
  match old, new with
  | 0, 1 => true
  | 0, 2 => true
  | 1, 3 => true
  | 3, 1 => !s.flag (monB + 0x048) 31
  | _, _ => false

/-- Value checks that a chapter adds to the field tables: 0, 0x01 or 0x06. -/
def chapterValue (s : State) (x : Reg) (v : Word) : Nat :=
  match x.row.eff with
  | .none | .blkCtrl => 0
  | .blkSnap => if bits v 1 0 = 0 ∧ 137 ≤ bits v 15 8 then 0x01 else if bits v 1 0 = 1 ∧ 8 ≤ bits v 15 8 then 0x06 else 0
  | .chpMode => if moveAllowed s s.mode (bits v 3 0) then 0 else 0x01
  | e =>
    match x.b.ty with
    | .clk => clkValue s e (clkIndex e x.addr x.i) v
    | .sun => sunValue s e x.addr x.i v
    | .tdc => tdcValue s e x.i v
    | .gns => gnsValue s e x.addr x.i v
    | .hif => hifValue s e v
    | .irq => irqValue s e x.i v
    | .pwr => pwrValue s e v
    | .mon | .pmon => monValue s x.inPav e x.addr v
    | .mac => macValue x.slot v
    | .lan => if e = .lanEyeCfg then eyeCfgValue s x.slot v else 0
    | .que => queValue e x.o v
    | .plc => plcValue e v
    | _ => 0

/-- Refusals that a chapter makes of its own: E_LOCKED, E_ILLEGAL and E_RANGE stand where R89 puts the check of that code, any other code
comes after the checks of R89. -/
def chapterOwn (s : State) (m : Master) (x : Reg) (v : Word) : Nat :=
  match x.row.eff with
  | .none => 0
  | e =>
    match x.b.ty with
    | .sun => sunOwn s e x.addr x.i v
    | .tdc => tdcOwn s e x.addr x.i v
    | .gns => gnsOwn s e x.addr x.i m v
    | .hif => hifOwn s e x.addr x.i v
    | .irq => irqOwn s e x.i
    | .pwr => pwrOwn s e v
    | .nvm => if e = .nvmWin then nvmWinOwn s x.o else 0
    | .mon | .pmon => monOwn s e x.addr v
    | .mac => if e = .macCfg then macOwn s x.slot v else 0
    | .lan => if e = .lanEyeCfg then eyeCfgOwn s x.slot else 0
    | .que => queOwn s e x.addr x.port v
    | .tbl | .cue => tblCueOwn s e v
    | _ => 0

/-- Check 2 of R89: the chip mode permits the write (R62, R702). -/
def modeBad (s : State) (x : Reg) (v : Word) : Bool :=
  x.row.modes / 2 ^ s.mode % 2 == 0 || (x.row.eff == .pwrCtrl && pwrModeBad s v)

/-- What the register holds before a write: the window shows the NVM. -/
def heldWord (s : State) (x : Reg) : Word := if x.row.eff = .nvmWin then nvmWinView s x.o else s.rd x.home

/-- What a write makes of the register's content (R53, R57). CHP_NODE_ID.SET is the device's (R67); a lock bit is never cleared by a write. -/
def newWord (x : Reg) (old v : Word) : Word :=
  match x.row.eff, x.row.cls with
  | .blkLock, _ => old ||| (v &&& 1)
  | .chpNodeId, _ => 0x80000000 ||| (v &&& 0xFFF)
  | _, .w1c => clearOnes old v
  | _, .set => setOnes old v
  | _, .clr => clearOnes old v
  | _, .wm => mergeWM old v
  | _, _ => storeFields x.row.flds old v

/-- Check 3 of R89: a lock holds an LK field (R57), a key is missing (R66, R701), or the register serves another master (R679, R684). -/
def lockBad (s : State) (m : Master) (x : Reg) (v : Word) : Bool :=
  (s.flag (x.b.base + 0x00C) 0 && decide ((newWord x (heldWord s x) v ^^^ heldWord s x) &&& w32 x.row.lk ≠ 0)) ||
  (x.row.eff == .chpMode && !s.keys.contains m.num) ||
  (x.row.eff == .pwrCtrl && bits v 15 8 != 0x5C) ||
  irqLocked s x.row.eff x.i m v || chapterOwn s m x v == 0x02

/-- Check 4 of R89: a class-S register while its scheduler is ACTIVE (R71). -/
def ownerActive (s : State) (x : Reg) : Bool := x.row.own == .portSched && s.flag (x.b.base + 0x1004 + 0x400 * x.i) 8

/-- Check 6 of R89. -/
def valueIllegal (s : State) (m : Master) (x : Reg) (v : Word) : Bool :=
  illegalValue x.row.flds (if x.row.cls = .wm then mergeWM (s.rd x.home) v else v) || chapterValue s x v == 0x01 || chapterOwn s m x v == 0x01
/-- Check 7 of R89. -/
def valueRange (s : State) (m : Master) (x : Reg) (v : Word) : Bool :=
  rangeValue x.row.flds (if x.row.cls = .wm then mergeWM (s.rd x.home) v else v) || chapterValue s x v == 0x06 || chapterOwn s m x v == 0x06

/-- Is the block isolated, and the register none of those that R776 leaves as usual? -/
def isolatedBad (s : State) (x : Reg) : Bool := s.flag (x.b.base + 0x004) 3 && x.row.eff != .blkCtrl

/-- Checks 6 to 8 of R89 and what follows them (R776 and the chapters). -/
def lateCode (s : State) (m : Master) (x : Reg) (v : Word) (parity : Bool) : Nat :=
  if valueIllegal s m x v then 0x01
  else if valueRange s m x v then 0x06
  else if parity then 0x12
  else if isolatedBad s x then 0x07
  else chapterOwn s m x v

/-- Every check of a write after its width (R89): 0 where it is taken. -/
def writeCode (s : State) (m : Master) (x : Reg) (v : Word) (parity : Bool) : Nat :=
  if modeBad s x v then 0x10
  else if lockBad s m x v then 0x02
  else if ownerActive s x then 0x03
  else lateCode s m x v parity

/-- What a snapshot captures (R80). -/
inductive SnapScope where
  | port (p : Nat)
  | pav (r : Nat)
  | chip
  deriving DecidableEq, Repr

/-- Does a histogram unit of Pavilion `r` with CFG `v` sample a slot of port `p` (R760)? -/
def histOfPort (r p : Nat) (v : Word) : Bool :=
  match bits v 6 4 with
  | 1 => if bits v 15 8 < 16 then 16 * r + bits v 15 8 == p else 129 + r == p
  | 2 => 16 * r + bits v 12 8 == p
  | _ => false

/-- Does a counter or holding register at offset `o` of block `b` belong to port `p` (R80, R394, R449, R502, R667, R760)? -/
def portCounter (s : State) (p : Nat) (b : Block) (o : Nat) : Bool :=
  match b.ty with
  | .mac => 16 * b.r + b.k == p
  | .lan => (lanesOf s p).contains (16 * b.r + b.k) && decide (p < 128)
  | .que => p != 128 && portPav p == b.r && decide (0x1000 ≤ o) && decide (o < 0x5400) && (o - 0x1000) / 0x400 == portSlot p
  | .lrn => p != 128 && portPav p == b.r && decide (0x1000 ≤ o) && (o - 0x1000) % 0x800 / 0x40 == portSlot p
  | .hif => p == 128 && decide (o < 0x400)
  | .pmon => p != 128 && decide (0x1000 ≤ o) && decide (o < 0x1800) &&
      histOfPort b.r p (s.rd (b.base + 0x1000 + (o - 0x1000) / 0x200 * 0x200))
  | _ => false

/-- Is a counter or holding register in a scope? -/
def inScope (s : State) (c : SnapScope) (b : Block) (o : Nat) : Bool :=
  match c with
  | .chip => true
  | .pav r => b.ty.inPav && b.r == r
  | .port p => portCounter s p b o

/-- The blocks of Pavilion `r`. -/
def pavBlocks (r : Nat) : List Block :=
  [⟨.pav, r, 0⟩, ⟨.trk, r, 0⟩, ⟨.que, r, 0⟩, ⟨.lrn, r, 0⟩, ⟨.pmon, r, 0⟩] ++
    (List.range 16).flatMap fun k => [⟨.lan, r, k⟩, ⟨.mac, r, k⟩, ⟨.bst, r, k⟩]

/-- The blocks that a scope includes. -/
def scopeBlocks (s : State) (c : SnapScope) : List Block :=
  match c with
  | .chip => [.chp, .clk, .sun, .tdc, .gns, .cue, .plc, .hif, .irq, .pwr, .nvm, .tbl, .xbr, .org, .mon].map (fun t => ⟨t, 0, 0⟩) ++
      (List.range 8).flatMap pavBlocks
  | .pav r => pavBlocks r
  | .port p =>
    if p = 128 then [⟨.hif, 0, 0⟩]
    else
      let r := portPav p
      (if p < 128 then ⟨.mac, r, p % 16⟩ :: (lanesOf s p).map fun l => ⟨.lan, l / 16, l % 16⟩ else []) ++ [⟨.que, r, 0⟩, ⟨.lrn, r, 0⟩] ++
        if (List.range 4).any fun u => histOfPort r p (s.rd (histReg (some r) u)) then [⟨.pmon, r, 0⟩] else []

/-- One listed register in a snapshot: `z` is the state before it. A live counter in scope gives its value to its holding register and is cleared;
a hidden counter (log entry 16) has its holding register 0x200 above. -/
def snapOne (z : State) (c : SnapScope) (a : Nat) (s : State) : State :=
  if hiddenB ≤ a then
    match regOf (a - hiddenB) with
    | some x => if inScope z c x.b x.o then (s.wr (a - hiddenB + 0x200) (z.rd a)).wr a 0 else s
    | none => s
  else
    match regOf a with
    | some x =>
      if !inScope z c x.b x.o then s
      else
        match x.row.ctr, x.row.cls with
        | .c32 d, _ => (s.wr (a + d) (z.rd a)).wr a 0
        | .c64 d, _ => (s.wr64 (a + d) (z.rd64 a)).wr64 a 0
        | .none, .rcHi =>
          match (regOf (a - 4)).map fun y : Reg => y.row.ctr with
          | some (.c64 d) => (s.wr64 (a - 4 + d) (z.rd64 (a - 4))).wr64 (a - 4) 0
          | _ => s
        | _, _ => s
    | none => s

/-- A histogram unit gives its content to its holding registers and is emptied (R757, R759). -/
def snapUnit (z : State) (c : SnapScope) (a : Nat) (h : HistUnit) (s : State) : State :=
  match resolve a with
  | some (b, o) =>
    if !inScope z c b o then s
    else
      let s1 := ((((s.wr64 (a + 0x20) h.cnt).wr (a + 0x28) (w32 (codeOf 32 h.mn))).wr (a + 0x2C) h.mnT).wr (a + 0x30)
        (w32 (codeOf 32 h.mx))).wr (a + 0x34) h.mxT
      let s2 := s1.wr (a + 0x38) (bitW 0 (decide (h.cnt ≠ 0)))
      let s3 := forEach h.bins s2 fun e t => t.wr (a + 0x100 + 4 * e.1) (w32 e.2)
      { s3 with mon := { s3.mon with units := AMap.put s3.mon.units a {} {} } }
  | none => s

/-- A snapshot (R80, R83, R85): the holding registers in scope are replaced, live counters cleared, SEQ of every block in scope advances. -/
def snapshot (s : State) (c : SnapScope) : State :=
  let ks := AMap.keys s.regs
  let s1 := forEach ks s fun a t =>
    match regOf a with
    | some x => if x.row.cls = .snap ∧ inScope s c x.b x.o then t.wr a 0 else t
    | none => t
  let s2 := forEach ks s1 fun a t => snapOne s c a t
  let s3 := forEach s.mon.units s2 fun e t => snapUnit s c e.1 e.2 t
  forEach (scopeBlocks s c) s3 fun b t => t.setFld (b.base + 0x010) 31 16 (t.fld (b.base + 0x010) 31 16 + 1)

/-- The scope that a BLK_SNAP write names. -/
def snapScope (v : Word) : SnapScope :=
  match bits v 1 0 with
  | 0 => .port (bits v 15 8)
  | 1 => .pav (bits v 15 8)
  | _ => .chip

/-- CHP_MODE has changed (R64): source 18; in SERVICE and RECOVERY the enabled ports run. -/
def modeChanged (b s : State) : State :=
  if b.mode = s.mode then s
  else
    let s1 := latchSource s 18
    if portsHeld b && !portsHeld s then startPorts s1 fun _ => true else s1

/-- A write of CHP_MODE_KEY gives its master a key, or takes it away (R65). -/
def keyWritten (s : State) (m : Master) (v : Word) : State :=
  let ks := s.keys.filter (· ≠ m.num)
  { s with keys := if v = 0xA5C3 then m.num :: ks else ks }

/-- What a write does beyond the store: `b` is the state before the store, `s` after it, `v` the word written. -/
def chapterApply (b s : State) (m : Master) (x : Reg) (v : Word) : State :=
  match x.row.eff with
  | .none => s
  | .blkSnap => snapshot s (snapScope v)
  | .blkCtrl =>
    match x.b.ty with
    | .gns => gnsBlkCtrl b s
    | .bst => bstCtrl b s x.slot
    | _ => s
  | .chpMode => modeChanged b s
  | .chpModeKey => keyWritten s m v
  | e =>
    match x.b.ty with
    | .clk => clkApply b s m e (clkIndex e x.addr x.i) v
    | .sun => sunApply b s e x.i v
    | .tdc => tdcApply b s e x.i v
    | .gns => judgeLoads (gnsApply b s e x.i x.j v)
    | .hif => hifApply b s e x.i
    | .irq => irqApply b s e x.i x.o m v
    | .pwr => pwrApply b s e v
    | .nvm => if e = .nvmWin then nvmWinApply b x.o m v else s
    | .mon | .pmon => monApply b s x.inPav e x.addr x.i
    | .mac => if e = .macCfg then macApply b s x.slot else s
    | .lan => if e = .lanEyeCmd then eyeCmdApply s x.slot v else s
    | .que => queApply b s e x.port
    | .tbl | .cue => tblCueApply b s e v
    | .plc => plcApply b s e
    | _ => s

/-- A write that has passed every check takes effect. -/
def storeWrite (s : State) (m : Master) (x : Reg) (v : Word) : State :=
  chapterApply s (s.wr x.home (newWord x (s.rd x.home) v)) m x v

/-- Event of a BAR0 access for the performance counters (R762, R764). -/
def busEvent (ev : Nat) (m : Master) (a : Nat) : PerfEv :=
  { ev := ev, master := some m.num, addr := some a, priv := match m with
    | .core _ sup => sup
    | _ => false }

/-- A refused write latches its code in the block's BLK_ERR (R88). -/
def refuse (s : State) (m : Master) (b : Block) (code off a : Nat) : State :=
  perfCount (latchErr s b code off m) none (busEvent 0x02 m a) 1

/-- The key of a master's open pair in a block. -/
def dwKey (b : Block) (m : Master) : Nat := b.base + m.num

/-- Close a master's pair in a block. -/
def closePair (s : State) (b : Block) (m : Master) : State := { s with dw := AMap.del s.dw (dwKey b m) }

/-- A write to a DW register opens a pair, closing an earlier one with E_DWMISMATCH (R60, R61). -/
def dwFirst (s : State) (m : Master) (x : Reg) (v : Word) (a : Nat) : State :=
  if modeBad s x v then refuse s m x.b 0x10 x.o a
  else if lockBad s m x v then refuse s m x.b 0x02 x.o a
  else
    let s1 := match AMap.get s.dw (dwKey x.b m) with
      | some p => refuse s m x.b 0x04 (p.reg - x.b.base) a
      | none => s
    { s1 with dw := AMap.set s1.dw (dwKey x.b m) ⟨x.addr, v⟩ }

/-- A write of `v` to the complement address of the DW register `y`: the mode and the lock are checked anew on the value it would give (R63), and
before the pair (R89). A pair that a refused complement write belongs to is closed. -/
def dwSecond (s : State) (m : Master) (x y : Reg) (v : Word) (parity : Bool) (a : Nat) : State :=
  let s1 := closePair s x.b m
  if modeBad s y (~~~v) then refuse s1 m x.b 0x10 x.o a
  else if lockBad s m y (~~~v) then refuse s1 m x.b 0x02 x.o a
  else
    match AMap.get s.dw (dwKey x.b m) with
    | none => refuse s m x.b 0x04 (x.o - 0x800) a
    | some p =>
      if p.reg ≠ y.addr then refuse s1 m x.b 0x04 (p.reg - x.b.base) a
      else if v ≠ ~~~p.val then refuse s1 m x.b 0x04 y.o a
      else
        let c := lateCode s1 m y p.val parity
        if c ≠ 0 then refuse s1 m x.b c x.o a else storeWrite s1 m y p.val

/-- An access to a reserved range of BAR0 (R44). -/
def reservedAccess (s : State) (m : Master) (wr : Bool) (be : BitVec 4) (a : Nat) : State :=
  let s1 := (s.wr (chpB + 0x048) (w32 a)).wr (chpB + 0x04C) (bitW 8 wr ||| fieldW 6 4 m.num ||| w32 be.toNat)
  let s2 := latchErr s1 ⟨.chp, 0, 0⟩ 0x06 (a % 0x10000) m
  if wr then perfCount s2 none (busEvent 0x02 m a) 1 else s2

/-- A mode key is used up by the mode write it serves (R65, R66). -/
def useKey (s : State) (m : Master) (x : Reg) : State :=
  if x.row.eff = .chpMode then { s with keys := s.keys.filter (· ≠ m.num) } else s

/-- A write of a register that has passed the width check, by its class (R53, R55, R89, R92). -/
def writeReg (s : State) (m : Master) (x : Reg) (v : Word) (parity : Bool) (a : Nat) : State :=
  match x.row.cls with
  | .ro | .rc | .rcHi | .snap => s
  | .dw => dwFirst s m x v a
  | .comp =>
    match regOf x.home with
    | some y => dwSecond s m x y v parity a
    | none => s
  | .wm => if v >>> 16 = 0 then s
    else
      let c := writeCode s m x v parity
      if c ≠ 0 then refuse s m x.b c x.o a else storeWrite s m x v
  | _ =>
    let c := writeCode s m x v parity
    if c ≠ 0 then refuse (useKey s m x) m x.b c x.o a
    else useKey (storeWrite s m x v) m x

/-- The address of the register itself that an access reaches, through an alias or not (R75); the address as it is where none is. -/
def ownAddr (a : Nat) : Nat :=
  match resolve a with
  | some (b, o) => b.base + o
  | none => a

/-- An access of BAR0 is a performance event (R764), whatever comes of it. It counts after the access has had its effect, so that a counter that
the access clears or snapshots holds it afterwards, and a flag it sets stays set (R85, R87). -/
def counted (s : State) (m : Master) (a : Nat) : State := perfCount s none (busEvent 0x01 m (ownAddr a)) 1

/-- Does a master act at all: registers answer, and a management core runs only signed firmware (R32), cores 1 to 3 not in P2 (R36). -/
def masterActs (s : State) (m : Master) : Bool :=
  s.alive &&
  match m with
  | .core c _ => s.pwr.firmware && (decide (s.pstate ≠ 2) || c.val == 0)
  | _ => true

/-- The effect of a 32-bit write of BAR0 by a master (R44 to R46, R88, R89). An offset of CHP, XBR, ORG or PAV that holds no register is treated as
every other chapter's block map has it: the write changes nothing and latches E_RANGE (DESIGN CHOICE, log entry 4). -/
def writeAt (s : State) (m : Master) (be : BitVec 4) (a : Nat) (v : Word) (parity : Bool) : State :=
  match resolve a with
  | none => reservedAccess s m true be a
  | some (b, o) =>
    if be ≠ 0xF ∨ a % 4 ≠ 0 then refuse s m b 0x11 o (ownAddr a)
    else
      match regAt b o with
      | some f => writeReg s m ⟨b, o, f.row, f.i, f.j⟩ v parity (ownAddr a)
      | none => refuse s m b 0x06 o (ownAddr a)

/-- A 32-bit write of BAR0 by a master. Nothing answers while the chip is held or in P3. -/
def busWrite (s : State) (m : Master) (be : BitVec 4) (a : Nat) (v : Word) (parity : Bool) : State :=
  if masterActs s m then counted (writeAt s m be a v parity) m a else s

/-- The dwords of a wider write that follow its first, each with its byte enables: 32-bit writes in ascending address order (R48). -/
def busWriteMore (s : State) (m : Master) (a : Nat) : List (BitVec 4 × Word) → State
  | [] => s
  | x :: t => busWriteMore (busWrite s m x.1 (a + 4) x.2 false) m (a + 4) t

/-- What a read of a register returns (R53): the chapters' views where the value is reckoned, else what is stored. -/
def readView (s : State) (m : Master) (x : Reg) : Word :=
  match x.row.eff with
  | .blkId =>
    fieldW 31 24 x.b.ty.code ||| fieldW 23 16 (if x.b.ty.inPav then 16 * x.b.r + x.b.k else 0xFF) ||| 0xA001
  | .blkDecode => w32 x.b.ty.decodeMask
  | .irqStatus => irqStatusView s
  | .irqPerr => irqPerrView s x.i (x.j == 1)
  | .irqClaimV => if m.num = 0 then (claim s x.i).1 else 0
  | .irqClaimC => if m.num = x.i + 1 then (claim s (256 + x.i)).1 else 0
  | .pwrLodgeNs => lodgeNsView s
  | .nvmWin => nvmWinView s x.o
  | .clkDpllState => s.rd x.addr
  | .sunStatus => sunStatusView s
  | .sunInc => if x.j = 0 then w32 (sunIncView s x.i) else w32 (sunIncView s x.i / 2 ^ 32)
  | .sunResid => sunResidView s x.i
  | .sunTrkRoot => trkRootView s
  | .tdcCalStatus => calStatusView s
  | .tdcChStatus => tdcStatusView s x.i
  | .tdcResLo => w32 (popResult s x.i).2
  | .tdcLane => laneReg s x.i x.j
  | .gnsFePhase => fePhaseView s x.i
  | .quePool => quePoolView s x.b.r
  | .queRsv => queRsvView s x.b.r
  | .queStat => queStatView s x.port x.j
  | .tblStatus => tblStatusView s
  | .tblUsed => tblUsedView s x.i
  | .lrnStatus => lrnStatusView s x.b.r
  | .cueStatus => cueStatusView s
  | .cueAnswer => cueAnswerView s
  | .cueMembers => cueMembersView s
  | .plcStatus => plcStatusView s
  | .plcOrgBw => plcOrgBwView s
  | .plcJqPlace => jqPlace s (s.fld (plcB + 0x060) 15 0)
  | .plcJqStat => jqStat s (s.fld (plcB + 0x060) 15 0)
  | .plcPavLoad => plcPavLoadView s x.i
  | .bstStatus => bstStatusView s x.slot
  | .bstPhys => bstPhysView s x.slot
  | _ =>
    match x.row.cls with
    | .comp => ~~~(s.rd x.home)
    | .wm => s.rd x.home &&& 0xFFFF
    | .rcHi => AMap.getD s.latched (8 * x.addr + m.num) 0
    | _ => hifView s x
where
  /-- HIF_POOL, HIF_RSV and HIF_HQt_STAT; any other register as stored. -/
  hifView (s : State) (x : Reg) : Word :=
    if x.addr = hifB + 0x058 then w32 (min 8191 (sharedFree s 8))
    else if x.addr = hifB + 0x05C then w32 (min 8191 (minSum s 8))
    else if x.b.ty = .hif ∧ 0x108 ≤ x.o ∧ x.o < 0x180 ∧ x.o % 16 = 8 then w32 (min (2 ^ 24 - 1) (depthOf s 128 ((x.o - 0x108) / 16)))
    else s.rd x.home

/-- A master's latch of the register at `a` takes a value (R86). -/
def latch (s : State) (m : Master) (a : Nat) (v : Word) : State := { s with latched := AMap.put s.latched (8 * a + m.num) v 0 }

/-- Does a register pair latch its high half on a read of the register at `a`? -/
def hasHigh (a : Nat) : Bool := (regOf (a + 4)).any fun y => y.row.cls == .rcHi

/-- What a read changes (R51, R53, R84, R86, R681). -/
def readEffect (s : State) (m : Master) (x : Reg) : State :=
  let a := x.addr
  match x.row.eff with
  | .irqClaimV => if m.num = 0 ∧ (bestSource s x.i).isSome then perfCount (claim s x.i).2 none { ev := 0x0C, master := some m.num } 1 else s
  | .irqClaimC =>
    if m.num = x.i + 1 ∧ (bestSource s (256 + x.i)).isSome then perfCount (claim s (256 + x.i)).2 none { ev := 0x0C, master := some m.num } 1 else s
  | .pwrLodgeNs => latch (latch s m (a + 4) (lodgeSecView s false)) m (a + 8) (lodgeSecView s true)
  | .tdcResLo => latch (popResult s x.i).1 m (a + 4) (hiHalf (popResult s x.i).2)
  | _ =>
    let s1 := if hasHigh a then latch s m (a + 4) (s.rd (a + 4)) else s
    match x.row.cls, x.row.ctr with
    | .rc, .c64 _ => s1.wr64 a 0
    | .rc, _ => s1.wr a 0
    | _, _ => s1

/-- The effect of a 32-bit read of BAR0 by a master (R44, R47): its data go to the model's port. `parity` finds a parity error in the register
(R94). -/
def readAt (s : State) (m : Master) (be : BitVec 4) (a : Nat) (parity : Bool) : State :=
  match resolve a with
  | none => { reservedAccess s m false be a with busOut := 0 }
  | some (b, o) =>
    match regAt b o with
    | none => { s with busOut := 0 }
    | some f =>
      let x : Reg := ⟨b, o, f.row, f.i, f.j⟩
      let s1 := { readEffect s m x with busOut := readView s m x }
      if parity then latchErr s1 b 0x12 o m else s1

/-- A 32-bit read of BAR0 by a master. -/
def busRead (s : State) (m : Master) (be : BitVec 4) (a : Nat) (parity : Bool) : State :=
  if masterActs s m then counted (readAt s m be a parity) m a else s

/-- A read of a first dword and of the dwords that follow it in ascending address order (R48): the data of the first go to `busOut`, those of the
others to `busMore`. -/
def busReads (s : State) (m : Master) (be : Enables) (a : Nat) : State :=
  let s1 := busRead s m be.first a false
  let p := be.more.foldl (fun (p : State × List Word × Nat) e =>
    let t := busRead p.1 m e (p.2.2 + 4) false
    (t, p.2.1 ++ [t.busOut], p.2.2 + 4)) (s1, [], a)
  { p.1 with busOut := s1.busOut, busMore := p.2.1 }

/-- The dual-write window of a master's pair in a block ends (R61). -/
def dwExpire (s : State) (m : Master) (b : Block) : State :=
  match AMap.get s.dw (dwKey b m) with
  | some p => latchErr (closePair s b m) b 0x04 (p.reg - b.base) m
  | none => s

end Sys2Proof.Machine
end

