-- ==== Sys2Proof/Machine/Cal.lean ====
section
/-!
DEFINITION. Cal.lean: the events of live calibration (05_interval_measurement_and_calibration.md R253 to R275) and the end of an NVM write
(14_power_and_feeds.md R743), one meaning per row of the table.
-/
namespace Sys2Proof.Machine

/-- CAL_TRIGGER (R260 to R262): an event of R260 occurs for item `i` of kind `k`. Valid while one holds, outside RETRY. -/
def execCalTrigger (k : Fin 3) (i : Fin 128) (s : State) : Result :=
  if calDue s k i ∧ calMay s k i ∧ (calItem s k i).retryAt ≤ s.elapsed then .next (askCal s k i) else .next s

/-- CAL_DEFERRED_START (R261, R263, R279): a waiting trunk run starts once its lane is up in trunk mode, outside RETRY. -/
def execCalDeferredStart (l : Fin 128) (s : State) : Result :=
  if (calItem s 1 l).wait ∧ calMay s 1 l ∧ (calItem s 1 l).retryAt ≤ s.elapsed then .next (startCal s 1 l) else .next s

/-- A run of the offset or trunk kind ends (R255, R264, R265): its results are accepted, or discarded with the disagreement in ps. -/
def finishRun (s : State) (k i : Nat) (a0 a1 b0 b1 : Int) : State :=
  let d := if k = 1 then max (a0 - b0).natAbs (a1 - b1).natAbs else (a0 - b0).natAbs
  if calTol s k * 65536 < d * 1000 then discardRun s k i (divRound ((d * 1000 : Nat) : Int) 65536).toNat
  else if k = 0 then acceptOffset s i (runMean a0 b0) (runMean a1 b1)
  else acceptTrunk s i (runMean a0 b0) (runMean a1 b1)

/-- An asymmetry run ends (R256, R257, R264, R265): its d and that of its repeat are the means over the two seconds since it started. With RANGE a
ranged delay that differs by more than ASYM_TOL discards it, and asks for a trunk run of each lane. -/
def finishAsym (s : State) (p : Nat) : State :=
  match asymMeans s p with
  | none => s
  | some ((n1, d1), (n2, d2)) =>
    let x := calItem s 2 p
    let ranges := s.flag (tdcB + 0x3000 + 0x10 * p) 1 && !x.noRange
    let unit : Nat := d1 * d2 * 2 ^ 40
    let apart := (n1 * d2 - n2 * d1).natAbs * 1000
    let num := n1 * d2 + n2 * d1
    let den := 2 * d1 * d2
    if calTol s 2 * unit < apart then discardRun s 2 p (divRound (apart : Nat) unit).toNat
    else
      match if ranges then x.ranged else none with
      | some r =>
        let off := (r * (den * 2 ^ 40 : Nat) - num * 1000).natAbs
        if calTol s 2 * (den * 2 ^ 40) < off then
          forEach (lanesOf s p) (discardRun s 2 p (divRound (off : Nat) (den * 2 ^ 40)).toNat) fun l t => askCal t 1 l
        else (acceptAsym s p num den).setFlag (tdcB + 0x060) 9 false
      | none => (acceptAsym s p num den).setFlag (tdcB + 0x060) 9 x.noRange

/-- CAL_RUN_COMPLETE (R255 to R257, R264, R265): the run gave `a0`, `a1` and its repeat `b0`, `b1`: OFS in 2^-16 ns and G2 in 2^-16, or the
transmit and receive delays in 2^-16 ns. An asymmetry run measures its own path delays: it completes after its two seconds and, with RANGE, once its
ranging has answered or timed out. -/
def execCalRunComplete (k : Fin 3) (i : Fin 128) (a0 a1 b0 b1 : Int) (s : State) : Result :=
  let x := calItem s k i
  if !x.run then .next s
  else if k.val ≠ 2 then .next (finishRun s k i a0 a1 b0 b1)
  else if s.elapsed < x.startAt + 2 * tuPerSec ∨ (s.flag (tdcB + 0x3000 + 0x10 * i) 1 ∧ !x.noRange ∧ x.ranged.isNone) then .next s
  else .next (finishAsym s i)

/-- W1 and W2 of a channel take one of their 256 steps, each with a calibration pair (R266). -/
def stepW (s : State) (n : Nat) : State :=
  let x := tdcCh s n
  if x.wSteps = 0 ∨ x.wDue = 0 ∨ !calLive s then s
  else
    let f (a : Nat) (t : Nat) : Word := w32 (equalStep (s.rd a).toNat t x.wSteps).toNat
    setTdcCh ((s.wr (tdcCfg n + 0x18) (f (tdcCfg n + 0x18) x.w1)).wr (tdcCfg n + 0x1C) (f (tdcCfg n + 0x1C) x.w2)) n
      { x with wSteps := x.wSteps - 1, wDue := x.wDue - 1 }

/-- G2 of a channel takes one of its 256 steps, each with a calibration pair. -/
def stepG (s : State) (n : Nat) : State :=
  let x := tdcCh s n
  if x.gSteps = 0 ∨ x.gDue = 0 ∨ !calLive s then s
  else
    setTdcCh (s.wr (tdcCfg n + 0x24) (BitVec.ofInt 32 (equalStep (sbits (s.rd (tdcCfg n + 0x24)) 31 0) x.g2 x.gSteps))) n
      { x with gSteps := x.gSteps - 1, gDue := x.gDue - 1 }

/-- OFS of a channel moves by one unit. -/
def stepOfs (s : State) (n : Nat) : State :=
  let old := sbits (s.rd (tdcCfg n + 0x20)) 31 0
  if 16 ≤ n ∨ old = (tdcCh s n).ofs ∨ !stepFree s 0 n unitTime then s
  else stepMade (s.wr (tdcCfg n + 0x20) (BitVec.ofInt 32 (stepTo old (tdcCh s n).ofs 1))) 0 n

/-- The delays of a lane move by one unit. -/
def stepLane (s : State) (l : Nat) : State :=
  let x := laneNow s l
  let f (v t : Word) : Word := w32 (stepTo v.toNat t.toNat 1).toNat
  if !x.moving ∨ !stepFree s 1 l unitTime then s
  else stepMade (setLaneNow s l { x with tx := f x.tx x.txT, rx := f x.rx x.rxT }) 1 l

/-- SUN_PTp_ASYM moves by 1 ps. -/
def stepAsym (s : State) (p : Nat) : State :=
  if !asymMoves s p ∨ !stepFree s 2 p tuPerSec then s
  else
    let v := stepTo (asymNow s p) (asymTgt s p) 1
    let s1 := stepMade (s.wr (sunB + 0x1008 + 0x10 * p) (BitVec.ofInt 32 v)) 2 p
    if v = asymTgt s p then { s1 with tdc := { s1.tdc with asymEnds := s1.tdc.asymEnds.filter (· ≠ p) } } else s1

/-- CAL_APPLY_STEP (R253, R266, R270): one step of an applied value: 0 W1 and W2, 1 G2, 2 OFS, 3 the delays of a lane, 4 SUN_PTp_ASYM. Valid while
the value moves, once its next step has come due. -/
def execCalApplyStep (what : Fin 5) (i : Fin 128) (s : State) : Result :=
  .next (match what.val with
    | 0 => stepW s i
    | 1 => stepG s i
    | 2 => stepOfs s i
    | 3 => stepLane s i
    | _ => stepAsym s i)

/-- CAL_RANGING_TIMEOUT (R258): valid on an asymmetry run whose ranging has not been served within 10 s. -/
def execCalRangingTimeout (p : Fin 128) (s : State) : Result :=
  let x := calItem s 2 p
  if x.run ∧ s.flag (tdcB + 0x3000 + 0x10 * p) 1 ∧ x.ranged.isNone ∧ !x.noRange ∧ x.startAt + 10 * tuPerSec ≤ s.elapsed then
    .next ((setCalItem s 2 p { x with noRange := true }).setFlag (tdcB + 0x060) 9 true)
  else .next s

/-- NVM_WRITE_DONE (R743, R275): the write in progress completes, or fails verification. -/
def execNvmWriteDone (fail : Bool) (s : State) : Result := .next (finishNvm s fail)

end Sys2Proof.Machine
end

