-- ==== Sys2Proof/Machine/BusRows.lean ====
section
/-!
DEFINITION. BusRows.lean: the commands that are register accesses. Each is the one write or read of 02_register_model.md at that register; a row
that names the value of a field writes that field so.
-/
namespace Sys2Proof.Machine

/-- The header register at offset `o` of the block whose window holds `a` (R49); `a` itself where no block lies. -/
def headerAddr (a o : Nat) : Nat :=
  match locate a with
  | some (b, _) => b.base + o
  | none => a

/-- The CFG register of time output `k` (R231). -/
def timeOutCfg (k : Nat) : Nat := if k < 2 then sunB + 0x100 + 0x10 * k else if k < 4 then sunB + 0x120 + 0x10 * (k - 2) else sunB + 0x140 + 0x10 * (k - 4)
/-- Its ADJ register. -/
def timeOutAdj (k : Nat) : Nat := if 2 ≤ k ∧ k < 4 then timeOutCfg k + 8 else timeOutCfg k + 4

/-- The claim register of a target (R681, R696). -/
def claimAddr (t : Nat) : Nat := if t < 256 then irqB + 0x3000 + 8 * t else irqB + 0x3800 + 8 * (t - 256)

/-- A Pavilion has four histogram units, the chip eight (R751). -/
def histUnit (pav : Option (Fin 8)) (u : Fin 8) : Nat := if pav.isSome then u.val % 4 else u.val

/-- REGISTER_WRITE (R45 to R63, R88 to R92): a write of BAR0, 32 bits wide, or wider with further dwords behind the first; no access of another
master comes between them (R48). -/
def execRegisterWrite (m : Master) (be : BitVec 4) (a : BitVec 25) (v : Word) (rest : WriteRest) (s : State) : Result :=
  .next (busWriteMore (busWrite s m be a.toNat v rest.parityErr) m a.toNat rest.more)

/-- RESERVED_RANGE_ACCESS (R44): an access of BAR0 whose address reaches no block. -/
def execReservedRangeAccess (m : Master) (wr : Bool) (be : BitVec 4) (a : BitVec 25) (s : State) : Result :=
  .next (if wr then busWrite s m be a.toNat 0 false else busRead s m be a.toNat false)

/-- BAR2_RESERVED_WRITE (R42, R43): a write of BAR2 with its byte enables and value; with none, a read of it, which returns 0 at any offset. -/
def execBar2ReservedWrite (a : BitVec 20) (x : Option (BitVec 4 × Word)) (s : State) : Result :=
  match x with
  | some (be, v) => .next (bar2Write s be a.toNat v)
  | none => .next (if s.alive then { s with busOut := 0 } else s)

/-- BLK_ERR_READ (R51): a read of the BLK_ERR of the block whose window holds `a`. -/
def execBlkErrRead (m : Master) (be : BitVec 4) (a : BitVec 25) (s : State) : Result :=
  .next (busRead s m be (headerAddr a.toNat 0x008) false)

/-- REGISTER_READ_PARITY_ERROR (R94). -/
def execRegisterReadParityError (m : Master) (be : BitVec 4) (a : BitVec 25) (s : State) : Result :=
  .next (busRead s m be a.toNat true)

/-- COUNTER_READ (R84): a direct read of a live counter, with the dwords of a wider read behind it (R48). -/
def execCounterRead (m : Master) (be : Enables) (a : BitVec 25) (s : State) : Result :=
  .next (busReads s m be a.toNat)

/-- COUNTER_LOW_HALF_READ (R86): a read of the low half of a pair, with the dwords of a wider read behind it (R48). -/
def execCounterLowHalfRead (m : Master) (be : Enables) (a : BitVec 25) (s : State) : Result :=
  .next (busReads s m be a.toNat)

/-- CLEAR_ON_READ (R53): a read of an RC status register, with the dwords of a wider read behind it (R48). -/
def execClearOnRead (m : Master) (be : Enables) (a : BitVec 25) (s : State) : Result :=
  .next (busReads s m be a.toNat)

/-- BLK_LOCK_WRITE (R52, R57): a write of the BLK_LOCK of the block whose window holds `a`. -/
def execBlkLockWrite (m : Master) (be : BitVec 4) (a : BitVec 25) (v : Word) (s : State) : Result :=
  .next (busWrite s m be (headerAddr a.toNat 0x00C) v false)

/-- SNAPSHOT_PORT (R80): a BLK_SNAP write with SCOPE 0 to the block whose window holds `a`. -/
def execSnapshotPort (m : Master) (be : BitVec 4) (a : BitVec 25) (target : Byte) (s : State) : Result :=
  .next (busWrite s m be (headerAddr a.toNat 0x010) (w32 (target.toNat * 256 + 0)) false)

/-- SNAPSHOT_PAVILION (R80): a BLK_SNAP write with SCOPE 1 to the block whose window holds `a`. -/
def execSnapshotPavilion (m : Master) (be : BitVec 4) (a : BitVec 25) (target : Byte) (s : State) : Result :=
  .next (busWrite s m be (headerAddr a.toNat 0x010) (w32 (target.toNat * 256 + 1)) false)

/-- SNAPSHOT_CHIP (R80): a BLK_SNAP write with SCOPE 2 to the block whose window holds `a`. -/
def execSnapshotChip (m : Master) (be : BitVec 4) (a : BitVec 25) (target : Byte) (s : State) : Result :=
  .next (busWrite s m be (headerAddr a.toNat 0x010) (w32 (target.toNat * 256 + 2)) false)

/-- DW_FIRST_WRITE (R59 to R62): a write to a DW register. -/
def execDwFirstWrite (m : Master) (be : BitVec 4) (a : BitVec 25) (v : Word) (s : State) : Result :=
  .next (busWrite s m be a.toNat v false)

/-- DW_COMPLEMENT_WRITE (R59 to R63): a write to a complement address. -/
def execDwComplementWrite (m : Master) (be : BitVec 4) (a : BitVec 25) (v : Word) (s : State) : Result :=
  .next (busWrite s m be a.toNat v false)

/-- DW_WINDOW_EXPIRY (R61): 64 Gatehouse cycles after its first write, the pair of a master in the block whose window holds `a` closes. No effect where none is open. -/
def execDwWindowExpiry (m : Master) (a : BitVec 25) (s : State) : Result :=
  match locate a.toNat with
  | some (b, _) => .next (if s.alive then dwExpire s m b else s)
  | none => .next s

/-- MODE_KEY_WRITE (R65). -/
def execModeKeyWrite (m : Master) (be : BitVec 4) (v : Word) (s : State) : Result :=
  .next (busWrite s m be (chpB + 0x044) (v) false)

/-- MODE_KEY_EXPIRY (R65): the key lapses. -/
def execModeKeyExpiry (m : Master) (s : State) : Result :=
  .next ({ s with keys := s.keys.filter (· ≠ m.num) })

/-- MODE_CHANGE (R64 to R66): a write of CHP_MODE. -/
def execModeChange (m : Master) (be : BitVec 4) (v : Word) (s : State) : Result :=
  .next (busWrite s m be (chpB + 0x040) (v) false)

/-- REF_CONFIG_WRITE (R100): a write of CLK_REFn_CFG, or with `nom` of CLK_REFn_NOM. -/
def execRefConfigWrite (m : Master) (be : BitVec 4) (n : Fin 8) (nom : Bool) (v : Word) (s : State) : Result :=
  .next (busWrite s m be (clkB + 0x100 + 0x20 * n.val + (if nom then 4 else 0)) (v) false)

/-- DPLL_MODE_WRITE (R113): a write of CLK_DPLLd_CFG. -/
def execDpllModeWrite (m : Master) (be : BitVec 4) (d : Fin 4) (v : Word) (s : State) : Result :=
  .next (busWrite s m be (dpllCfg d) (v) false)

/-- OUTPUT_ENABLE_SET (R150). -/
def execOutputEnableSet (m : Master) (be : BitVec 4) (v : Word) (s : State) : Result :=
  .next (busWrite s m be (clkB + 0x060) (v) false)

/-- OUTPUT_ENABLE_CLEAR (R150). -/
def execOutputEnableClear (m : Master) (be : BitVec 4) (v : Word) (s : State) : Result :=
  .next (busWrite s m be (clkB + 0x064) (v) false)

/-- OUTPUT_DELAY_WRITE (R148, R149): a write of CLK_OUTk_DELAY. -/
def execOutputDelayWrite (m : Master) (be : BitVec 4) (k : Fin 8) (v : Word) (s : State) : Result :=
  .next (busWrite s m be (clkB + 0x30C + 0x20 * k.val) (v) false)

/-- DOMAIN_SELECT_WRITE (R193): a write of SUN_DOM_CTRL. -/
def execDomainSelectWrite (m : Master) (be : BitVec 4) (v : Word) (s : State) : Result :=
  .next (busWrite s m be (sunB + 0x05C) (v) false)

/-- TIME_OUTPUT_ENABLE (R217): EN of time output `k` (0 and 1 PPS, 2 and 3 LTC, 4 to 7 word clocks) is written 1. -/
def execTimeOutputEnable (m : Master) (be : BitVec 4) (k : Fin 8) (v : Word) (s : State) : Result :=
  .next (busWrite s m be (timeOutCfg k.val) (putBits v 0 0 1) false)

/-- TIME_OUTPUT_DISABLE (R217): EN of time output `k` is written 0. -/
def execTimeOutputDisable (m : Master) (be : BitVec 4) (k : Fin 8) (v : Word) (s : State) : Result :=
  .next (busWrite s m be (timeOutCfg k.val) (putBits v 0 0 0) false)

/-- OUTPUT_ADJ_WRITE (R218): a write of the ADJ of time output `k`. -/
def execOutputAdjWrite (m : Master) (be : BitVec 4) (k : Fin 8) (v : Word) (s : State) : Result :=
  .next (busWrite s m be (timeOutAdj k.val) (v) false)

/-- COMPARE_ARM (R225): ARM of a compare unit is written 1. -/
def execCompareArm (m : Master) (be : BitVec 4) (c : Fin 16) (v : Word) (s : State) : Result :=
  .next (busWrite s m be (sunB + 0x200 + 0x20 * c.val) (putBits v 0 0 1) false)

/-- COMPARE_DISARM (R228): ARM of a compare unit is written 0. -/
def execCompareDisarm (m : Master) (be : BitVec 4) (c : Fin 16) (v : Word) (s : State) : Result :=
  .next (busWrite s m be (sunB + 0x200 + 0x20 * c.val) (putBits v 0 0 0) false)

/-- CAPTURE_COUNTERS (R173): a write of SUN_CAP_CMD. -/
def execCaptureCounters (m : Master) (be : BitVec 4) (v : Word) (s : State) : Result :=
  .next (busWrite s m be (sunB + 0x064) (v) false)

/-- TIME_SET_STEP (R229, R230): a SUN_SET_CMD write with MODE 0. -/
def execTimeSetStep (m : Master) (be : BitVec 4) (v : Word) (s : State) : Result :=
  .next (busWrite s m be (sunB + 0x068) (putBits v 4 4 0) false)

/-- TIME_SET_SLEW (R229, R230): a SUN_SET_CMD write with MODE 1. -/
def execTimeSetSlew (m : Master) (be : BitVec 4) (v : Word) (s : State) : Result :=
  .next (busWrite s m be (sunB + 0x068) (putBits v 4 4 1) false)

/-- PTP_CONFIG_WRITE (R202): a write of SUN_PTp_CFG. -/
def execPtpConfigWrite (m : Master) (be : BitVec 4) (p : Fin 128) (v : Word) (s : State) : Result :=
  .next (busWrite s m be (sunB + 0x1000 + 0x10 * p.val) (v) false)

/-- TDC_ARM_CONTINUOUS (R242): a TDC_CHn_CFG write with ARM 1. -/
def execTdcArmContinuous (m : Master) (be : BitVec 4) (n : Fin 16) (v : Word) (s : State) : Result :=
  .next (busWrite s m be (tdcB + 0x400 + 0x40 * n.val) (putBits v 3 2 1) false)

/-- TDC_ARM_GATE (R242): a TDC_CHn_CFG write with ARM 2. -/
def execTdcArmGate (m : Master) (be : BitVec 4) (n : Fin 16) (v : Word) (s : State) : Result :=
  .next (busWrite s m be (tdcB + 0x400 + 0x40 * n.val) (putBits v 3 2 2) false)

/-- TDC_ARM_COMPARE (R242): a TDC_CHn_CFG write with ARM 3. -/
def execTdcArmCompare (m : Master) (be : BitVec 4) (n : Fin 16) (v : Word) (s : State) : Result :=
  .next (busWrite s m be (tdcB + 0x400 + 0x40 * n.val) (putBits v 3 2 3) false)

/-- TDC_DISARM (R242): a TDC_CHn_CFG write with ARM 0. -/
def execTdcDisarm (m : Master) (be : BitVec 4) (n : Fin 16) (v : Word) (s : State) : Result :=
  .next (busWrite s m be (tdcB + 0x400 + 0x40 * n.val) (putBits v 3 2 0) false)

/-- TDC_RESULT_READ (R248): a read of TDC_CHn_RES_LO. -/
def execTdcResultRead (m : Master) (be : BitVec 4) (n : Fin 16) (s : State) : Result :=
  .next (busRead s m be (tdcB + 0x408 + 0x40 * n.val) false)

/-- TDC_DIFF_CONFIG_WRITE (R252): a write of TDC_DIFFu_CFG. -/
def execTdcDiffConfigWrite (m : Master) (be : BitVec 4) (u : Fin 8) (v : Word) (s : State) : Result :=
  .next (busWrite s m be (tdcB + 0x800 + 0x20 * u.val) (v) false)

/-- CAL_COMMAND_OFFSET (R279): a TDC_CAL_CMD write of KIND 0. -/
def execCalCommandOffset (m : Master) (be : BitVec 4) (item : Byte) (s : State) : Result :=
  .next (busWrite s m be (tdcB + 0x05C) (w32 (0 + item.toNat)) false)

/-- CAL_COMMAND_TRUNK (R279): a TDC_CAL_CMD write of KIND 1. -/
def execCalCommandTrunk (m : Master) (be : BitVec 4) (item : Byte) (s : State) : Result :=
  .next (busWrite s m be (tdcB + 0x05C) (w32 (256 + item.toNat)) false)

/-- CAL_COMMAND_ASYM (R279): a TDC_CAL_CMD write of KIND 2. -/
def execCalCommandAsym (m : Master) (be : BitVec 4) (item : Byte) (s : State) : Result :=
  .next (busWrite s m be (tdcB + 0x05C) (w32 (512 + item.toNat)) false)

/-- CAL_ENABLE_WRITE (R268): a write of TDC_CAL_CTRL. -/
def execCalEnableWrite (m : Master) (be : BitVec 4) (v : Word) (s : State) : Result :=
  .next (busWrite s m be (tdcB + 0x050) (v) false)

/-- ACQ_GO (R292): a write of GNS_ACQ_CMD. -/
def execAcqGo (m : Master) (be : BitVec 4) (v : Word) (s : State) : Result :=
  .next (busWrite s m be (gnsB + 0x308) (v) false)

/-- CHANNEL_NCO_WRITE (R298): a write of CODE (`reg` 0), CARR low (1) or CARR high (2) of a channel. -/
def execChannelNcoWrite (m : Master) (be : BitVec 4) (c : Fin 64) (reg : Fin 3) (v : Word) (s : State) : Result :=
  .next (busWrite s m be (gnsB + 0x2004 + 0x80 * c.val + 4 * reg.val) (v) false)

/-- CHANNEL_SLEW_WRITE (R298): a write of a channel's SLEW. -/
def execChannelSlewWrite (m : Master) (be : BitVec 4) (c : Fin 64) (v : Word) (s : State) : Result :=
  .next (busWrite s m be (gnsB + 0x2010 + 0x80 * c.val) (v) false)

/-- OWNER_WRITE (R301): a write of GNS_CHc_CFG. -/
def execOwnerWrite (m : Master) (be : BitVec 4) (c : Fin 64) (v : Word) (s : State) : Result :=
  .next (busWrite s m be (gnsB + 0x2000 + 0x80 * c.val) (v) false)

/-- SNAPSHOT_GO (R312): a GNS_SNAP_CMD write with GO 1. -/
def execSnapshotGo (m : Master) (be : BitVec 4) (v : Word) (s : State) : Result :=
  .next (busWrite s m be (gnsB + 0x408) (putBits v 0 0 1) false)

/-- SNAPSHOT_RELEASE (R312): a GNS_SNAP_CMD write with REL 1. -/
def execSnapshotRelease (m : Master) (be : BitVec 4) (v : Word) (s : State) : Result :=
  .next (busWrite s m be (gnsB + 0x408) (putBits v 1 1 1) false)

/-- GROTTO_GO (R332): a GNS_GRTj_CMD write with GO 1. -/
def execGrottoGo (m : Master) (be : BitVec 4) (j : Fin 8) (v : Word) (s : State) : Result :=
  .next (busWrite s m be (grtCfg j.val + 0x10) (putBits v 0 0 1) false)

/-- GROTTO_CANCEL (R331): a GNS_GRTj_CMD write with CANCEL 1. -/
def execGrottoCancel (m : Master) (be : BitVec 4) (j : Fin 8) (v : Word) (s : State) : Result :=
  .next (busWrite s m be (grtCfg j.val + 0x10) (putBits v 1 1 1) false)

/-- GNSS_DISABLE (R336): a GNS_BLK_CTRL write with EN 0. -/
def execGnssDisable (m : Master) (be : BitVec 4) (v : Word) (s : State) : Result :=
  .next (busWrite s m be (gnsB + 0x004) (putBits v 0 0 0) false)

/-- PORT_ENABLE (R342 to R345): a MAC_CFG write with EN 1. -/
def execPortEnable (m : Master) (be : BitVec 4) (p : Fin 128) (v : Word) (s : State) : Result :=
  .next (busWrite s m be (macB p.val + 0x040) (putBits v 0 0 1) false)

/-- PORT_DISABLE (R436): a MAC_CFG write with EN 0. -/
def execPortDisable (m : Master) (be : BitVec 4) (p : Fin 128) (v : Word) (s : State) : Result :=
  .next (busWrite s m be (macB p.val + 0x040) (putBits v 0 0 0) false)

/-- EYE_SCAN_GO (R391): a LAN_EYE_CMD write with GO 1. -/
def execEyeScanGo (m : Master) (be : BitVec 4) (l : Fin 128) (v : Word) (s : State) : Result :=
  .next (busWrite s m be (lanB l.val + 0x064) (putBits v 0 0 1) false)

/-- EYE_SCAN_STOP (R392): a LAN_EYE_CMD write with STOP 1. -/
def execEyeScanStop (m : Master) (be : BitVec 4) (l : Fin 128) (v : Word) (s : State) : Result :=
  .next (busWrite s m be (lanB l.val + 0x064) (putBits v 1 1 1) false)

/-- SCHEDULER_ENABLE (R425, R427): a QUE_Pq_SCHED write with EN 1. -/
def execSchedulerEnable (m : Master) (be : BitVec 4) (p : Fin 128) (v : Word) (s : State) : Result :=
  .next (busWrite s m be (queSlot p.val + 4) (putBits v 0 0 1) false)

/-- SCHEDULER_DISABLE (R425): a QUE_Pq_SCHED write with EN 0. -/
def execSchedulerDisable (m : Master) (be : BitVec 4) (p : Fin 128) (v : Word) (s : State) : Result :=
  .next (busWrite s m be (queSlot p.val + 4) (putBits v 0 0 0) false)

/-- TBL_LOCK_SET (R492). -/
def execTblLockSet (m : Master) (be : BitVec 4) (v : Word) (s : State) : Result :=
  .next (busWrite s m be (tblB + 0x064) (v) false)

/-- TBL_LOCK_CLR (R492). -/
def execTblLockClr (m : Master) (be : BitVec 4) (v : Word) (s : State) : Result :=
  .next (busWrite s m be (tblB + 0x068) (v) false)

/-- CUE_CANCEL (R524): a write of CUE_CANCEL. -/
def execCueCancel (m : Master) (be : BitVec 4) (v : Word) (s : State) : Result :=
  .next (busWrite s m be (cueB + 0x054) (v) false)

/-- CELL_EVACUATE (R606): a BST_BLK_CTRL write with EN 0. -/
def execCellEvacuate (m : Master) (be : BitVec 4) (c : Fin 128) (v : Word) (s : State) : Result :=
  .next (busWrite s m be (bstB c.val + 0x004) (putBits v 0 0 0) false)

/-- CELL_RETURN (R606): a BST_BLK_CTRL write with EN 1. -/
def execCellReturn (m : Master) (be : BitVec 4) (c : Fin 128) (v : Word) (s : State) : Result :=
  .next (busWrite s m be (bstB c.val + 0x004) (putBits v 0 0 1) false)

/-- RING_ENABLE (R611, R836): a HIF_RINGn_CFG write with EN 1. -/
def execRingEnable (m : Master) (be : BitVec 4) (n : Fin 256) (v : Word) (s : State) : Result :=
  .next (busWrite s m be (ringCfg n.val) (putBits v 0 0 1) false)

/-- RING_DISABLE (R612): a HIF_RINGn_CFG write with EN 0. -/
def execRingDisable (m : Master) (be : BitVec 4) (n : Fin 256) (v : Word) (s : State) : Result :=
  .next (busWrite s m be (ringCfg n.val) (putBits v 0 0 0) false)

/-- CQ_ENABLE (R623): a HIF_CQc_CFG write with EN 1. -/
def execCqEnable (m : Master) (be : BitVec 4) (n : Fin 256) (v : Word) (s : State) : Result :=
  .next (busWrite s m be (cqCfg n.val) (putBits v 0 0 1) false)

/-- CQ_DISABLE (R613): a HIF_CQc_CFG write with EN 0. -/
def execCqDisable (m : Master) (be : BitVec 4) (n : Fin 256) (v : Word) (s : State) : Result :=
  .next (busWrite s m be (cqCfg n.val) (putBits v 0 0 0) false)

/-- PEND_SET_WRITE (R676). -/
def execPendSetWrite (m : Master) (be : BitVec 4) (w : Fin 16) (v : Word) (s : State) : Result :=
  .next (busWrite s m be (irqB + 0x100 + 8 * w.val) (v) false)

/-- PEND_CLR_WRITE (R674). -/
def execPendClrWrite (m : Master) (be : BitVec 4) (w : Fin 16) (v : Word) (s : State) : Result :=
  .next (busWrite s m be (irqB + 0x104 + 8 * w.val) (v) false)

/-- MASK_SET_WRITE (R674). -/
def execMaskSetWrite (m : Master) (be : BitVec 4) (w : Fin 16) (v : Word) (s : State) : Result :=
  .next (busWrite s m be (irqB + 0x180 + 8 * w.val) (v) false)

/-- MASK_CLR_WRITE (R675). -/
def execMaskClrWrite (m : Master) (be : BitVec 4) (w : Fin 16) (v : Word) (s : State) : Result :=
  .next (busWrite s m be (irqB + 0x184 + 8 * w.val) (v) false)

/-- IRQ_TARGET_WRITE (R678): a write of IRQ_TGTs. -/
def execIrqTargetWrite (m : Master) (be : BitVec 4) (n : Fin 512) (v : Word) (s : State) : Result :=
  .next (busWrite s m be (irqB + 0x1000 + 4 * n.val) (v) false)

/-- IRQ_CLAIM (R681): a read of a claim register: targets 0 to 255 are the vectors, 256 to 259 the management cores. -/
def execIrqClaim (m : Master) (be : BitVec 4) (t : Fin 260) (s : State) : Result :=
  .next (busRead s m be (claimAddr t.val) false)

/-- IRQ_EOI (R682, R683): a write of an EOI register, beside the claim register of its target. -/
def execIrqEoi (m : Master) (be : BitVec 4) (t : Fin 260) (v : Word) (s : State) : Result :=
  .next (busWrite s m be (claimAddr t.val + 4) (v) false)

/-- STACK_CLEAR (R686). -/
def execStackClear (m : Master) (be : BitVec 4) (v : Word) (s : State) : Result :=
  .next (busWrite s m be (irqB + 0x070) (v) false)

/-- WAKE_ENTRY_WRITE (R691): a write of IRQ_WAKEi. -/
def execWakeEntryWrite (m : Master) (be : BitVec 4) (i : Fin 32) (v : Word) (s : State) : Result :=
  .next (busWrite s m be (irqB + 0x280 + 4 * i.val) (v) false)

/-- POWER_REQUEST_P0 (R701 to R705): a PWR_CTRL write with TARGET 0 and KEY `key`. -/
def execPowerRequestP0 (m : Master) (be : BitVec 4) (key : Byte) (s : State) : Result :=
  .next (busWrite s m be (pwrB + 0x048) (w32 (key.toNat * 256 + 0)) false)

/-- POWER_REQUEST_P1 (R701 to R705): a PWR_CTRL write with TARGET 1 and KEY `key`. -/
def execPowerRequestP1 (m : Master) (be : BitVec 4) (key : Byte) (s : State) : Result :=
  .next (busWrite s m be (pwrB + 0x048) (w32 (key.toNat * 256 + 1)) false)

/-- POWER_REQUEST_P2 (R701 to R705): a PWR_CTRL write with TARGET 2 and KEY `key`. -/
def execPowerRequestP2 (m : Master) (be : BitVec 4) (key : Byte) (s : State) : Result :=
  .next (busWrite s m be (pwrB + 0x048) (w32 (key.toNat * 256 + 2)) false)

/-- POWER_REQUEST_P3 (R701 to R705): a PWR_CTRL write with TARGET 3 and KEY `key`. -/
def execPowerRequestP3 (m : Master) (be : BitVec 4) (key : Byte) (s : State) : Result :=
  .next (busWrite s m be (pwrB + 0x048) (w32 (key.toNat * 256 + 3)) false)

/-- ALARM_SET (R727): a write of PWR_ALARM_SEC_LO, or with `high` of PWR_ALARM_SEC_HI. -/
def execAlarmSet (m : Master) (be : BitVec 4) (high : Bool) (v : Word) (s : State) : Result :=
  .next (busWrite s m be (if high then pwrB + 0x094 else pwrB + 0x090) (v) false)

/-- TRUNK_WAKE_SEND (R730): a PWR_TRK_WAKE write with GO 1. -/
def execTrunkWakeSend (m : Master) (be : BitVec 4) (v : Word) (s : State) : Result :=
  .next (busWrite s m be (pwrB + 0x098) (putBits v 31 31 1) false)

/-- NVM_WINDOW_WRITE (R743): a write at offset `o` of the NVM window. -/
def execNvmWindowWrite (m : Master) (be : BitVec 4) (o : BitVec 15) (v : Word) (s : State) : Result :=
  .next (busWrite s m be (nvmB + 0x8000 + o.toNat / 4 * 4) (v) false)

/-- HISTOGRAM_ENABLE (R754): a write with EN 1 of the CFG of unit `u` of the chip monitors or of a Pavilion. -/
def execHistogramEnable (m : Master) (be : BitVec 4) (pav : Option (Fin 8)) (u : Fin 8) (v : Word) (s : State) : Result :=
  .next (busWrite s m be (histReg (pav.map Fin.val) (histUnit pav u)) (putBits v 0 0 1) false)

/-- HISTOGRAM_DISABLE (R756): such a write with EN 0. -/
def execHistogramDisable (m : Master) (be : BitVec 4) (pav : Option (Fin 8)) (u : Fin 8) (v : Word) (s : State) : Result :=
  .next (busWrite s m be (histReg (pav.map Fin.val) (histUnit pav u)) (putBits v 0 0 0) false)

end Sys2Proof.Machine
end

