-- ==== Sys2Proof/Machine/CueChk.lean ====
section
/-!
DEFINITION. CueChk.lean: the validation of a cue (10_cue_transactions.md R505 to R515, R532, R535, R548, R549) and what applies its actions
(R507 to R509, R516 to R523, R526 to R528).
-/
namespace Sys2Proof.Machine

/-- The dwords of an image of bytes. -/
def wordsOf (bs : List Byte) : List Word := (List.range ((bs.length + 3) / 4)).map fun i => w32 (imgDw bs i)

/-- Fields of an action (R506). -/
def actType (d : List Word) : Nat := bits (dwAt d 0) 31 28
/-- See `actType`. -/
def actUnits (d : List Word) : Nat := bits (dwAt d 0) 27 26
/-- See `actType`. -/
def actSafe (d : List Word) : Bool := bit (dwAt d 0) 25
/-- See `actType`. -/
def actAll (d : List Word) : Bool := bit (dwAt d 0) 24
/-- See `actType`. -/
def actNode (d : List Word) : Nat := bits (dwAt d 0) 23 12
/-- The table and the operation of a TABLE action, and its entry's dwords. -/
def actTable (d : List Word) : Nat := bits (dwAt d 1) 31 30
/-- See `actTable`. -/
def actOp (d : List Word) : Nat := bits (dwAt d 1) 29 28
/-- See `actTable`. -/
def actEntry (d : List Word) : List Word := (List.range (entryDws (actTable d))).map fun i => dwAt d (8 + i)

/-- Does an action apply at this node: ALL 1, or its own NODE (R541)? -/
def actMine (s : State) (d : List Word) : Bool := actAll d || (s.flag (chpB + 0x050) 31 && actNode d == ownNode s)

/-- The actions of an image, each as its dwords: `n` of them, each as long as its UNITS says. -/
def walkActs : Nat → List Word → List (List Word)
  | 0, _ => []
  | n + 1, l => (List.range (8 * max 1 (bits (dwAt l 0) 27 26))).map (dwAt l) :: walkActs n (l.drop (8 * bits (dwAt l 0) 27 26))

/-- The COUNT of an image. -/
def imageCount (w : List Word) : Nat := bits (dwAt w 0) 15 0
/-- The actions of an image. -/
def imageActs (w : List Word) : List (List Word) := walkActs (min 4096 (imageCount w)) (w.drop 16)

/-- Are dwords `a` to `b` - 1 zero? -/
def zeroDws (d : List Word) (a b : Nat) : Bool := (List.range (b - a)).all fun i => dwAt d (a + i) == 0

/-- Is an action well encoded in a cue of `kind` with `count` actions (R504, R506, R513, R532, R549)? -/
def actEncoded (kind count : Nat) (d : List Word) : Bool :=
  let a := dwAt d 1
  let t := actTable d
  bits (dwAt d 0) 11 0 == 0 && !(actAll d && actNode d != 0) && (kind != 0 || actAll d) && (!actSafe d || actType d == 1 || actType d == 3) &&
  (actUnits d == if actType d = 2 then (if t = 1 then 3 else 2) else 1) &&
  match actType d with
  | 1 => bits a 31 25 == 0 && bits a 1 0 == 0 && zeroDws d 4 8
  | 2 => t != 3 && actOp d != 0 && ((actOp d == 1) == (t == 2)) && (actOp d == 1 || bits a 15 0 == 0) && bits a 27 16 == 0 && zeroDws d 2 8 &&
      (t != 0 || zeroDws d 12 16)
  | 3 => bits a 5 0 == 0 && bits a 7 6 != 3 && bits (dwAt d 3) 31 20 == 0 && zeroDws d 4 8
  | 4 =>
    let p := bits (dwAt d 2) 15 8
    bits (dwAt d 2) 31 16 == 0 && bits (dwAt d 2) 7 3 == 0 && zeroDws d 4 8 && bits a 31 16 != bits a 15 0 && p != 128 && !reservedPort p
  | 5 => bits a 31 4 == 0 && zeroDws d 2 8 && kind == 1 && count == 1
  | _ => false

/-- What a REG action writes to its register (R507): the merged value, or VALUE AND MASK at a SET or CLR address. -/
def regValue (s : State) (x : Reg) (d : List Word) : Word :=
  match x.row.cls with
  | .set | .clr => dwAt d 2 &&& dwAt d 3
  | _ => mergeMask (s.rd x.home) (dwAt d 2) (dwAt d 3)

/-- The register that a REG action names: cue-marked, at its own offset (R513). -/
def regTarget (d : List Word) : Option Reg :=
  match regOf (dwAt d 1).toNat with
  | some x => if x.row.cue && x.addr == (dwAt d 1).toNat then some x else none
  | none => none

/-- The port of a class-S register. -/
def schedPort (x : Reg) : Option Nat := if x.row.own = .portSched then some (16 * x.b.r + x.i) else none

/-- Does port `p`'s scheduler meet R427, or need not, being disabled? -/
def schedOk (s : State) (p : Nat) : Bool := !s.flag (queSlot p + 0x004) 0 || schedMayStart s p

/-- The register content after a REG action, with nothing beyond the store: how the actions before one are taken into account (R513). -/
def regStored (s : State) (d : List Word) : State :=
  match regTarget d with
  | some x => if dwAt d 3 = 0 then s else s.wr x.home (newWord x (s.rd x.home) (regValue s x d))
  | none => s

/-- The staging check of a REG action (R513): `s` has the cue's earlier actions applied. -/
def regCheck (s : State) (d : List Word) : Nat :=
  match regTarget d with
  | none => 0x06
  | some x =>
    let v := regValue s x d
    if dwAt d 3 = 0 then 0
    else if lockBad s .cue x v then 0x02
    else if valueIllegal s .cue x v then 0x01
    else if valueRange s .cue x v then 0x06
    else match schedPort x with
      | some p => if schedOk (regStored s d) p then 0 else 0x06
      | none => 0

/-- A DELETE's key, as an entry whose other fields pass every check. -/
def keyEntry (t : Nat) (e : List Word) : List Word :=
  let st := t == 1
  let k := keyOf st e ++ List.replicate (entryDws t) 0
  setDw k (vdw st) (dwAt k (vdw st) ||| bitW 31 true ||| bitW 30 true)

/-- The staging check of a TABLE action (R461, R513). -/
def tableCheck (d : List Word) : Nat :=
  let t := actTable d
  let e := actEntry d
  match actOp d with
  | 1 => checkEntry 2 e
  | 2 => if !bit (dwAt e (vdw (t == 1))) 31 then 0x01 else checkEntry t e
  | _ => if checkEntry t (keyEntry t e) = 0 then 0 else 0x01

/-- The staging check of a PARAM action (R513, R578). -/
def paramActCheck (s : State) (d : List Word) : Nat :=
  match jobOf s (bits (dwAt d 1) 31 16) with
  | none => 0x06
  | some j => paramCheck j (bits (dwAt d 1) 15 8) (dwAt d 2)

/-- The staging check of a CSW action (R532). -/
def cswCheck (s : State) (d : List Word) : Nat :=
  if bits (dwAt d 2) 15 8 = 255 ∨ (groupAt s (bits (dwAt d 1) 31 16)).isNone ∨ (groupAt s (bits (dwAt d 1) 15 0)).isNone ∨
    framePeriod (bits (dwAt d 2) 2 0) ≤ (dwAt d 3).toNat * tuPerNs then 0x06 else 0

/-- Do two actions of one cue meet as R513 forbids: two TABLE actions on one key or group, two CSW actions on one port, a group WRITE and a CSW
naming the same group? -/
def actsMeet (a b : List Word) : Bool :=
  let st := actTable a == 1
  if actType a = 2 ∧ actType b = 2 then
    actTable a == actTable b &&
      if actTable a = 2 then bits (dwAt a 1) 15 0 == bits (dwAt b 1) 15 0 else keyOf st (actEntry a) == keyOf st (actEntry b)
  else if actType a = 4 ∧ actType b = 4 then bits (dwAt a 2) 15 8 == bits (dwAt b 2) 15 8
  else if actType a = 2 ∧ actType b = 4 then actTable a == 2 && (bits (dwAt a 1) 15 0 == bits (dwAt b 1) 15 0 || bits (dwAt a 1) 15 0 == bits (dwAt b 1) 31 16)
  else if actType a = 4 ∧ actType b = 2 then actTable b == 2 && (bits (dwAt b 1) 15 0 == bits (dwAt a 1) 15 0 || bits (dwAt b 1) 15 0 == bits (dwAt a 1) 31 16)
  else false

/-- The check of one action that this node applies; `z` is the present state with the earlier actions applied. -/
def actCheck (z : State) (d : List Word) : Nat :=
  match actType d with
  | 1 => regCheck z d
  | 2 => tableCheck d
  | 3 => paramActCheck z d
  | 4 => cswCheck z d
  | 5 => if cueMin z ≤ bits (dwAt d 1) 3 0 ∧ bits (dwAt d 1) 3 0 ≤ cueMax z then 0 else 0x08
  | _ => 0x01

/-- The actions in image order: the first failing action's code. `z` and `zs` are the present state with the earlier actions and the earlier safe
actions applied; `before` this node's earlier actions. `foreign` says that the actions of other nodes are checked for their encoding. -/
def checkActs (kind count : Nat) (foreign : Bool) : List (List Word) → State → State → List (List Word) → Nat
  | [], _, _, _ => 0
  | d :: t, z, zs, before =>
    if !actMine z d then
      if foreign && (!actEncoded kind count d || (actType d == 3 && !f32Finite (dwAt d 2))) then 0x01 else checkActs kind count foreign t z zs before
    else if !actEncoded kind count d then 0x01
    else
      let y := if actSafe d then zs else z
      if actCheck y d ≠ 0 then actCheck y d
      else if before.any (actsMeet d) then 0x01
      else if actSafe d then checkActs kind count foreign t z (if actType d = 1 then regStored zs d else zs) (before ++ [d])
      else checkActs kind count foreign t (if actType d = 1 then regStored z d else z) zs (before ++ [d])

/-- Row 3 of R511, R505, R535: E_ILLEGAL, or E_RANGE of T (R175). `root` says that the image was submitted here. -/
def headerCode (s : State) (w : List Word) (root : Bool) : Nat :=
  let kind := bits (dwAt w 0) 27 26
  let lead := (dwAt w 3).toNat
  if 1 < kind ∨ bits (dwAt w 0) 25 19 ≠ 0 ∨ bits (dwAt w 0) 18 16 = 7 ∨ bits (dwAt w 1) 31 16 ≠ 0 ∨ (kind = 0 ∧ lead ≠ 0) ∨
    (kind = 1 ∧ (lead < 2000 ∨ 4000000 < lead)) ∨ bits (dwAt w 7) 31 16 ≠ 0 ∨ !zeroDws w 8 16 ∨ (kind = 1 ∧ root ∧ !isRoot s) then 0x01
  else if (ftTime (dwAt w 4) (dwAt w 5) (dwAt w 6)).isNone then 0x06
  else 0

/-- The T of an image. -/
def imageT (w : List Word) : Nat := (ftTime (dwAt w 4) (dwAt w 5) (dwAt w 6)).getD 0

/-- This node's actions of an image. -/
def mineActs (s : State) (w : List Word) : List (List Word) := (imageActs w).filter (actMine s)

/-- Does a TABLE action need a held slot (R494)? -/
def needsSlot (d : List Word) : Bool := actType d == 2 && actOp d == 2

/-- The actions with a table slot held for each that needs one, for the cue in slot `k` (R494); the second part says whether every one was found. -/
def holdActs (k : Nat) : List (List Word) → State → List Act → State × List Act × Bool
  | [], s, acc => (s, acc, true)
  | d :: t, s, acc =>
    if needsSlot d then
      match holdSlot s (actTable d == 1) (keyOf (actTable d == 1) (actEntry d)) k with
      | some (s1, p) => holdActs k t s1 (acc ++ [{ dws := d, held := some p }])
      | none => (tblEvent s (if actTable d = 1 then 2 else 1), acc, false)
    else holdActs k t s (acc ++ [{ dws := d }])

/-- Clean switches of the actions listed. -/
def cswCount (l : List (List Word)) : Nat := (l.filter fun d => actType d == 4).length

/-- The fixed resources of row 5 of R511: actions (R512) and clean switches (R533). -/
def roomFor (s : State) (l : List (List Word)) : Bool :=
  decide (stagedActs s + l.length ≤ 65536) && decide (s.cue.csws.length + cswCount l ≤ 256)

/-- Rows 1 to 4 of R511. -/
def imageCode (s : State) (w : List Word) (len : Nat) (root : Bool) : Nat :=
  let acts := imageActs w
  let units := acts.foldl (fun a d => a + actUnits d) 0
  let kind := bits (dwAt w 0) 27 26
  if bits (dwAt w 0) 31 28 = 0 ∨ opv s < bits (dwAt w 0) 31 28 then 0x08
  else if imageCount w = 0 ∨ 4096 < imageCount w ∨ bits (dwAt w 1) 15 0 ≠ units ∨ len ≠ 64 + 32 * units then 0x05
  else if headerCode s w root ≠ 0 then headerCode s w root
  else checkActs kind (imageCount w) root acts s s []

/-- Row 6 of R511: T, and for a fabric cue T - ARM_LEAD, after node time. -/
def timeCode (s : State) (w : List Word) : Nat :=
  let lead := if bits (dwAt w 0) 27 26 = 1 then (dwAt w 3).toNat * 1000 * tuPerNs else 0
  if imageT w ≤ nodeTime s + lead then 0x0F else 0

/-- The clean switches of a cue staged in slot `k`. -/
def stageCsws (s : State) (k : Nat) (l : List (List Word)) : State :=
  forEach (l.filter fun d => actType d == 4) s fun d t =>
    let x : Csw :=
      { src := bits (dwAt d 1) 31 16, dst := bits (dwAt d 1) 15 0, port := bits (dwAt d 2) 15 8, rate := bits (dwAt d 2) 2 0,
        ofs := (dwAt d 3).toNat, slot := some k }
    { t with cue := { t.cue with csws := t.cue.csws ++ [x] } }

/-- An accepted cue takes slot `k`, in state `st` of the slot (R514). -/
def stageCue (s : State) (k : Nat) (c : Cue) (st : Nat) : State :=
  let a := slotReg k
  let c1 := { c with order := s.cue.order }
  let s1 := stageCsws { setCue s k c1 with cue := { (setCue s k c1).cue with order := s.cue.order + 1 } } k (c.acts.map (·.dws))
  (((s1.wr a ((s.rd a &&& 0xFF000000) ||| fieldW 23 20 st ||| fieldW 19 18 c.kind ||| fieldW 12 0 c.acts.length)).wr (a + 4) c.tag).wr (a + 8)
    (w32 (c.t % tuPerSec / tuPerNs))).wr (a + 12) (w32 (c.t / tuPerSec))

/-- The validation of an image for slot `k` (R511), root or member: the state with its table slots held and this node's actions, or the code. -/
def validate (s : State) (w : List Word) (len : Nat) (k : Option Nat) (root : Bool) : State × List Act × Nat :=
  let c := imageCode s w len root
  if c ≠ 0 then (s, [], c)
  else
    match k with
    | none => (s, [], 0x07)
    | some k =>
      let l := mineActs s w
      if !roomFor s l then (s, [], 0x07)
      else
        let h := holdActs k l s []
        if !h.2.2 then (releaseHeld h.1 k, [], 0x07)
        else if timeCode s w ≠ 0 then (releaseHeld h.1 k, [], timeCode s w)
        else (h.1, h.2.1, 0)

/-- The first cycle start of port `p` at or after node time `t` (R420, R527). -/
def cycleStartFrom (s : State) (p t : Nat) : Nat :=
  let c := cycleTu s p
  let ph := (s.rd (queSlot p + 0x010)).toNat * tuPerNs
  if c = 0 then t else if t ≤ ph then ph - (ph - t) / c * c else ph + (t - ph + c - 1) / c * c

/-- A REG action is applied (R507): a class-S change of an ACTIVE scheduler waits for B (R526, R527). -/
def applyReg (s : State) (d : List Word) : State :=
  match regTarget d with
  | none => s
  | some x =>
    if dwAt d 3 = 0 then s
    else
      match schedPort x with
      | some p =>
        if schedActive s p then
          { s with cue := { s.cue with changes := s.cue.changes ++ [⟨p, cycleStartFrom s p (nodeTime s), [(x.addr, dwAt d 2, dwAt d 3)]⟩] } }
        else storeWrite s .cue x (regValue s x d)
      | none => storeWrite s .cue x (regValue s x d)

/-- A TABLE action is applied (R509): its held slot is released first, and takes the entry where the key is absent. -/
def applyTable (s : State) (a : Act) : State :=
  let d := a.dws
  let t := actTable d
  let st := t == 1
  let e := actEntry d
  let s1 := match a.held with
    | some p => { s with tbl := { s.tbl with held := AMap.del s.tbl.held p } }
    | none => s
  let s2 := match actOp d with
    | 1 => putGroup s1 (bits (dwAt d 1) 15 0) e
    | 2 =>
      let s3 := if st then s1 else endFreeze s1 (eVid false e) (eMac e)
      match findKey s1 st (keyOf st e), a.held with
      | some p, _ => putEntry s3 p (withAge st e (tblNow s))
      | none, some p => putEntry s3 p (withAge st e (tblNow s))
      | none, none => s3
    | _ => (deleteEntry s1 st (keyOf st e)).1
  engineCommits s2 5 1

/-- A PARAM action is applied: from the first sample at or after the commit tick (R508, R518). -/
def applyParam (s : State) (d : List Word) : State :=
  let h := bits (dwAt d 1) 31 16
  match jobOf s h with
  | none => s
  | some j =>
    let k := changeParam s j (bits (dwAt d 1) 15 8) (indexFrom (nodeTime s) j.rate) (bits (dwAt d 3) 19 0) (bits (dwAt d 1) 7 6) (dwAt d 2) true
    judgeLoads (setJob s h k)

/-- A CSW action of slot `k` is applied: its switch waits for S (R529). -/
def applyCsw (s : State) (k : Nat) (d : List Word) : State :=
  let arm (x : Csw) : Csw :=
    if x.slot = some k ∧ x.port = bits (dwAt d 2) 15 8 then { x with slot := none, point := nextFrameAt x.rate (nodeTime s) + x.ofs * tuPerNs } else x
  { s with cue := { s.cue with csws := s.cue.csws.map arm } }

/-- One action of the cue in slot `k` is applied; it counts as performance event 0x09 (R764). -/
def applyAct (s : State) (k : Nat) (a : Act) : State :=
  let s1 := match actType a.dws with
    | 1 => applyReg s a.dws
    | 2 => applyTable s a
    | 3 => applyParam s a.dws
    | 4 => applyCsw s k a.dws
    | _ => s.setFld (cueB + 0x048) 3 0 (bits (dwAt a.dws 1) 3 0)
  perfCount s1 none { ev := 0x09, master := some 5 } 1

/-- Is the block of an action's target isolated, or its job gone, or left without a cell by an isolation (R521)? -/
def targetGone (s : State) (d : List Word) : Bool :=
  match actType d with
  | 1 => (match regTarget d with
    | some x => isolatedBad s x
    | none => true)
  | 2 | 4 => s.flag (tblB + 0x004) 3
  | 3 => (match jobOf s (bits (dwAt d 1) 31 16) with
    | some j => j.homeless
    | none => true)
  | _ => false

/-- Has an action's register been locked since staging (R521)? -/
def lockedSince (s : State) (d : List Word) : Bool :=
  match regTarget d with
  | some x => actType d == 1 && lockBad s .cue x (regValue s x d)
  | none => false

/-- What its own chapter says of the merged value of a REG action now (R521). -/
def chapterRefusal (s : State) (d : List Word) : Nat :=
  match regTarget d with
  | some x =>
    if actType d ≠ 1 ∨ dwAt d 3 = 0 then 0
    else
      let v := regValue s x d
      if valueIllegal s .cue x v then 0x01 else if valueRange s .cue x v then 0x06 else chapterOwn s .cue x v
  | none => 0

/-- The first refusal among REG actions, each judged with the earlier ones applied (R521). -/
def refusals : List (List Word) → State → Nat
  | [], _ => 0
  | d :: t, s => if chapterRefusal s d ≠ 0 then chapterRefusal s d else refusals t (if actType d = 1 then applyReg s d else s)

/-- The ports whose class-S state actions change. -/
def schedPorts (l : List (List Word)) : List Nat :=
  (l.filter fun d => actType d == 1).filterMap fun d => (regTarget d).bind schedPort

/-- Does the class-S state that results from the actions fail R427? -/
def schedFails (s : State) (l : List (List Word)) : Bool :=
  let z := forEach (l.filter fun d => actType d == 1) s fun d t => regStored t d
  (schedPorts l).any fun p => !schedOk z p

/-- The conditions of the commit tick (R521), in the order of the table; 0 where all hold. -/
def commitCode (s : State) (c : Cue) : Nat :=
  let acts := c.acts.filter fun a => !actSafe a.dws
  let l := acts.map (·.dws)
  if c.qcMax < qcHeld s 2 then 0x0D
  else if l.any (lockedSince s) then 0x02
  else if schedFails s l then 0x06
  else if acts.any (·.bad) then 0x13
  else if l.any (targetGone s) then 0x07
  else refusals l s

/-- Why a safe action is skipped (R523): the conditions of R521 that concern one action. -/
def safeFails (s : State) (a : Act) : Bool :=
  lockedSince s a.dws || schedFails s [a.dws] || a.bad || targetGone s a.dws || chapterRefusal s a.dws != 0

/-- A safe action of slot `k` takes effect or is skipped (R523); the flag says whether any took effect. -/
def safeAct (k : Nat) (x : State × Bool) (a : Act) : State × Bool :=
  if safeFails x.1 a then (x.1.count (cueB + 0x110), x.2) else (applyAct x.1 k a, true)

/-- A cue's safe actions take effect (R522, R523); those that fail are counted in CUE_SAFE_SKIP. -/
def applySafe (s : State) (k : Nat) (c : Cue) : State :=
  let r := (c.acts.filter fun a => actSafe a.dws).foldl (safeAct k) (s, false)
  if r.2 then cueEvent r.1 3 else r.1

/-- The commit of the cue in slot `k` (R516 to R522). -/
def commitCue (s : State) (k : Nat) (c : Cue) : State :=
  let code := commitCode s c
  if code = 0 then
    endPart (forEach (c.acts.filter fun a => !actSafe a.dws) s fun a t => applyAct t k a) k c 0 0 true
  else endPart (applySafe s k c) k c 0x0F code true

/-- Put a staged cue in its place in staging order. -/
def insertOrder (e : Nat × Cue) : List (Nat × Cue) → List (Nat × Cue)
  | [] => [e]
  | f :: t => if e.2.order < f.2.order then e :: f :: t else f :: insertOrder e t
/-- Cues in staging order (R519). -/
def byOrder (l : List (Nat × Cue)) : List (Nat × Cue) := l.foldl (fun a e => insertOrder e a) []

/-- Sleep and a chip-level fatal fault end every staged cue (R525, R780): local ones with E_ABORTED, fabric ones with E_MISSED and REASON
E_ABORTED. The safe actions of fabric cues take effect; on a fatal fault (`all`) those of local cues too. -/
def endAllCues (s : State) (all : Bool) : State :=
  forEach ((byOrder (stagedCues s)).map (·.1)) s fun k t =>
    match cueOf t k with
    | none => t
    | some c =>
      let t1 := if c.kind = 1 ∨ all then applySafe t k c else t
      if c.kind = 1 then endPart t1 k c 0x0F 0x0A false else endPart t1 k c 0x0A 0 false

end Sys2Proof.Machine
end

