-- ==== Sys2Proof/Machine/Cue.lean ====
section
/-!
DEFINITION. Cue.lean: the commands of the cue engine, one meaning per row of the table (10_cue_transactions.md; R644 to R647, R744, R745).
-/
namespace Sys2Proof.Machine

/-- Step 1 of R645. -/
def cueDescIllegal (d : List Word) : Bool :=
  bits (dwAt d 0) 2 0 != 0 || bits (dwAt d 3) 30 16 != 0 || !zeroDws d 4 8 ||
    (if bit (dwAt d 3) 31 then !zeroDws d 0 3 else bits (dwAt d 3) 15 0 != 0)

/-- The stored-cue area of the NVM (R742). -/
def cueArea : Nat := 0x180000

/-- The image of stored record `k`, or the code of R745. -/
def storedCue (s : State) (k : Nat) : List Byte × Nat :=
  let a := cueArea + 16 * k
  let ofs := bits (nvmWord s a) 21 0
  let len := (nvmWord s (a + 4)).toNat
  if 255 < k ∨ !bit (nvmWord s a) 31 ∨ 0x280000 < ofs + len then ([], 0x06)
  else
    let img := nvmBytes s (cueArea + ofs) len
    if crc32 img = (nvmWord s (a + 12)).toNat then (img, 0) else ([], 0x01)

/-- The image that a cue descriptor names and the code of R645's steps 1 to 4; `img` is what lies at ADDR in host memory. -/
def descImage (s : State) (d : List Word) (img : List Byte) : List Byte × Nat :=
  if cueDescIllegal d then ([], 0x01)
  else if bit (dwAt d 3) 31 then storedCue s (bits (dwAt d 3) 15 0)
  else if 393280 < (dwAt d 2).toNat then ([], 0x05)
  else ((List.range (dwAt d 2).toNat).map fun i => img.getD i 0, 0)

/-- CUE_SUBMIT (R510, R645): ring `n`'s next descriptor is taken, its image read; the lowest free slot reads VALIDATING. -/
def execCueSubmit (n : Fin 256) (d : List Word) (img : List Byte) (s : State) : Result :=
  if !canTake s n 4 then .next s
  else
    let x := takeDesc s n
    let r := descImage s d img
    let slot := if r.2 = 0 then freeSlot s else none
    let s1 := match slot with
      | some k => setSlotState x.1 k 1
      | none => x.1
    .next { s1 with cue := { s1.cue with waiting := s1.cue.waiting ++ [⟨n.val, x.2, r.2, wordsOf r.1, r.1.length, slot⟩] } }

/-- The members of a fabric cue, each with nothing heard (R536). -/
def newAnswers (s : State) : AMap Answer := (presentNodes s).foldl (fun m x => AMap.set m x {}) [(ownNode s, {})]

/-- The fragments of an image (R538). -/
def fragsOf (img : List Byte) : List (List Byte) :=
  (List.range ((img.length + 8191) / 8192)).map fun i => (img.drop (8192 * i)).take 8192

/-- The root sends PREPARE on every UP trunk port (R538, R541). -/
def sendPrepare (s : State) (c : Cue) : State :=
  let fs := fragsOf (c.image.flatMap bytesOfWord)
  forEach (fs.zip (List.range fs.length)) s fun f t =>
    floodMsg t none (cueMsg t 1 c.format (ownNode t) c.fid 0 f.2 fs.length 0 c.ft f.1)

/-- A fabric cue is accepted at its root (R541, R542, R546): a new answer table, PREPARE, and the root's own READY with the QC check of R541. -/
def rootStart (s : State) (k : Nat) (c : Cue) : State :=
  let s1 := (((showAnswers (s.wr (cueB + 0x060) (w32 c.fid)) c).wr (cueB + 0x064) 0).wr (cueB + 0x068) 0)
  recordReady (sendPrepare s1 c) k c (ownNode s) (if qcHeld s 2 ≤ c.qcMax then 0 else 0x0D)

/-- The end of the validation of `x` (R510, R511, R514, R646). -/
def endValidation (s : State) (x : Waiting) : State :=
  let slot := match x.slot with
    | some k => some k
    | none => if x.code = 0 then freeSlot s else none
  let r := if x.code ≠ 0 then (s, [], x.code) else validate s x.image x.len slot true
  match slot, r.2.2 with
  | some k, 0 =>
    let fab := bits (dwAt x.image 0) 27 26 = 1
    let c : Cue := { image := x.image, acts := r.2.1, t := imageT x.image, ring := some (x.ring, x.desc), own := decide fab,
                     root := if fab then ownNode s else 0, fid := if fab then (s.cue.fid + 1) % 2 ^ 32 else 0,
                     answers := if fab then newAnswers s else [] }
    let s1 := stageCue r.1 k c (if fab then 3 else 2)
    let s2 := complete s1 x.ring { status := 0, desc := x.desc, info := bitW 31 true ||| fieldW 5 0 k }
    if fab then
      match cueOf s2 k with
      | some c1 => rootStart { s2 with cue := { s2.cue with fid := c1.fid } } k c1
      | none => s2
    else s2
  | slot, code =>
    let s1 := match slot with
      | some k => if x.slot.isSome then r.1.wr (slotReg k) (fieldW 31 24 code) else r.1
      | none => r.1
    complete (s1.count (cueB + 0x108)) x.ring { status := code, desc := x.desc, info := 0 }

/-- CUE_VALIDATED (R511): the validation of the descriptor taken from ring `n` ends. -/
def execCueValidated (n : Fin 256) (s : State) : Result :=
  match s.cue.waiting.find? fun x => x.ring == n.val with
  | some x => .next (endValidation { s with cue := { s.cue with waiting := s.cue.waiting.filter (· ≠ x) } } x)
  | none => .next s

/-- Will the cue apply at T: local, or armed (R516, R544)? -/
def willCommit (e : Nat × Cue) : Bool := e.2.kind == 0 || e.2.armed

/-- CUE_COMMITTING (R524): from 1 microsecond before T the slots of cues that are to commit read COMMITTING. -/
def execCueCommitting (s : State) : Result :=
  .next (forEach ((stagedCues s).filter fun e => willCommit e && decide (e.2.t ≤ nodeTime s + 1000 * tuPerNs)) s fun e t => setSlotState t e.1 5)

/-- CUE_COMMIT (R516 to R523): the first in staging order of the cues whose T node time has reached. -/
def execCueCommit (s : State) : Result :=
  match byOrder ((stagedCues s).filter fun e => willCommit e && decide (e.2.t ≤ nodeTime s)) with
  | [] => .next s
  | e :: _ => .next (commitCue s e.1 e.2)

/-- One write of a class-S change takes effect. -/
def schedWrite (s : State) (w : Nat × Word × Word) : State :=
  match regOf w.1 with
  | some x => storeWrite s .cue x (mergeMask (s.rd x.home) w.2.1 w.2.2)
  | none => s

/-- SCHEDULE_CHANGE_AT_B (R527): the changes to port `p` whose B has come; the new list's last entry stays in force until the new schedule's first
cycle start. -/
def execScheduleChangeAtB (p : Fin 128) (s : State) : Result :=
  let now := s.cue.changes.filter fun x => x.port == p.val && decide (x.due ≤ nodeTime s)
  match now with
  | [] => .next s
  | x :: _ =>
    let s1 := { s with cue := { s.cue with changes := s.cue.changes.filter fun y => !now.contains y } }
    let s2 := forEach (now.flatMap (·.writes)) s1 fun w t => schedWrite t w
    .next (showGate (setPortSw s2 p { portSw s2 p with lastUntil := cycleStartFrom s2 p x.due }) p)

/-- CLEAN_SWITCH_POINT (R529): S has come for the committed switches whose point node time has reached. -/
def execCleanSwitchPoint (s : State) : Result :=
  let mark (x : Csw) : Csw := if x.live ∧ x.point ≤ nodeTime s then { x with reached := true } else x
  .next { s with cue := { s.cue with csws := s.cue.csws.map mark } }

/-- A switch's sides that have not switched two frame periods after S switch now (R531). -/
def forceSwitch (s : State) (x : Csw) : State :=
  let n := (if x.offDone then 0 else 1) + (if x.onDone then 0 else 1)
  cueEvent ((switchSides s x true true).count (cueB + 0x114) n) 6

/-- CSW_FORCED (R531). -/
def execCswForced (s : State) : Result :=
  .next (forEach (s.cue.csws.filter fun x => x.live && decide (x.point + 2 * framePeriod x.rate ≤ nodeTime s)) s fun x t => forceSwitch t x)

/-- PRESENCE_SEND (R536): every node but the root, while its upstream port is UP, once per second. -/
def execPresenceSend (s : State) : Result :=
  match upPort s with
  | some p =>
    if isRoot s ∨ !trunkUp s p ∨ s.elapsed < s.cue.presentAt then .next s
    else .next (sendOn (flushOutbox { s with cue := { s.cue with presentAt := s.elapsed + tuPerSec } }) p (cueFrame (cueMsg s 6 0 (bits (trkRootView s) 11 0) 0 0 0 1 0 [] [])))
  | none => .next s

/-- Fields of a message: MTYPE, ROOT_NODE, SENDER, STATUS, FCUE_ID, REASON. -/
def CueMsg.mtype (m : CueMsg) : Nat := bits (dwAt m.hdr 0) 31 28
/-- See `CueMsg.mtype`. -/
def CueMsg.root (m : CueMsg) : Nat := bits (dwAt m.hdr 1) 31 20
/-- See `CueMsg.mtype`. -/
def CueMsg.sender (m : CueMsg) : Nat := bits (dwAt m.hdr 1) 19 8
/-- See `CueMsg.mtype`. -/
def CueMsg.status (m : CueMsg) : Nat := bits (dwAt m.hdr 1) 7 0
/-- See `CueMsg.mtype`. -/
def CueMsg.fid (m : CueMsg) : Nat := (dwAt m.hdr 2).toNat
/-- See `CueMsg.mtype`. -/
def CueMsg.reason (m : CueMsg) : Nat := bits (dwAt m.hdr 8) 7 0
/-- See `CueMsg.mtype`. -/
def CueMsg.opv (m : CueMsg) : Nat := bits (dwAt m.hdr 0) 23 20

/-- The slot of a fabric cue rooted here that a message names. -/
def rootedSlot (s : State) (m : CueMsg) : Option (Nat × Cue) := s.cue.cues.find? fun e => e.2.own && e.2.fid == m.fid

/-- Is the message one of this node's own, or one that has passed before (R539)? -/
def passedBefore (s : State) (m : CueMsg) : Bool := isRoot s || s.cue.seen.contains (msgKey m)

/-- A PRESENCE arrives (R536, R539, R550). -/
def takePresence (s : State) (m : CueMsg) : State :=
  if !isRoot s then
    match upPort s with
    | some p => if trunkUp s p then sendOn s p (cueFrame m) else s
    | none => s
  else
    let mn := bits (dwAt m.hdr 0) 19 16
    let mx := bits (dwAt m.hdr 0) 15 12
    let s1 := { s with cue := { s.cue with nodes := AMap.set s.cue.nodes m.sender ⟨s.elapsed, mn, mx⟩ } }
    if opv s < mn ∨ mx < opv s then cueEvent s1 5 else s1

/-- Every fragment of a PREPARE has come: the node validates and stages its part, and sends READY (R541, R550). -/
def stagePrepare (s : State) (m : CueMsg) (img : List Byte) : State :=
  let w := wordsOf img
  let slot := freeSlot s
  let r := if m.opv < cueMin s ∨ cueMax s < m.opv then (s, [], 0x08) else validate s w img.length slot false
  let ready (t : State) (code : Nat) : State := sendUp t (cueMsg t 2 (bits (dwAt m.hdr 0) 27 24) m.root m.fid code 0 1 0 ((List.range 4).map fun i => dwAt m.hdr (4 + i)) [])
  match slot, r.2.2 with
  | some k, 0 =>
    if bits (dwAt w 0) 18 16 < qcHeld s 2 then ready ((releaseHeld r.1 k).count (cueB + 0x108)) 0x0D
    else ready (stageCue r.1 k { image := w, acts := r.2.1, t := imageT w, root := m.root, fid := m.fid } 3) 0
  | _, code => ready (r.1.count (cueB + 0x108)) code

/-- The gathering of the PREPARE that a fragment belongs to, with the fragment in it. -/
def gathered (s : State) (m : CueMsg) : Gather :=
  let old := match s.cue.gathers.find? fun g => g.root == m.root && g.fid == m.fid with
    | some g => g
    | none => { root := m.root, fid := m.fid, total := bits (dwAt m.hdr 3) 15 0 }
  { old with frags := AMap.set old.frags (bits (dwAt m.hdr 3) 31 16) m.payload }

/-- Forget the fragments of a fabric cue. -/
def dropGather (s : State) (m : CueMsg) : State :=
  { s with cue := { s.cue with gathers := s.cue.gathers.filter fun g => !(g.root == m.root && g.fid == m.fid) } }

/-- A PREPARE fragment arrives on port `p` (R539, R541). -/
def takePrepare (s : State) (p : Nat) (m : CueMsg) : State :=
  if passedBefore s m then s
  else
    let s1 := passOn s p m
    let g := gathered s1 m
    let s2 := dropGather s1 m
    if (List.range g.total).all fun i => AMap.has g.frags i then
      stagePrepare s2 m ((List.range g.total).flatMap fun i => AMap.getD g.frags i [])
    else { s2 with cue := { s2.cue with gathers := s2.cue.gathers ++ [g] } }

/-- A READY arrives (R539, R542). -/
def takeReady (s : State) (m : CueMsg) : State :=
  if !isRoot s then sendUp s m
  else match rootedSlot s m with
    | some e => recordReady s e.1 e.2 m.sender m.status
    | none => s

/-- An ARM arrives on port `p` (R539, R543, R545); one that comes only after T changes nothing (R544). -/
def takeArm (s : State) (p : Nat) (m : CueMsg) : State :=
  if passedBefore s m then s
  else
    let s1 := passOn s p m
    match fabSlot s1 m with
    | some e => if nodeTime s < e.2.t then setSlotState (setCue s1 e.1 { e.2 with armed := true }) e.1 4 else s1
    | none => s1.count (cueB + 0x11C)

/-- An ABORT arrives on port `p` (R539, R543); one that comes only after T changes nothing (R544). -/
def takeAbort (s : State) (p : Nat) (m : CueMsg) : State :=
  if passedBefore s m then s
  else
    let s1 := dropGather (passOn s p m) m
    match fabSlot s1 m with
    | some e => if nodeTime s < e.2.t then abandonCue s1 e.1 else s1
    | none => s1

/-- A late RESULT still updates the answer table of the last fabric cue rooted here (R546). -/
def lateResult (s : State) (m : CueMsg) : State :=
  match AMap.get s.cue.last m.sender with
  | some a =>
    if s.rd (cueB + 0x060) = w32 m.fid then
      let b := if a.failed then { a with reported := true } else { a with reported := true, status := m.status, reason := m.reason }
      let l := AMap.set s.cue.last m.sender b
      let ok := (l.filter fun e => e.2.reported && e.2.status == 0).length
      let bad := (l.filter fun e => e.2.reported && e.2.status != 0).length
      ({ s with cue := { s.cue with last := l } }).wr (cueB + 0x064) (fieldW 28 16 bad ||| fieldW 12 0 ok)
    else s
  | none => s

/-- A RESULT arrives (R539, R546). -/
def takeResult (s : State) (m : CueMsg) : State :=
  if !isRoot s then sendUp s m
  else match rootedSlot s m with
    | some e => recordResult s e.1 e.2 m.sender m.status m.reason
    | none => lateResult s m

/-- A cue message arrives on port `p` (R537 to R540). One with an MTYPE that is not defined is discarded like one that R540 names. -/
def takeCueMsg (s : State) (p : Nat) (m : CueMsg) : State :=
  if msgBad s m then discardMsg s
  else
    match m.mtype with
    | 1 => takePrepare s p m
    | 2 => takeReady s m
    | 3 => takeArm s p m
    | 4 => takeAbort s p m
    | 5 => takeResult s m
    | 6 => takePresence s m
    | _ => discardMsg s

/-- A message of MTYPE `ty` arrives on trunk port `p`, which must be UP (R537); no effect where the header's MTYPE is another. -/
def messageOn (s : State) (p ty : Nat) (m : CueMsg) : State := if trunkUp s p ∧ m.mtype = ty then takeCueMsg s p m else s

/-- PRESENCE_RECEIVE (R536, R550). -/
def execPresenceReceive (p : Fin 128) (hdr : List Word) (payload : List Byte) (s : State) : Result := .next (messageOn s p 6 ⟨hdr, payload⟩)

/-- PREPARE_RECEIVE (R541). -/
def execPrepareReceive (p : Fin 128) (hdr : List Word) (payload : List Byte) (s : State) : Result := .next (messageOn s p 1 ⟨hdr, payload⟩)

/-- READY_RECEIVE (R542). -/
def execReadyReceive (p : Fin 128) (hdr : List Word) (payload : List Byte) (s : State) : Result := .next (messageOn s p 2 ⟨hdr, payload⟩)

/-- ARM_RECEIVE (R543, R545). -/
def execArmReceive (p : Fin 128) (hdr : List Word) (payload : List Byte) (s : State) : Result := .next (messageOn s p 3 ⟨hdr, payload⟩)

/-- ABORT_RECEIVE (R543). -/
def execAbortReceive (p : Fin 128) (hdr : List Word) (payload : List Byte) (s : State) : Result := .next (messageOn s p 4 ⟨hdr, payload⟩)

/-- RESULT_RECEIVE (R546). -/
def execResultReceive (p : Fin 128) (hdr : List Word) (payload : List Byte) (s : State) : Result := .next (messageOn s p 5 ⟨hdr, payload⟩)

/-- ARM_DEADLINE (R542): a fabric cue rooted here that is not armed at T - ARM_LEAD. -/
def execArmDeadline (s : State) : Result :=
  match s.cue.cues.find? fun e => e.2.own && !e.2.armed && !e.2.aborted && !e.2.finished && decide (e.2.t ≤ nodeTime s + e.2.lead) with
  | some e => .next (rootAbort s e.1 e.2)
  | none => .next s

/-- FABRIC_CUE_TIMEOUT (R544): a prepared cue of another root with neither ARM nor ABORT at T. -/
def execFabricCueTimeout (s : State) : Result :=
  match byOrder ((stagedCues s).filter fun e => e.2.kind == 1 && !e.2.own && !e.2.armed && decide (e.2.t ≤ nodeTime s)) with
  | e :: _ => .next (endPart (applySafe s e.1 e.2) e.1 e.2 0x0F 0x09 true)
  | [] => .next s

/-- RESULT_WINDOW_EXPIRY (R546): RESULT_WIN after T the root delivers the outcome. -/
def execResultWindowExpiry (s : State) : Result :=
  match s.cue.cues.find? fun e => e.2.own && e.2.finished && decide (e.2.t + s.fld (cueB + 0x050) 31 16 * 1000000 * tuPerNs ≤ nodeTime s) with
  | some e => .next (deliverFab s e.1 e.2)
  | none => .next s

end Sys2Proof.Machine
end

