-- ==== Sys2Proof/Machine/Ports.lean ====
section
/-!
DEFINITION. Ports.lean: the events of lanes, ports, trunk bring-up and eye scans (07_lanes_and_ports.md), one meaning per row of the table.
-/
namespace Sys2Proof.Machine

/-- Has an Ethernet port received no fault for 1 ms (R351)? -/
def faultFree (s : State) (p : Nat) : Bool :=
  match (portRec s p).faultAt with
  | some t => decide (t + 1000000 * tuPerNs ≤ s.elapsed)
  | none => true

/-- ETH_LINK_UP (R351): port `p`'s PCS gains block lock on every lane, and with FEC alignment. Valid on an enabled Ethernet port whose lanes' clocks are
locked and that has received no fault for 1 ms. -/
def execEthLinkUp (p : Fin 128) (s : State) : Result :=
  if !portIs s p 0 ∨ s.fld (macB p + 0x040) 31 24 = 0 ∨ !mayStart s p ∨ !allLanes s p 1 ∨ !allLanes s p 2 ∨ !faultFree s p then .next s
  else
    let s1 := forEach (lanesOf s p) s fun l t => t.setFlag (lanB l + 0x040) 3 true
    .next (portComesUp ((s1.setFlag (macB p + 0x044) 1 false).setFlag (macB p + 0x044) 2 false) p)

/-- ETH_LINK_DOWN (R351, R436): lock or alignment is lost, or local or remote fault is received: the port sends remote fault, or idle and no frames. -/
def execEthLinkDown (p : Fin 128) (lf rf : Bool) (s : State) : Result :=
  if !portIs s p 0 then .next s
  else
    let s1 := ((portDown s p).setFlag (macB p + 0x044) 1 lf).setFlag (macB p + 0x044) 2 rf
    let s2 := if lf || rf then setPortRec s1 p { portRec s1 p with faultAt := some s.elapsed } else s1
    .next (if lf then s2.emit (.ordered p true) else if rf then s2.emit (.ordered p false) else s2)

/-- CDR_LOCK (R374): lane `l` sees a signal and its CDR locks; on the last lane of a trunk port in SIGNAL the port enters FRAME. -/
def execCdrLock (l : Fin 128) (s : State) : Result :=
  match portOfLane s l with
  | none => .next s
  | some p =>
    if !mayStart s p then .next s else
    let s1 := s.orReg (lanB l + 0x040) 0x03
    .next (if portIs s p 1 ∧ trkSt s p = 1 ∧ allLanes s1 p 1 then setTrk s1 p 2 else s1)

/-- CDR_LOSS (R375, R384). -/
def execCdrLoss (l : Fin 128) (s : State) : Result := .next (loseCdr s l)

/-- NEG_WORD_RECEIVE (R377 to R383): the word of the peer of port `p`, which the receive-frequency monitor finds `ppt` off the network clock.
Valid on a trunk port whose receiver has lock, for a word whose reserved bits are 0. -/
def execNegWordReceive (p : Fin 128) (w : BitVec 64) (ppt : Int) (s : State) : Result :=
  if portIs s p 1 ∧ 3 ≤ trkSt s p ∧ trkSt s p ≤ 8 ∧ trkSt s p ≠ 4 ∧ wbits w 7 0 = 0x5A ∧ wbits w 51 50 = 0 then .next (takeNeg s p w (freqNear ppt))
  else .next s

/-- RATE_STEP (R381, R383): the superblock of STEP_AT has ended. -/
def execRateStep (p : Fin 128) (s : State) : Result :=
  if portIs s p 1 ∧ (portRec s p).stepRate ≠ 0 ∧ (trkSt s p = 3 ∨ trkSt s p = 8) ∧ rateStepDue s p then .next (stepRateNow s p) else .next s

/-- TXPLL_LOCK (R374): the transmit PLLs of port `p` lock; from STEP the port enters TRAIN if they do so within 100 us. -/
def execTxpllLock (p : Fin 128) (s : State) : Result :=
  if !configured s p ∨ !mayStart s p then .next s
  else
    let s1 := forEach (lanesOf s p) s fun l t => t.setFlag (lanB l + 0x040) 2 true
    .next (if portIs s p 1 ∧ trkSt s p = 4 ∧ s.elapsed ≤ (portRec s p).since + 100000 * tuPerNs then setTrk s1 p 5 else s1)

/-- How long a port may take in TRAIN (R374): 5 ms at an NRZ rate, 50 ms at a PAM4 one. A local port starts there without its peer, and waits (R384). -/
def trainLimit (s : State) (p : Nat) : Nat := (if 5 ≤ portRate s p then 50000000 else 5000000) * tuPerNs

/-- TRAIN_COMPLETE (R372, R374, R384): the equalisers of port `p` are adapted. Valid in TRAIN once every lane has CDR and superblock lock, in time; the phase
window is centred. -/
def execTrainComplete (p : Fin 128) (s : State) : Result :=
  if !portIs s p 0 ∧ configured s p ∧ trkSt s p = 5 ∧ allLanes s p 1 ∧ allLanes s p 3 ∧
      (portIs s p 2 ∨ s.elapsed ≤ (portRec s p).since + trainLimit s p) then
    .next (setTrk (s.wr (trkPeer p + 4) 0) p 6)
  else .next s

/-- The consecutive superblocks without a bad one that VERIFY asks for (R374). -/
def verifyNeed (s : State) (p : Nat) : Nat := if portRate s p = 1 then 16384 else 65536

/-- VERIFY_COMPLETE (R374): valid in VERIFY after the required count of consecutive good superblocks; messages that waited for the upstream port leave. -/
def execVerifyComplete (p : Fin 128) (s : State) : Result :=
  if !portIs s p 0 ∧ configured s p ∧ trkSt s p = 6 ∧ verifyNeed s p ≤ (portRec s p).checked then .next (flushOutbox (setTrk s p 7)) else .next s

/-- BRINGUP_TIMEOUT (R375): valid on a trunk port that has made no progress for 1 s. In NEGOTIATE a received NEG word is progress (DEDUCED,
log entry 26). -/
def execBringupTimeout (p : Fin 128) (s : State) : Result :=
  if portIs s p 1 ∧ 2 ≤ trkSt s p ∧ trkSt s p ≤ 6 ∧ (portRec s p).since + tuPerSec ≤ s.elapsed then .next (restartTrk s p) else .next s

/-- RATE_FALLBACK (R375): valid in TRAIN or VERIFY 200 ms after the port left NEGOTIATE; the rate it tried is excluded but for 0x01. -/
def execRateFallback (p : Fin 128) (s : State) : Result :=
  let rate := s.fld (trkState p) 23 16
  if portIs s p 1 ∧ (trkSt s p = 5 ∨ trkSt s p = 6) ∧ (portRec s p).leftNeg + 200000000 * tuPerNs ≤ s.elapsed then
    let s1 := if 2 ≤ rate ∧ rate ≤ 6 then s.setFlag (trkState p) (9 + rate) true else s
    .next (restartTrk (macEvent s1 p 1) p)
  else .next s

/-- PHASE_SLIP (R372, R373): valid on a trunk port whose received phase, as TRK_Pk_PHASE shows it, has reached an edge of its window of 5 ns either way. -/
def execPhaseSlip (p : Fin 128) (s : State) : Result :=
  if portIs s p 1 ∧ 6 ≤ trkSt s p ∧ trkSt s p ≤ 8 ∧ 5000 ≤ (sbits (s.rd (trkPeer p + 4)) 31 0).natAbs then .next (restartTrk (s.count (macB p + 0x164)) p) else .next s

/-- TXPLL_LOSS (R770). -/
def execTxpllLoss (l : Fin 128) (s : State) : Result := .next (loseTxPll s l)

/-- The ports that are strictly better than the present upstream port `cur`, each with the time since when it has been without a break (R386, R387). -/
def nowBetter (s : State) (cur : Nat) : AMap Nat :=
  ((List.range 128).filter fun p => p != cur && upEligible s p && upBefore s p cur).map fun p => (p, AMap.getD s.upBetter p s.elapsed)

/-- UPSTREAM_SELECT (R385 to R387): firmware looks at the eligible ports. It changes at once where the present port is no longer eligible, and
else once another has been strictly better for 2 s. -/
def execUpstreamSelect (s : State) : Result :=
  let cur := refSource s 7
  let best := bestUp s
  if refEnabled s 7 ∧ cur < 128 ∧ upEligible s cur then
    let m := nowBetter s cur
    match best with
    | some q =>
      if q ≠ cur ∧ AMap.getD m q s.elapsed + 2 * tuPerSec ≤ s.elapsed then .next (flushOutbox (setUpstream { s with upBetter := [] } (some q)))
      else .next { s with upBetter := m }
    | none => .next s
  else
    match best with
    | some q => .next (flushOutbox (setUpstream { s with upBetter := [] } (some q)))
    | none => if refEnabled s 7 then .next (setUpstream { s with upBetter := [] } none) else .next s

/-- LOCAL_TIME_MESSAGE (R388, R389): the leader's TAI second and SUN_UTC reach the follower over its local port `p`. Valid on a local port that
is UP, with a REFIN slot of TYPE PPS and RANK0 1. -/
def execLocalTimeMessage (p : Fin 128) (sec : BitVec 48) (utc : Word) (s : State) : Result :=
  match [0, 1, 2, 3].find? fun n => refEnabled s n && slotType s n == 1 && refRank s 0 n == 1 with
  | some n =>
    if portIs s p 2 ∧ trkSt s p = 7 then
      let off := judgeSlot (s.setFlag (refCfg n) 0 false) n
      let s1 := if nodeTime s / tuPerSec = sec.toNat ∨ s.sun.setDom.isSome then s
        else judgeSlot ((takeSet (dropPhase off n) 0 (sec.toNat * tuPerSec + nodeTime s % tuPerSec) false).setFlag (refCfg n) 0 true) n
      .next (loadUtc s1 utc)
    else .next s
  | none => .next s

/-- EYE_SCAN_DONE (R391): the scan of lane `l` has compared its 2^DWELL bits, `err` of them in disagreement. -/
def execEyeScanDone (l : Fin 128) (err : BitVec 64) (s : State) : Result :=
  let a := lanB l
  if s.flag (a + 0x068) 0 ∧ eyeBits s l = 2 ^ s.fld (a + 0x060) 31 24 ∧ err.toNat ≤ eyeBits s l then
    let s1 := ((s.wr64 (a + 0x070) (2 ^ s.fld (a + 0x060) 31 24)).wr64 (a + 0x078) err.toNat).wr (a + 0x068) (bitW 1 true)
    .next (lanEvent s1 l 2)
  else .next s

end Sys2Proof.Machine
end

