-- ==== Sys2Proof/Machine/ResetOps.lean ====
section
/-!
DEFINITION. ResetOps.lean: what a chip reset does to the state (16_pins_package_electrical.md R802, R806 to R808; 13_interrupts_and_wake.md R695),
the Lodge's emission of PPS_OUT0, and the loading of the Sundial from the Lodge counter (04_sundial_time_engine.md R171).
-/
namespace Sys2Proof.Machine

/-- Does a register keep its value through a chip reset: those of PWR and NVM, the wake entries, IRQ_WAKE_LAST (R695, R802)? -/
def keptReg (a : Nat) : Bool :=
  a / 65536 == pwrB / 65536 || a / 65536 == nvmB / 65536 || a == irqB + 0x300 || (decide (irqB + 0x280 ≤ a) && decide (a < irqB + 0x300)) ||
    a / 65536 == (hiddenB + pwrB) / 65536

/-- What a chip reset does at balls FATAL_N, which it releases (R809), and FLASH_*, which it leaves at high impedance (R814). -/
def resetBalls (s : State) : State :=
  let s1 := if s.flag (monB + 0x048) 31 then s.emit (.edge .fatalN true (nodeTime s)) else s
  if s.pwr.loading then s1.emit (.flashDrive false) else s1

/-- Every register but the kept ones at its reset value, and with them everything that the chip holds beyond its registers; the Lodge, the NVM
and the wake state stay (R695, R802). The chip is held in reset and its Sundial stands. -/
def resetBlocks (s : State) : State :=
  { State.reset with
    pending := s.pending
    regs := AMap.keep s.regs fun a _ => keptReg a
    busOut := s.busOut
    fresh := s.fresh
    sent := (resetBalls s).sent
    elapsed := s.elapsed
    held := true
    wakeNLow := s.wakeNLow
    irq := { p3Latched := s.irq.p3Latched }
    pwr := { s.pwr with
      sendHold := false, gated := [], wakeBusy := false, wakeSeen := [], deferred := none, firmware := false, loading := false, ready := false,
      imaged := false, loaded := none, handedBack := false, failed := [], subsys := 0 }
    nvm := s.nvm
    clk := { oscLost := s.pwr.lapse }
    sun := { stopped := true } }

/-- The first Lodge second at or after a Lodge time. -/
def secondFrom (t : Nat) : Nat := (t + tuPerSec - 1) / tuPerSec

/-- The Lodge takes over PPS_OUT0 from second `k` on, with the WIDTH and ADJ in force, if PPS_OUT0 was enabled (R726, R808). -/
def lodgeTakes (s : State) (k : Nat) : State :=
  if outEnabled s 0 then
    { s with pwr := { s.pwr with
        lodgePps := some (s.fld (outCfg 0) 31 12 * 1000 * tuPerNs, sbits (s.rd (outAdj 0)) 31 0, k) } }
  else s

/-- The Sundial stops other than on P3 entry (R808): a pulse in progress on PPS_OUT0 completes its WIDTH, the other field outputs fall, and the
Lodge takes PPS_OUT0 from the first whole second at least 1 us away; not after a fatal fault (R780). -/
def sundialStops (s : State) : State :=
  if s.sun.stopped then s
  else
    let o := outRec s 0
    let s1 := if o.high then s.emit (.edge (.pps 0) false (nodeTime s + (o.ends - s.elapsed))) else s
    let s2 := cutOuts (setOutRec s1 0 { o with high := false, busy := false })
    if s.flag (monB + 0x048) 31 then { s2 with pwr := { s2.pwr with lodgePps := none } }
    else if s.pwr.lodgePps.isSome then s2
    else lodgeTakes s2 (secondFrom (lodgeNow s + 1000 * tuPerNs))

/-- A chip reset begins, and the chip is held (R802, R806, R807). -/
def holdChip (s : State) : State := resetBlocks (sundialStops s)

/-- Both domain counters load the Lodge counter; their time is set if the Lodge time is (R38, R171). -/
def loadSundial (s : State) : State :=
  let c : TimeCtr := { t := lodgeNow s, set := s.flag (pwrB + 0x040) 20 }
  let s1 := { s with sun := { s.sun with d0 := c, d1 := c, hand := {}, stopped := false, ppsLodge := s.pwr.lodgePps.isSome } }
  refreshQc (settleOuts s1)

/-- The Lodge counter runs on to its first clock edge at or after `t`. While the Sundial stands no tick carries the model's time, and an event that
falls at a Lodge time carries it there (DESIGN CHOICE, log entry 5). -/
def reachLodge (s : State) (t : Nat) : State :=
  let inc := lodgeInc s
  if s.sun.stopped ∧ lodgeNow s < t ∧ 0 < inc ∧ !s.pwr.lapse ∧ s.pwr.lodgeOn then
    let n := (t - lodgeNow s + inc - 1) / inc
    { s with elapsed := max s.elapsed (s.pwr.lodgeAt + ((s.elapsed - s.pwr.lodgeAt) / lodgePeriod s + n) * lodgePeriod s) }
  else s

/-- Has a wait that began at `since` lasted `dt`? While the Sundial stands, the event itself says so (DESIGN CHOICE, log entry 5). -/
def waited (s : State) (since dt : Nat) : Bool := s.sun.stopped || decide (since + dt ≤ s.elapsed)

/-- FEED_FAULT is raised (R720, R803, R806, R736, R737). -/
def feedFault (s : State) : State := pwrEvent s 2

/-- Drive RAIL_EN high: at once, or at the end of the 50 ms for which it stays low (R719, R800). -/
def raiseRails (s : State) : State :=
  if s.pwr.railEn then s
  else if s.pwr.railLow then { s with pwr := { s.pwr with railWant := true } }
  else ({ s with pwr := { s.pwr with railEn := true, railWait := true, railWant := false } }).emit (.edge .railEn true 0)

/-- Drive RAIL_EN low (R718, R720, R800). -/
def dropRails (s : State) : State :=
  if s.pwr.railEn then
    ({ s with pwr := { s.pwr with railEn := false, railGood := false, railLow := true, railWant := false, railWait := false } }).emit
      (.edge .railEn false 0)
  else { s with pwr := { s.pwr with railWant := false } }

/-- A change of power state ends without result, and the chip will come up in P0 (R806, R807). -/
def endChange (s : State) : State := setResult ((setChange s .idle 0).setFld (pwrB + 0x040) 31 30 0) 0 0

end Sys2Proof.Machine
end

