-- ==== Sys2Proof/Machine/PwrRun.lean ====
section
/-!
DEFINITION. PwrRun.lean: what the changes between power states do to the rest of the chip (14_power_and_feeds.md R698 to R719; R498, R525, R600,
R601, R316, R335), the Lodge counter and the feeds (R721 to R741).
-/
namespace Sys2Proof.Machine

/-- A change of power state ends in state `st`: STATE and TARGET, RESULT DONE. -/
def endIn (s : State) (st : Nat) : State := setResult ((setChange s .idle st).setFld (pwrB + 0x040) 31 30 st) 3 0

/-- Is a Pavilion idle: no lane belongs to an enabled port, and no cell has or awaits a job (R699)? -/
def pavIdle (s : State) (r : Nat) : Bool :=
  ((List.range 16).all fun k => (portOfLane s (16 * r + k)).isNone) &&
    ((List.range 16).all fun k => jobsOn s (16 * r + k) == [] && jobsTo s (16 * r + k) == [])

/-- A Pavilion is gated, its cells with it (R699). -/
def gatePav (s : State) (r : Nat) : State :=
  forEach (List.range 16) { s with pwr := { s.pwr with gated := s.pwr.gated ++ [r] } } fun k t =>
    setCell t (16 * r + k) { cellOf t (16 * r + k) with ready := false }

/-- Everything idle is gated on arrival in P1 (R600, R699, R711). -/
def gateIdle (s : State) : State :=
  let s1 := forEach allCells s fun c t => settleCell t c
  forEach ((List.range 8).filter (pavIdle s1)) s1 fun r t => gatePav t r

/-- The state of a job in data memory is discarded (R601): its declaration, parameters and gain sets stay. -/
def sleepJob (s : State) (h : Nat) : State :=
  let s1 := abandonMove s h 0x0A
  match jobOf s1 h with
  | some j => setJob s1 h (restartJob false j)
  | none => s1

/-- Every job and stream stops, and the cells are gated (R601, R716 step 4). -/
def sleepJobs (s : State) : State :=
  let s1 := forEach (AMap.keys s.plc.jobs) s fun h t => sleepJob t h
  { s1 with plc := { s1.plc with
      streams := AMap.mapVals s1.plc.streams fun _ x => { x with next := none }
      cells := AMap.mapVals s1.plc.cells fun _ x => { x with ready := false }
      taps := [], clocks := [], above := [], below := [] } }

/-- The tables are saved, each entry from a sound replica, without the learned L2 entries; what waited to be learned, refreshed or deleted goes with those (R498). -/
def saveTables (s : State) : State :=
  { s with tbl := { s.tbl with
      l2 := AMap.keep s.tbl.l2 fun _ e => eStatic false e
      bad := s.tbl.bad.filter fun e => e.2 == 0xFF
      hits := [], learnQ := [], refQ := [], refIn := [], refOut := [], track := [], dels := [], downs := [] } }

/-- Captures end, and with them the acquisition and jobs of the Belvedere that cannot go on in P2 (R316, R335): all of them when the Belvedere is
not the selected reference, else jobs of MODE 1. -/
def sleepGns (s : State) : State :=
  if gnsSelected s then abortGrotto (cutCaptures s) fun t j => t.fld (grtCfg j) 1 0 == 1 else gnsOff s

/-- Ports of Ethernet and local mode that are enabled. -/
def duskPorts (s : State) : List Nat := (List.range 128).filter fun p => portIs s p 0 || portIs s p 2

/-- The commit point of an entry to P2 (R716 steps 3 to 5): trunk ports not in HOLD negotiate again with HOLD set, other ports go down, cues end,
jobs stop, the tables are saved. -/
def darken (s : State) : State :=
  let s1 := forEach ((List.range 128).filter fun p => portIs s p 1 && trkSt s p != 8) s fun p t => if mayStart t p then restartTrk t p else t
  saveTables (sleepGns (sleepJobs (endAllCues (forEach (duskPorts s1) s1 fun p t => stopPort t p) false)))

/-- Is every trunk port with EN 1 in HOLD, or has HOLD_WAIT passed (R716 step 2)? -/
def holdReached (s : State) : Bool :=
  ((List.range 128).all fun p => !portIs s p 1 || trkSt s p == 8) || waited s s.pwr.stepAt (s.fld (pwrB + 0x050) 15 8 * 1000000 * tuPerNs)

/-- The wake that a watched source asked for after the commit point starts (R709). -/
def deferredWake (s : State) : State :=
  match s.pwr.deferred with
  | some n => startWake { s with pwr := { s.pwr with deferred := none } } n
  | none => s

/-- An entry to P2 ends (R716 step 6): with P3 as its target it goes on with R718, and STATE_DONE waits for P3 (R704, DEDUCED, log entry 29). -/
def reachP2 (s : State) (toP3 : Bool) : State :=
  if toP3 then
    let s1 := setChange (s.setFld (pwrB + 0x040) 31 30 2) (.linkWait true) 3
    { s1 with pwr := { s1.pwr with stepAt := s1.elapsed } }
  else deferredWake (stateDone (endIn s 2) false)

/-- A departure from P2 ends (R717 step 4): HOLD clears, tables are restored, ports start, STATE reads the target. -/
def brighten (s : State) (st : Nat) : State :=
  let s1 := { endIn s st with pwr := { (endIn s st).pwr with sendHold := false, gated := [] } }
  stateDone (startPorts s1 fun p => !portIs s1 p 1) false

/-- The Lodge counter takes node time, and PWR_LODGE_INC OSCIN's measured rate; the Lodge time is then set unless node time's QC is UNSET (R723,
R725). -/
def syncLodge (s : State) : State :=
  let s1 := (setLodge s (nodeTime s)).wr64 (pwrB + 0x070) (lodgeIncNow s)
  if nodeQc s = 7 then s1 else setLodgeSet s1 true

/-- Second S of R718: the first whole second of node time at least 10 ms away. -/
def secondS (s : State) : Nat := secondFrom (nodeTime s + 10000000 * tuPerNs)

/-- Step 1 of an entry to P3 ends: its commit point when it began in P2, the Lodge counter aligned to OSCIN by TDC channel 15 and its increment
frozen (R714, R718, R724). -/
def alignLodge (s : State) (committed : Bool) : State :=
  let s1 := if committed then s else setResult s 2 0
  let s2 := syncLodge (setChange s1 .lastSecond 3)
  { s2 with pwr := { s2.pwr with lastSec := secondS s } }

/-- Has the Sundial emitted its PPS_OUT0 edge of second S (R718 step 3)? -/
def lastEdgeDone (s : State) : Bool :=
  decide (s.pwr.lastSec * tuPerSec ≤ nodeTime s) && (!outEnabled s 0 || decide ((s.pwr.lastSec : Int) ≤ (outRec s 0).last))

/-- The Lodge takes PPS_OUT0 from S + 1 s; the other time outputs stop (R718 steps 3, 4). -/
def lastPps (s : State) : State :=
  let s1 := lodgeTakes (setChange s .railsOff 3) (s.pwr.lastSec + 1)
  { s1 with sun := { s1.sun with ppsLodge := true } }

/-- Everything but the Lodge is off (R37, R718 step 5): the Sundial stands, the field outputs are low but for PPS_OUT0's pulse, the Orangery's
contents, tables, queues and declarations are lost, RAIL_EN is low. STATE_DONE is kept for the restart (R834). -/
def rest (s : State) : State :=
  let o := outRec s 0
  let s1 := if o.high then s.emit (.edge (.pps 0) false (nodeTime s + (o.ends - s.elapsed))) else s
  let s2 := calStop (cutOuts (setOutRec s1 0 { o with high := false }))
  let s3 := { s2 with
    sun := { s2.sun with stopped := true }, tbl := {}, sw := {}, plc := {}, gns := {}, cue := {}, ports := [], lanes := []
    pwr := { s2.pwr with sendHold := false, gated := [], wakeBusy := false } }
  let s4 := endIn (dropRails s3) 3
  let s5 := s4.orReg (pwrB + 0x044) (bitW 8 true)
  let s6 := if s5.irq.p3Latched.contains 456 then s5 else { s5 with irq := { s5.irq with p3Latched := s5.irq.p3Latched ++ [456] } }
  deferredWake s6

/-- The Sundial takes PPS_OUT0 back a second after it was loaded (R719 step 7, R808); a restart from P3 ends, through R711 when WAKE_TO is P1
(R715). -/
def handBack (s : State) : State :=
  let s1 := { s with
    sun := { s.sun with ppsLodge := false }
    pwr := { s.pwr with lodgePps := none, loaded := none, handedBack := true } }
  if s1.pwr.change = .restart then
    (if wakeToP1 s1 then beginChange s1 .trim 1 else stateDone (endIn s1 0) false)
  else s1

/-- The Lodge second of the next PPS_OUT0 pulse of the Lodge: none of those already past (R726, R808). -/
def nextPps (s : State) (adj : Int) (k : Nat) : Nat :=
  let x := 2 * ((lodgeNow s : Int) - adjTu (adj * 2 ^ 40)) - lodgeInc s
  max k (((x + 2 * tuPerSec - 1) / (2 * tuPerSec : Nat)).toNat)

/-- The Lodge emits PPS_OUT0 on its clock edge nearest to its whole second plus SUN_PPS0_ADJ (R726), with no pulse while OSCIN is absent (R833) or
the output is turned off (R741), and none after the second at which the Sundial was loaded. -/
def emitPps (s : State) : State :=
  match s.pwr.lodgePps with
  | none => s
  | some (width, adj, k0) =>
    let k := nextPps s adj k0
    let inc := lodgeInc s
    let n := divRound ((k * tuPerSec : Nat) + adjTu (adj * 2 ^ 40) - lodgeNow s) inc
    let past := match s.pwr.loaded with
      | some w => decide (w < k)
      | none => false
    if s.pwr.lapse ∨ !s.pwr.lodgeOn ∨ inc = 0 ∨ n < 0 ∨ past = true ∨ (n ≠ 0 ∧ !s.sun.stopped) then s
    else
      let s1 := { s with
        elapsed := if s.sun.stopped then
            max s.elapsed (s.pwr.lodgeAt + ((s.elapsed - s.pwr.lodgeAt) / lodgePeriod s + n.toNat) * lodgePeriod s)
          else s.elapsed
        pwr := { s.pwr with lodgePps := some (width, adj, k + 1) } }
      if fieldOff s 0 then s1
      else (s1.emit (.edge (.pps 0) true (lodgeNow s1))).emit (.edge (.pps 0) false (lodgeNow s1 + width))

/-- The ball of a field output by its bit of PWR_FIELD_STAT (R741). -/
def fieldBall (b : Nat) : Ball := if b < 8 then outBall b else .trig (b - 8)

/-- Is a field output high? -/
def fieldHigh (s : State) (b : Nat) : Bool :=
  if b < 8 then (outRec s b).high else s.sun.pulses.any fun e => e.2.2 == b - 8

/-- A field output falls as it is turned off. -/
def cutField (s : State) (b : Nat) : State :=
  if !fieldHigh s b then s
  else
    let s1 := s.emit (.edge (fieldBall b) false (nodeTime s))
    if b < 8 then setOutRec s1 b { outRec s1 b with high := false }
    else { s1 with sun := { s1.sun with pulses := AMap.keep s1.sun.pulses fun _ e => e.2 != b - 8 } }

/-- The voltages of the feeds as sampled, in 10 mV. -/
def takeVolts (s : State) (va vb : BitVec 16) : State := (s.wr (pwrB + 0x060) (w32 va.toNat)).wr (pwrB + 0x064) (w32 vb.toNat)

/-- The voltage of feed `x`. -/
def feedVolts (s : State) (x : Nat) : Nat := s.fld (pwrB + 0x060 + 4 * x) 15 0

/-- Does a feed's voltage lie within PWR_FEED_LIM (R732)? -/
def inRange (s : State) (x : Nat) : Bool :=
  decide (s.fld (pwrB + 0x05C) 15 0 ≤ feedVolts s x) && decide (feedVolts s x ≤ s.fld (pwrB + 0x05C) 31 16)

/-- PWR_STATUS shows whether a feed is in range. -/
def setFeedOk (s : State) (x : Nat) (b : Bool) : State := s.setFlag (pwrB + 0x040) (16 + x) b

/-- The gate of a feed's FET. -/
def gateBall (x : Nat) : Ball := if x = 0 then .feedGateA else .feedGateB

/-- A feed's FET is turned off. -/
def fetOff (s : State) (x : Nat) : State := ({ s with pwr := { s.pwr with fet := none } }).emit (.edge (gateBall x) false 0)

/-- A feed's FET is turned on: FEED_ACTIVE, HOLDUP clear, and the holdoff runs from now if it is not the preferred feed and that one is in range
(R735). -/
def fetOn (s : State) (x : Nat) : State :=
  let s1 := ({ s with pwr := { s.pwr with fet := some x } }).emit (.edge (gateBall x) true 0)
  let s2 := (s1.setFld (pwrB + 0x040) 8 8 x).setFlag (pwrB + 0x040) 19 false
  { s2 with pwr := { s2.pwr with holdSince := if x ≠ prefFeed s2 ∧ feedOk s2 (prefFeed s2) then some s2.elapsed else none } }

/-- The device charges VHOLD from the active feed until it is CHARGED (R738). -/
def charge (s : State) : State :=
  if s.flag (pwrB + 0x040) 18 then s else { s with pwr := { s.pwr with charging := true, chargeAt := some s.elapsed } }

/-- Feed `x` is lost (R733, R736, R737). -/
def loseFeed (s : State) (x : Nat) : State :=
  let s1 := setFeedOk s x false
  if s.pwr.fet = some x then
    (if feedOk s1 (1 - x) then pwrEvent ((fetOn (fetOff s1 x) (1 - x)).count (pwrB + 0x100)) 0
     else
      let s2 := (fetOff s1 x).setFlag (pwrB + 0x040) 19 true
      feedFault { s2 with pwr := { s2.pwr with holdSince := none, charging := false, chargeAt := none } })
  else feedFault (if x = prefFeed s1 then { s1 with pwr := { s1.pwr with holdSince := none } } else s1)

/-- A feed returns while none is active: its FET is turned on, with no holdoff (R736), and the bank charges from it (R738). -/
def takeFeed (s : State) (x : Nat) : State :=
  let back := s.flag (pwrB + 0x040) 19
  let s1 := charge (fetOn s x)
  if back then s1.count (pwrB + 0x100) else s1

/-- Feed `x` returns; `other` says that the sample before the present one had the other feed in range too. -/
def regainFeed (s : State) (x : Nat) (other : Bool) : State :=
  let both := !feedOk s (1 - x) && other && inRange s (1 - x)
  let s1 := setFeedOk s x true
  match s.pwr.fet with
  | none => if both then takeFeed (setFeedOk s1 (1 - x) true) (prefFeed s) else takeFeed s1 x
  | some y => if y ≠ x ∧ x = prefFeed s then { s1 with pwr := { s1.pwr with holdSince := some s1.elapsed } } else s1

/-- The voltage at which charging stops, in 10 mV: the lower of 12.0 V and that of 50 mJ in `c` uF (R738). -/
def fullVolts (c : Nat) : Nat := if c = 0 then 1200 else min 1200 (isqrt (10 ^ 9 / c))

/-- Energy in 0.1 mJ of `c` uF at `v` times 10 mV. -/
def bankEnergy (c v : Nat) : Nat := c * v * v / 2000000

end Sys2Proof.Machine
end

