-- ==== Sys2Proof/Machine/ContRun.lean ====
section
/-!
DEFINITION. ContRun.lean: containment at the levels of a block, a Pavilion and the chip (15_monitoring_and_containment.md R770 to R783), and the
judging of sensors and supplies (R766 to R769).
-/
namespace Sys2Proof.Machine

/-- MON_FATAL.FATAL. -/
def fatalNow (s : State) : Bool := s.flag (monB + 0x048) 31

/-- The safe states of R780: ports down, field outputs low with the Lodge taking none over (R808), sample clocks stopped, cues ended with all
their safe actions in effect, jobs' blocks in processing lost. -/
def safeStates (s : State) : State :=
  let s1 := gnsOff (cutOuts s)
  let s2 := { s1 with pwr := { s1.pwr with lodgePps := none } }
  let s3 := forEach ((List.range 128).filter fun p => s2.flag (macB p + 0x040) 0) s2 fun p t => stopPort t p
  let s4 := endAllCues s3 true
  { s4 with plc := { s4.plc with jobs := AMap.mapVals s4.plc.jobs fun _ j => { j with proc := none, out := [] } } }

/-- A chip-level fault (R779, R780, R783): the first is recorded and takes the safe states, CHP_MODE goes to RECOVERY, CHIP_FATAL is raised; FATAL_N falls
(R809); a later one sets MORE only. -/
def chipFatal (s : State) (cause detail : Nat) : State :=
  if fatalNow s then s.setFlag (monB + 0x048) 30 true
  else
    let s1 := s.wr (monB + 0x048) (bitW 31 true ||| fieldW 15 8 detail ||| fieldW 7 0 cause)
    let s2 := safeStates (s1.orReg (monB + 0x040) (bitW 31 true))
    let s3 := s2.setFld (chpB + 0x040) 3 0 3
    (latchSource (if s.mode = 3 then s3 else latchSource s3 18) 480).emit (.edge .fatalN false (nodeTime s))

/-- How many Pavilions are isolated. -/
def pavsIsolated (s : State) : Nat := ((List.range 8).filter fun r => s.pavIsolated r).length

/-- A Pavilion is isolated (R775, R777, R778): its ports and its compute port go down, its jobs are placed afresh, its sources no longer latch. A
fifth one is a chip-level fault (R779). -/
def isolatePav (s : State) (r : Nat) : State :=
  if s.pavIsolated r then s
  else
    let s1 := (s.setFlag (pmonB r + 0x040) 31 true).orReg (monB + 0x040) (bitW (16 + r) true)
    let s2 := forEach ((List.range 16).map (16 * r + ·)) s1 fun p t => if t.flag (macB p + 0x040) 0 then stopPort t p else t
    let s3 := flushPort s2 (129 + r)
    let s4 := setPortSw s3 (129 + r) { portSw s3 (129 + r) with flushing := none }
    let s5 := { s4 with sw := { s4.sw with inbox := AMap.put s4.sw.inbox r [] [] } }
    let s6 := forEach ((List.range 16).map (16 * r + ·)) s5 fun c t => evictCell (setCell t c { cellOf t c with ready := false }) c
    let s7 := latchSource s6 (481 + r)
    if 4 ≤ pavsIsolated s then chipFatal s7 0x06 r else s7

/-- The bit of MON_PAV_SUM for a block of a Pavilion. -/
def sumBit : BlkTy → Nat
  | .pav => 16
  | .lan => 17
  | .mac => 18
  | .trk => 19
  | .que => 20
  | .lrn => 21
  | .bst => 22
  | _ => 23

/-- The slots of a block type. -/
def blockSlots (ty : BlkTy) : List Nat := if ty.slotted then List.range 16 else [0]

/-- A block of a Pavilion is isolated (R773, R774, R776, R783). -/
def isolateBlock (s : State) (ty : BlkTy) (r code : Nat) : State :=
  if s.flag (pmonB r + 0x040) (sumBit ty) then s
  else
    match ty with
    | .bst => if s.pavIsolated r then recordIsolate s .bst r (16 * r) code else isolateBst s r code
    | _ =>
      let s1 := recordIsolate s ty r (16 * r) code
      if s.pavIsolated r then s1
      else
        let s2 := forEach (blockSlots ty) s1 fun k t => markIsolated t ⟨ty, r, k⟩
        match ty with
        | .trk => forEach (((List.range 16).map (16 * r + ·)).filter fun p => portIs s2 p 1) s2 fun p t => stopPort t p
        | .pmon => s2
        | _ => isolatePav s2 r

/-- A buffer block (`que`) or a table block is isolated with its QUE or LRN sub-block; it is part of the Pavilion's PAV block (R773, log
entry 30). -/
def isolateBank (s : State) (que : Bool) (r : Nat) : State :=
  let sub : BlkTy := if que then .que else .lrn
  if s.flag (pmonB r + 0x040) (sumBit sub) then s
  else
    let s1 := markIsolated (recordIsolate s sub r (16 * r) 0x13) ⟨sub, r, 0⟩
    isolatePav (if s1.flag (pmonB r + 0x040) 16 then s1 else markIsolated (recordIsolate s1 .pav r (16 * r) 0x13) ⟨.pav, r, 0⟩) r

/-- One more retired bank shows in MON_PAV_BANKS: buffer banks in bits 11:8, table banks in bits 15:12. -/
def showBank (s : State) (que : Bool) (r : Nat) : State :=
  let lo := if que then 8 else 12
  s.setFld (pmonB r + 0x04C) (lo + 3) lo (min 15 (s.fld (pmonB r + 0x04C) (lo + 3) lo + 1))

/-- A buffer or table bank is retired (R770, R497): the spare takes it, or its block is isolated (R773). In a Pavilion already isolated it is
recorded only (R783). -/
def retireBank (s : State) (que : Bool) (r b : Nat) : State :=
  let spareBit := if que then 0 else 1
  let has := !s.flag (pmonB r + 0x040) spareBit
  let s1 := showBank (pavRetire (recordRetire s (if que then 1 else 3) r b 0x13 has) r) que r
  if s.pavIsolated r then s1
  else if has then
    let s2 := (if que then s1 else reloadReplica s1 r (· == b)).setFlag (pmonB r + 0x040) spareBit true
    { s2 with mon := { s2.mon with errs := AMap.del s2.mon.errs ((if que then 0x2000 else 0x3000) + 16 * r + b) } }
  else isolateBank s1 que r

/-- The table banks that repairs have worn out are retired (R496, R770). -/
def retireWorn (s : State) : State :=
  if s.tbl.worn = [] then s
  else forEach s.tbl.worn { s with tbl := { s.tbl with worn := [] } } fun x t => retireBank t false (x / 8) (x % 8)

/-- Every frame of one queue is dropped, and counted as flushed (R27, R770). -/
def dropQueue (s : State) (p t : Nat) : State :=
  let l := queueOf s p t
  let s1 := (setQueue s p t []).count (if p = 128 then hifB + 0x18C + 0x10 * t else queCtr p t + 0x18) l.length
  forEach l s1 fun c z => abortStamped (releaseCopy z c) c.done

/-- An uncorrectable error that R27 reports to a block: RETIRE_LIM of them within RETIRE_WIN isolate it (R773). -/
def blockError (s : State) (ty : BlkTy) (r : Nat) : State :=
  let x := windowHit s (0x4000 + 256 * r + ty.code)
  if retireLim s ≤ x.2 then isolateBlock x.1 ty r 0x13 else x.1

/-- The type of a Pavilion's block by number. -/
def pavBlock (b : Fin 8) : BlkTy :=
  match b.val with
  | 0 => .pav
  | 1 => .lan
  | 2 => .mac
  | 3 => .trk
  | 4 => .que
  | 5 => .lrn
  | 6 => .bst
  | _ => .pmon

/-- A Gatehouse or chip block is told of an uncorrectable error: the instant is kept as R773 keeps those of a Pavilion's block, and R774 gives no block of
the chip an isolation (log entry 93). -/
def chipError (s : State) (ty : BlkTy) : State := (windowHit s (0x6000 + ty.code)).1

/-- The block of an attachment is told of an error in a frame's header or metadata (R27): a Pavilion's, or the Gatehouse. -/
def frameError (s : State) (ty : BlkTy) (p : Nat) : State := if p = 128 then chipError s .hif else blockError s ty (attachOf p)

/-- The frame at place `i` of a parse FIFO is lost to an error in its header (R27). -/
def loseHeader (s : State) (ing e l i : Nat) : State :=
  let k := fifoKey ing e l
  match (fifoOf s k)[i]? with
  | none => s
  | some x =>
    let s1 := if i = 0 then popFifo s k else { s with sw := { s.sw with fifos := AMap.set s.sw.fifos k ((fifoOf s k).eraseIdx i) } }
    frameError (abortStamped s1 x.done) .pav ing

/-- The copy at place `i` of an egress queue is lost to an error in its header or metadata (R27). -/
def loseCopy (s : State) (p t i : Nat) : State :=
  match (queueOf s p t)[i]? with
  | none => s
  | some c => frameError (abortStamped (releaseCopy (setQueue s p t ((queueOf s p t).eraseIdx i)) c) c.done) .que p

/-- The copies of a table entry that are unsound, with Pavilion `r`'s among them. -/
def badEntry (s : State) (r pl : Nat) : State :=
  if (if 2 ^ 21 ≤ pl then (groupAt s (pl - 2 ^ 21)).isSome else (entryAt s pl).isSome) then
    let m := AMap.getD s.tbl.bad pl 0
    { s with tbl := { s.tbl with bad := AMap.set s.tbl.bad pl (if m / 2 ^ r % 2 = 1 then m else m + 2 ^ r) } }
  else s

/-- An action of a staged cue is hit (R27, R515). -/
def badAct (s : State) (k i : Nat) : State :=
  match cueOf s k with
  | some c => setCue s k { c with acts := (c.acts.zipIdx).map fun a => if a.2 = i then { a.1 with bad := true } else a.1 }
  | none => s

/-- An uncorrectable ECC error is handled as its row of R27, or the row of R773, R777 or R779 that names it, says. -/
def eccError (s : State) (x : EccWhere) : State :=
  match x with
  | .header ing e l i => loseHeader s ing e l i
  | .copy p t i => loseCopy s p t i
  | .descriptor n =>
    if canTake s n (ringType s n) then
      let y := takeDesc s n
      complete (chipError y.1 .hif) n { status := 0x13, desc := y.2, info := 0 }
    else s
  | .tableEntry r tab i => badEntry s r (match tab.val with
      | 0 => i.toNat
      | 1 => stBase + i.toNat
      | _ => groupPlace (i.toNat % 65536))
  | .queuePtr p t bank others =>
    let r := attachOf p
    let s1 := dropQueue s p t
    if r = 8 then s1
    else
      let y := windowHit s1 (0x2000 + 16 * r + bank)
      if retireLim s ≤ y.2 then
        retireBank (forEach (others.filter fun q => attachOf q.1 = r) y.1 fun q z => dropQueue z q.1 q.2) true r bank
      else y.1
  | .cueAction k i => badAct s k i
  | .timeState d => chipFatal (refreshQc (setCtr s d { ctrOf s d with set := false })) 0x04 0
  | .cellProgram c => retireCompute s c 0x13
  | .attachment r => isolatePav s r
  | .shared b r => isolateBlock s (pavBlock b) r 0x13
  | .engine => chipFatal s 0x05 0

/-- Temperature sensor `i` as read. -/
def tempOf (s : State) (i : Nat) : Int := sbits (s.rd (monB + 0x100 + 4 * i)) 15 0

/-- A warning of R768: raised when a reading of the group reaches the limit, and again only after all have fallen 2 degC below it. An invalid
reading is none. Answers the state and whether the warning stands. -/
def judgeWarn (s : State) (l : List Nat) (lim : Int) (stands : Bool) (b : Nat) : State × Bool :=
  let ts := (l.map (tempOf s)).filter (· ≠ -32768)
  if stands then (s, !(ts.all fun t => decide (t < lim - 8)))
  else if ts.any fun t => decide (lim ≤ t) then (monEvent s b, true)
  else (s, false)

/-- The sensors have been read (R766 to R768, R137, R140, R779). -/
def takeTemps (s : State) (temps : List (BitVec 16)) : State :=
  let ts := temps.take 18
  let s1 := forEach ts.zipIdx s fun x t => t.wr (monB + 0x100 + 4 * x.2) (w32 x.1.toNat)
  let s2 := forEach ts.zipIdx s1 fun x t => histSample t none 4 x.2 0 x.1.toInt
  let s3 := if [16, 17].any fun i => tempOf s2 i = -32768 ∧ tempOf s i ≠ -32768 then monEvent s2 11 else s2
  let w := judgeWarn s3 (List.range 16) (sbits (s3.rd (monB + 0x050)) 15 0) s3.mon.warned 8
  let x := judgeWarn w.1 [16, 17] (sbits (s3.rd (monB + 0x050)) 31 16) s3.mon.extWarned 9
  let hot := (List.range 16).foldl (fun m i => AMap.put m i (if 500 ≤ tempOf x.1 i then AMap.getD m i 0 + 1 else 0) 0) x.1.mon.hot
  let s4 := { x.1 with mon := { x.1.mon with warned := w.2, extWarned := x.2, hot := hot } }
  let s6 := noteTemps s4
  match (List.range 16).find? fun i => 3 ≤ AMap.getD hot i 0 with
  | some i => chipFatal s6 0x02 i
  | none => s6

/-- The absolute window of a supply monitor in mV (R796). -/
def supplyWindow (m : Nat) : Nat × Nat :=
  match m with
  | 0 => (690, 810)
  | 1 => (736, 864)
  | 2 => (782, 918)
  | 3 => (828, 972)
  | 4 => (1104, 1296)
  | 5 => (1012, 1188)
  | _ => (1656, 1944)

/-- A supply monitor reads `v` mV: since when it has been outside its window (R779). -/
def noteSupply (s : State) (m v : Nat) : State :=
  let o := s.mon.outAt
  let out := decide (v < (supplyWindow m).1) || decide ((supplyWindow m).2 < v)
  { s with mon := { s.mon with outAt := if out then (if AMap.has o m then o else AMap.set o m s.elapsed) else AMap.del o m } }

/-- The supplies have been read (R752, R769). -/
def takeSupplies (s : State) (mv : List (BitVec 16)) : State :=
  let ms := (mv.take 8).zipIdx
  let s1 := forEach ms s fun x t => t.wr (monB + 0x180 + 4 * x.2) (w32 x.1.toNat)
  forEach ms s1 fun x t => histSample (noteSupply t x.2 x.1.toNat) none 3 x.2 0 (x.1.toNat : Int)

/-- A cycle of the APLL's phase detector ends with an error of `err` ps: excessive beyond a quarter of the f_pd period (R152). -/
def takePd (s : State) (err : Option Nat) : State :=
  match err, apllPd (s.rd (clkB + 0x050)) with
  | some e, some f => { s with clk := { s.clk with pdBad := if 10 ^ 7 < 4 * e * f then s.clk.pdBad + 1 else 0 } }
  | _, _ => s

/-- A single-bit error in control state is corrected and counted (R27): in the chip's event 0x0A, and one in a cell's program memory in its BST block too. -/
def eccCorrected (s : State) (c : Option (Fin 128)) : State :=
  let s1 := perfCount s none { ev := 0x0A } 1
  match c with
  | some c => bstEvent (s1.count (bstB c + 0x130)) c 1
  | none => s1

/-- What a Sundial tick does beyond the Sundial: the phase detector, corrected ECC errors, the clock outputs, TDC gates, the Belvedere's sample clocks and samples (R280 to R283),
port schedulers, the cells' cycles (R599), replicas that differ from the master (R28, R777), worn table banks. -/
def sunTick (s : State) (x : TickIn) : State :=
  if s.sun.stopped then s
  else
    let s0 := forEach x.corrected (takePd s x.pdErr) fun c t => eccCorrected t c
    let s1 := tickClkOuts (tickSundial s0) (nodeTime s) (baseInc s (activeDom s))
    let s2 := tickCells (tickPorts (gnsTick (tickGates s1) (s.sun.d0.t / tuPerSec) x.fe0 x.fe1) (s1.elapsed - s.elapsed)) (s1.elapsed - s.elapsed)
    retireWorn (forEach x.mismatch s2 fun r t => isolatePav t r)

end Sys2Proof.Machine
end

