-- ==== Sys2Proof/Machine/Contain.lean ====
section
/-!
DEFINITION. Contain.lean: the Sundial's tick and the events of monitoring and containment, one meaning per row of the table.
-/
namespace Sys2Proof.Machine

/-- SUNDIAL_TICK (R27, R28, R146 to R151, R152, R162, R170, R177, R178, R191, R216 to R218, R777). -/
def execSundialTick (x : TickIn) (s : State) : Result := .next (sunTick s x)

/-- OSCIN_LAPSE (R779, R833): the Lodge counter stands from now on, LODGE_SET clears; while the chip runs it is a fatal fault. -/
def execOscinLapse (s : State) : Result :=
  if s.pwr.lapse then .next s
  else
    let s1 := setLodgeSet (setLodge s (lodgeNow s)) false
    let s2 := { s1 with pwr := { s1.pwr with lapse := true }, clk := { s1.clk with oscLost := true } }
    .next (if s2.alive then chipFatal s2 0x01 0 else s2)

/-- OSCIN_RETURN (R833): the Lodge counter advances again from where it stood. -/
def execOscinReturn (s : State) : Result :=
  if s.pwr.lapse then
    let s1 := setLodge s s.pwr.lodge
    .next { s1 with pwr := { s1.pwr with lapse := false }, clk := { s1.clk with oscLost := false } }
  else .next s

/-- SENSOR_READ (R766): the 18 readings in 0.25 degC, 0x8000 for an external input that is open or shorted. -/
def execSensorRead (temps : List (BitVec 16)) (s : State) : Result := if s.alive then .next (takeTemps s temps) else .next s

/-- SUPPLY_READ (R769): the 8 readings in mV. -/
def execSupplyRead (mv : List (BitVec 16)) (s : State) : Result := if s.alive then .next (takeSupplies s mv) else .next s

/-- SUPPLY_FAULT (R779): monitor `m` has been outside its window for 100 us. -/
def execSupplyFault (m : Fin 8) (s : State) : Result :=
  match AMap.get s.mon.outAt m with
  | some t => if s.alive ∧ t + 100000 * tuPerNs ≤ s.elapsed then .next (chipFatal s 0x03 m) else .next s
  | none => .next s

/-- ECC_UNCORRECTABLE (R27, R515, R770 to R783). -/
def execEccUncorrectable (x : EccWhere) (s : State) : Result :=
  if s.alive then .next (eccError (perfCount s none { ev := 0x0B } 1) x) else .next s

end Sys2Proof.Machine
end

