-- ==== Sys2Proof/Machine/LineOps.lean ====
section
/-!
DEFINITION. LineOps.lean: the trunk line of 07_lanes_and_ports.md: the superblock and its check sums, scrambling, stuffing and seeds, the
codeword of the FEC rates, the words of a port over its lanes.
-/
namespace Sys2Proof.Machine

/-- The low `n` bits of a number, bit 0 first (R353). -/
def lowBits (n x : Nat) : List Bool := (List.range n).map fun i => x.testBit i

/-- The number whose bits these are, bit 0 first. -/
def natOfBits : List Bool → Nat
  | [] => 0
  | b :: t => (if b then 1 else 0) + 2 * natOfBits t

/-- Groups of `n` bits as numbers, `k` of them. -/
def groups (n : Nat) : Nat → List Bool → List Nat
  | 0, _ => []
  | k + 1, l => natOfBits (l.take n) :: groups n k (l.drop n)

/-- Bits as bytes, the lowest-numbered bit of each first (R355). -/
def bytesOfBits (l : List Bool) : List Byte := (groups 8 (l.length / 8) l).map (BitVec.ofNat 8)

/-- SYNC. -/
def syncBits : List Bool := lowBits 16 0xA35C

/-- One step of the scrambler (R356). -/
def prbsNext (s : Nat) : Bool × Nat :=
  let p := s.testBit 30 != s.testBit 27
  (p, s * 2 % 2 ^ 31 + if p then 1 else 0)

/-- The scrambler's state for a SEED. -/
def seedState (seed : Nat) : Nat :=
  match seed with
  | 0 => 0x7FFFFFFF
  | 1 => 0x2AAAAAAA
  | 2 => 0x0F0F0F0F
  | _ => 0x33333333

/-- Scramble bits from a state; it is its own inverse. Answers the state after them. -/
def scramble : Nat → List Bool → List Bool × Nat
  | s, [] => ([], s)
  | s, b :: t =>
    let p := prbsNext s
    let r := scramble p.2 t
    ((b != p.1) :: r.1, r.2)

/-- The run of equal line bits after one more bit. -/
def runBit (r : Bool × Nat) (b : Bool) : Bool × Nat := if r.1 = b then (b, r.2 + 1) else (b, 1)

/-- Stuff content bits (R357): the line bits, the run after them, the stuff bits. -/
def stuff : Bool × Nat → List Bool → List Bool × (Bool × Nat) × Nat
  | r, [] => ([], r, 0)
  | r, b :: t =>
    if 47 ≤ r.2 then
      let x := stuff (runBit (!r.1, 1) b) t
      ((!r.1) :: b :: x.1, x.2.1, x.2.2 + 1)
    else
      let x := stuff (runBit r b) t
      (b :: x.1, x.2)

/-- Alternating bits, `n` of them (R358). -/
def alternate : Nat → Bool → List Bool
  | 0, _ => []
  | n + 1, b => b :: alternate n (!b)

/-- Take `n` content bits from the line (R361): them, the line that is left, whether every stuff bit was right. -/
def destuff : Nat → Bool × Nat → List Bool → List Bool × List Bool × Bool
  | 0, _, l => ([], l, true)
  | _ + 1, _, [] => ([], [], false)
  | n + 1, r, b :: t =>
    if 47 ≤ r.2 then
      match t with
      | [] => ([], [], false)
      | c :: u =>
        let x := destuff n (runBit (runBit r b) c) u
        (c :: x.1, x.2.1, x.2.2 && b != r.1)
    else
      let x := destuff n (runBit r b) t
      (b :: x.1, x.2)

/-- The content of a superblock before scrambling, without RESERVE (R353, R355): `flags` are RCHIP, RON, RFAULT. -/
def contentBits (seed lane sbseq : Nat) (flags : List Bool) (ws : List LineWord) : List Bool :=
  let head := lowBits 2 seed ++ flags ++ lowBits 3 lane ++ lowBits 16 sbseq ++ lowBits 8 0
  let body := ws.map LineWord.ctl ++ lowBits 3 0 ++ ws.flatMap (fun w => lowBits 64 w.val.toNat) ++ lowBits 16 0
  syncBits ++ head ++ lowBits 16 (crc16 (bytesOfBits head)) ++ body ++ lowBits 32 (crc32 (bytesOfBits body))

/-- The content as scrambled from a seed, and the scrambler's state after content bit 4,079. -/
def scrambled (seed : Nat) (c : List Bool) : List Bool × Nat :=
  let x := scramble (seedState seed) (c.drop 18)
  (c.take 18 ++ x.1, x.2)

/-- Multiply in the field of the FEC: GF(2^10) modulo x^10 + x^3 + 1. R362 names the code; its field, generator and bit order are those of IEEE
802.3 (PRESUMED, log entry 31). -/
def gfMul (a b : Nat) : Nat :=
  ((List.range 10).foldl (fun (x : Nat × Nat) i =>
    (if b.testBit i then x.1 ^^^ x.2 else x.1, let d := x.2 * 2; if d.testBit 10 then d ^^^ 0x409 else d)) (0, a)).1

/-- Multiply a polynomial, constant term first, by x + `r`. -/
def polyRoot (g : List Nat) (r : Nat) : List Nat := List.zipWith (· ^^^ ·) (0 :: g) ((g.map (gfMul r)) ++ [0])

/-- The generator of RS(544,514), constant term first: roots 2^0 to 2^29; without its leading term, which is 1. -/
def rsGen : List Nat :=
  ((List.range 30).foldl (fun (x : List Nat × Nat) _ => (polyRoot x.1 x.2, gfMul x.2 2)) ([1], 1)).1.take 30

/-- One message symbol enters the division register, constant term first. -/
def rsStep (g reg : List Nat) (m : Nat) : List Nat :=
  let f := m ^^^ reg.getD 29 0
  List.zipWith (fun a b => a ^^^ gfMul f b) (0 :: reg.take 29) g

/-- The 30 parity symbols of a message, in the order sent. -/
def rsParity (msg : List Nat) : List Nat :=
  let g := rsGen
  (msg.foldl (rsStep g) (List.replicate 30 0)).reverse

/-- The pad of R362, as a field whose bit 0 is sent first. -/
def padBits : List Bool := lowBits 4 5

/-- The 300 parity bits of a superblock's line bits, before scrambling. -/
def parityBits (line : List Bool) : List Bool := (rsParity (groups 10 410 (line ++ padBits))).flatMap (lowBits 10)

/-- The run after more bits; none if a run passes 47 (R363). -/
def runOn : Bool × Nat → List Bool → Option (Bool × Nat)
  | r, [] => some r
  | r, b :: t => if 47 < (runBit r b).2 then none else runOn (runBit r b) t

/-- A superblock as it would leave: its seed, its bits, the run after them, its stuff bits. -/
structure SbLine where
  seed : Nat
  bits : List Bool
  run : Bool × Nat
  stuffed : Nat
  deriving DecidableEq, Repr

/-- One seed tried (R358, R359, R363): none where it does not serve. -/
def trySeed (fec : Bool) (run : Bool × Nat) (c : List Bool) (seed : Nat) : Option SbLine :=
  let x := scrambled seed c
  let y := stuff run x.1
  if 16 < y.2.2 then none
  else
    let fill := alternate (16 - y.2.2) (!y.2.1.1)
    let line := y.1 ++ fill
    let r := fill.foldl runBit y.2.1
    if fec then
      let tail := padBits ++ (scramble x.2 (parityBits line)).1
      (runOn r tail).map fun z => ⟨seed, line ++ tail, z, y.2.2⟩
    else some ⟨seed, line, r, y.2.2⟩

/-- One word position of a port in a superblock (R367, R369, R377, R730): part of a time word, the NEG word, the WAKE word, a word that R360 has
made IDLE, or one for the port's stream. -/
inductive WordSlot where
  | time (w : LineWord)
  | neg (w : LineWord)
  | wake (w : LineWord)
  | idle
  | free
  deriving DecidableEq, Repr

/-- The IDLE word. -/
def idleWord : LineWord := ⟨true, 0⟩

/-- Fill the free positions with `n` words of a stream, IDLE after them. -/
def fillSlots : List WordSlot → Nat → List LineWord → List LineWord
  | [], _, _ => []
  | .time w :: t, n, q => w :: fillSlots t n q
  | .neg w :: t, n, q => w :: fillSlots t n q
  | .wake w :: t, n, q => w :: fillSlots t n q
  | .idle :: t, n, q => idleWord :: fillSlots t n q
  | .free :: t, n + 1, w :: q => w :: fillSlots t n q
  | .free :: t, n, q => idleWord :: fillSlots t n q

/-- Positions for the stream. -/
def freeCount (l : List WordSlot) : Nat := (l.filter (· == .free)).length

/-- R360 replaces the last word that is neither part of a time word nor IDLE already (DEDUCED, log entry 32); `rl` are the positions from the
last back, `n` the stream words placed, `k` the free positions up to here. None when there is none. -/
def deferWord : List WordSlot → Nat → Nat → Option (List WordSlot × Nat)
  | [], _, _ => none
  | .free :: t, n, k => if k ≤ n ∧ 0 < k then some (.free :: t, k - 1) else (deferWord t n (k - 1)).map fun x => (.free :: x.1, x.2)
  | .neg _ :: t, n, _ => some (.idle :: t, n)
  | .wake _ :: t, n, _ => some (.idle :: t, n)
  | a :: t, n, k => (deferWord t n k).map fun x => (a :: x.1, x.2)

/-- Word positions of a port, in the order of R369, by lane. -/
def laneWords (width k : Nat) (ws : List LineWord) : List LineWord := (List.range 61).map fun i => ws.getD (i * width + k) idleWord

/-- Try to send the words (R359, R360): with each replacement every lane tries its seeds again. Answers the positions and stream words used, the
lanes' superblocks, the replacements. `mk` gives a lane's content from its seed and words, `runs` the lanes' runs. -/
def sendLoop (fec : Bool) (runs : List (Bool × Nat)) (mk : Nat → Nat → List LineWord → List Bool) (q : List LineWord) :
    Nat → List WordSlot → Nat → Nat → Option (List WordSlot × Nat × List SbLine × Nat)
  | 0, _, _, _ => none
  | fuel + 1, slots, n, reps =>
    let ws := fillSlots slots n q
    let tries := runs.zipIdx.map fun x => [0, 1, 2, 3].findSome? fun seed =>
      trySeed fec x.1 (mk x.2 seed (laneWords runs.length x.2 ws)) seed
    if tries.all Option.isSome then some (slots, n, tries.filterMap id, reps)
    else
      match deferWord slots.reverse n (freeCount slots) with
      | some y => sendLoop fec runs mk q fuel y.1.reverse y.2 (reps + 1)
      | none => none

/-- Does a lane's rate use the FEC (R362)? -/
def fecRate (rate : Nat) : Bool := rate == 5 || rate == 6

/-- The words of a time word (R364): TIME with its DOM, then the eight dwords. -/
def timeWords (dom : Nat) (ws : List Word) : List LineWord :=
  ⟨true, BitVec.ofNat 64 (0x47 + dom * 2 ^ 8)⟩ :: (List.range 4).map fun j => ⟨false, BitVec.ofNat 64 (join (dwAt ws (2 * j + 1)) (dwAt ws (2 * j)))⟩

/-- A time word's positions, or five free ones. -/
def timeSlots (x : PortSt) (dom : Nat) : List WordSlot :=
  match AMap.get x.times dom with
  | some ws => (timeWords dom ws).map .time
  | none => List.replicate 5 .free

/-- The word positions of port `p`'s next superblock. -/
def sbSlots (s : State) (p : Nat) : List WordSlot :=
  let x := portRec s p
  let trunk := portIs s p 1
  let neg := trunk && (trkSt s p != 7 || x.sb % 1024 == 0)
  let lane0 : List WordSlot := (if trunk then timeSlots x 0 ++ timeSlots x 1 else List.replicate 10 .free) ++
    [if neg then .neg ⟨true, negWord s p⟩ else .free] ++ List.replicate 9 .free ++
    [match x.wakes with
     | w :: _ => if trunk then .wake ⟨true, BitVec.ofNat 64 w⟩ else .free
     | [] => .free] ++ List.replicate 40 .free
  lane0.flatMap fun a => a :: List.replicate (portWidth s p - 1) .free

/-- Of the running jobs that range a port and satisfy `ok`, the one whose GO came first. Jobs of one port range in turn (DESIGN CHOICE, log entry 181). -/
def rangingJob (s : State) (p : Nat) (ok : Grotto → Nat → Bool) : Option Nat :=
  ((List.range 8).filter fun j => s.fld (grtCfg j) 1 0 == 2 && grtPort s j == p && grtState s j == 2 && ok (jobRec s j) j).foldl
    (fun (a : Option Nat) j => match a with
      | none => some j
      | some i => if (jobRec s j).goAt < (jobRec s i).goAt then some j else some i) none

/-- The job whose chip a port's superblock that starts `sub` after the last tick carries (R326): its start instant has come and its code is not all sent. -/
def sendingJob (s : State) (p sub : Nat) : Option Nat :=
  rangingJob s p fun x j => decide (x.start ≤ nodeTime s + sub) && decide (x.chips < 4095 * (s.fld (grtCfg j) 21 12 + 1))

/-- Chip `i` of the ranging code (R326): the register of x^12 + x^6 + x^4 + x + 1 from all ones. The spec does not say how the polynomial is
wired; a(n + 12) = a(n + 6) + a(n + 4) + a(n + 1) + a(n) (DEDUCED, log entry 33). -/
def rangeChip (i : Nat) : Bool :=
  ((List.range (i % 4095)).foldl (fun (r : Nat) _ =>
    r / 2 + (if (r.testBit 0 != r.testBit 1) != (r.testBit 4 != r.testBit 6) then 2 ^ 11 else 0)) 0xFFF).testBit 0

/-- RCHIP and RON of a port's superblock on its first lane (R326, R353), which starts `sub` after the last tick. -/
def rangeBits (s : State) (p sub : Nat) : Bool × Bool :=
  match sendingJob s p sub with
  | some j => (rangeChip (jobRec s j).chips, true)
  | none => (false, false)

/-- The chip of a ranging job has left with a superblock that started `sub` after the last tick (R326, R327): the departure of each chip 0 is kept. -/
def chipLeft (s : State) (p sub : Nat) : State :=
  match sendingJob s p sub with
  | some j =>
    let x := jobRec s j
    setJobRec s j { x with chips := x.chips + 1, left := if x.chips % 4095 = 0 then (s.sun.d0.t + sub) :: x.left else x.left }
  | none => s

/-- The ranging code as +1 and -1 from register state `r` on (R326). -/
def rangeSigns : Nat → Nat → List Int
  | 0, _ => []
  | n + 1, r =>
    (if r.testBit 0 then 1 else -1) ::
      rangeSigns n (r / 2 + (if (r.testBit 0 != r.testBit 1) != (r.testBit 4 != r.testBit 6) then 2 ^ 11 else 0))

/-- What a stretch of received chips, oldest first, correlates to with the ranging code. -/
def chipCorr (l : List Int) : Int := (List.zipWith (fun a b : Int => a * b) l (rangeSigns 4095 0xFFF)).sum

/-- A superblock of a port's first lane has arrived at domain 0 time `t` with RCHIP and RON (R326, R327): once the last 4,095 chips agree with the code, with
more than half of them in excess of those that do not (DESIGN CHOICE, log entry 182), the oldest is the peer's chip 0. -/
def chipCame (s : State) (p t : Nat) (chip on : Bool) : State :=
  match rangingJob s p fun x _ => x.came.isNone with
  | some j =>
    let x := jobRec s j
    let l := (((if on then (if chip then 1 else -1) else 0 : Int), t) :: x.heardChips).take 4095
    let hit := decide (l.length = 4095) && decide (2047 < chipCorr (l.reverse.map (·.1)))
    setJobRec s j { x with heardChips := if hit then [] else l, came := if hit then (l.getLast?.map (·.2)) else none }
  | none => s

/-- Do the lanes of a trunk or local port send superblocks (R374, R384)? -/
def sendsLine (s : State) (p : Nat) : Bool :=
  s.alive && (trunkRuns s p || (portIs s p 2 && decide (trkSt s p ≠ 0))) && allLanes s p 2

/-- Does lane `l` receive superblocks? -/
def receivesLine (s : State) (p l : Nat) : Bool :=
  s.alive && (trunkRuns s p || portIs s p 2) && decide (2 ≤ trkSt s p) && s.flag (lanB l + 0x040) 1

/-- What a receiver reads of a superblock: whether SYNC and HCHK hold, whether all of it does (R368), RCHIP and RON, its SBSEQ and its words. -/
structure SbRead where
  head : Bool
  good : Bool
  chip : Bool
  ron : Bool
  sbseq : Nat
  words : List LineWord
  deriving DecidableEq, Repr

/-- Read the 4,096 line bits of a superblock after a run (R353 to R361). -/
def readSb (run : Bool × Nat) (line : List Bool) : SbRead :=
  let d := destuff 4080 run (line.take 4096)
  let c := (scrambled (natOfBits ((d.1.drop 16).take 2)) d.1).1
  let head := (c.drop 16).take 32
  let body := (c.drop 64).take 3984
  let ok := decide (c.length = 4080) && c.take 16 == syncBits && natOfBits ((c.drop 48).take 16) == crc16 (bytesOfBits head)
  { head := ok, chip := c.getD 18 false, ron := c.getD 19 false, good := ok && d.2.2 && natOfBits (c.drop 4048) == crc32 (bytesOfBits body), sbseq := natOfBits ((c.drop 24).take 16),
    words := List.zipWith LineWord.mk (body.take 61) ((groups 64 61 (body.drop 64)).map (BitVec.ofNat 64)) }

/-- Correct symbols of a codeword: `fix` gives the symbols and their errors. -/
def fixBits (bs : List Bool) (fix : List (Fin 440 × BitVec 10)) : List Bool :=
  let e := fix.foldl (fun (a : List Nat) x => a.set x.1.val (a.getD x.1.val 0 ^^^ x.2.toNat)) (List.replicate 440 0)
  List.zipWith (fun (a b : Bool) => a != b) bs (e.flatMap (lowBits 10))

/-- Is a corrected superblock with its pad and parity a codeword (R362)? `run` is the run before it. -/
def codeword (run : Bool × Nat) (bs : List Bool) : Bool :=
  let d := destuff 4080 run (bs.take 4096)
  let st := (scrambled (natOfBits ((d.1.drop 16).take 2)) d.1).2
  decide (bs.length = 4400) && (bs.drop 4096).take 4 == padBits && (scramble st (bs.drop 4100)).1 == parityBits (bs.take 4096)

end Sys2Proof.Machine
end

