-- ==== Sys2Proof/Machine/Reset.lean ====
section
/-!
DEFINITION. Reset.lean: resets, start-up, the test access port and the PCIe function, one meaning per row of the table
(16_pins_package_electrical.md R799 to R814; 12_host_rings.md R607, R665; 14_power_and_feeds.md R720, R746, R747). A row whose condition does not
hold changes nothing.
-/
namespace Sys2Proof.Machine

/-- The Gatehouse is reset as a function-level reset resets it (R52, R665): every HIF register but the lock bit and the state of the link; rings
and completion queues; the host port's queues; cues whose validation had not ended. -/
def resetHif (s : State) : State :=
  let lock := s.rd (hifB + 0x00C)
  let status := s.rd (hifB + 0x040) &&& 0x000F0F07
  let s1 := flushHost s
  let s2 := { s1 with
    regs := AMap.keep s1.regs fun a _ => a / 65536 != hifB / 65536
    hif := { s1.hif with held := [], fnMask := false, rings := [], cqs := [] } }
  let s3 := forEach s2.cue.waiting s2 fun x t => match x.slot with
    | some k => freeCue t k (t.fld (slotReg k) 31 24)
    | none => t
  ({ s3 with cue := { s3.cue with waiting := [] } }.wr (hifB + 0x00C) lock).wr (hifB + 0x040) status

/-- FUNCTION_LEVEL_RESET (R639, R665): the FLR event tells that it has completed. -/
def execFunctionLevelReset (s : State) : Result := if s.alive then .next (hifEvent (resetHif s) 4) else .next s

/-- PERST_ASSERT (R805). -/
def execPerstAssert (s : State) : Result :=
  let s1 := { s with pwr := { s.pwr with perstLow := true } }
  if s.alive then .next (setLink (resetHif s1) 4 0 0) else .next s1

/-- PERST_DEASSERT (R728, R804): in P2 and P3 it latches HOST_RESET; link training starts once the Gatehouse is ready. -/
def execPerstDeassert (s : State) : Result :=
  if !s.pwr.perstLow then .next s
  else
    let s1 := { s with pwr := { s.pwr with perstLow := false } }
    if s.pstate = 2 ∨ s.pstate = 3 then .next (pwrEvent s1 6) else .next s1

/-- LODGE_POWER_ON (R725, R801): every register of the device is reset, the Lodge counter stands at zero seconds, NVM contents stay; a chip reset
follows. -/
def execLodgePowerOn (s : State) : Result :=
  .next { State.reset with
    pending := s.pending
    busOut := s.busOut
    fresh := s.fresh
    sent := (resetBalls s).sent
    elapsed := s.elapsed
    held := true
    nvm := { bytes := s.nvm.bytes }
    clk := { oscLost := s.pwr.lapse }
    sun := { stopped := true }
    pwr := { lodgeAt := s.elapsed, lodgeOn := false, lapse := s.pwr.lapse, fet := none, railEn := false, railGood := false,
             pinLow := s.pwr.pinLow, perstLow := s.pwr.perstLow, testen := s.pwr.testen, loading := false } }

/-- LODGE_START (R803 step 2): OSCIN has been seen and the feeds sampled, `va` and `vb` in 10 mV. -/
def execLodgeStart (va vb : BitVec 16) (s : State) : Result :=
  if s.pwr.lodgeOn ∨ s.pwr.lapse then .next s
  else
    let s1 := takeVolts { s with pwr := { s.pwr with lodgeOn := true, lodgeAt := s.elapsed } } va vb
    let s2 := setFeedOk (setFeedOk s1 0 (inRange s1 0)) 1 (inRange s1 1)
    let f := prefFeed s2
    .next (if feedOk s2 f then takeFeed s2 f else if feedOk s2 (1 - f) then takeFeed s2 (1 - f) else feedFault s2)

/-- RAIL_ENABLE (R803 step 3): 1 ms after the first FET turned on. -/
def execRailEnable (s : State) : Result :=
  if s.pwr.lodgeOn ∧ s.pwr.fet.isSome ∧ s.held ∧ s.pstate ≠ 3 then .next (raiseRails s) else .next s

/-- RAIL_GOOD_RISE (R799, R803 step 4). -/
def execRailGoodRise (s : State) : Result :=
  if s.pwr.railEn ∧ !s.pwr.railGood then .next { s with pwr := { s.pwr with railGood := true, railWait := false } } else .next s

/-- RAIL_GOOD_TIMEOUT (R720): 100 ms after RAIL_EN the Lodge lowers it and returns to P3. -/
def execRailGoodTimeout (s : State) : Result :=
  if s.pwr.railWait then .next (feedFault ((setChange (dropRails s) .idle 3).setFld (pwrB + 0x040) 31 30 3)) else .next s

/-- RAIL_GOOD_FALL (R736, R806, R808). -/
def execRailGoodFall (s : State) : Result :=
  if s.pwr.railEn ∧ s.pwr.railGood then
    let s1 := { s with pwr := { s.pwr with railGood := false } }
    .next (feedFault (endChange (holdChip s1)))
  else .next s

/-- RAIL_OFF_HOLD_END (R800). -/
def execRailOffHoldEnd (s : State) : Result :=
  if s.pwr.railLow then
    let s1 := { s with pwr := { s.pwr with railLow := false } }
    .next (if s.pwr.railWant then raiseRails s1 else s1)
  else .next s

/-- CHIP_RESET_PIN (R807, R808): CHIP_RESET_N has been low for 1 us (`low`), or rises again. In P2 and P3 it ends that state, and RAIL_EN rises. -/
def execChipResetPin (low : Bool) (s : State) : Result :=
  if !low then .next { s with pwr := { s.pwr with pinLow := false } }
  else
    let s1 := holdChip { s with pwr := { s.pwr with pinLow := true }, irq := { s.irq with p3Latched := [] } }
    let s2 := if s.pstate = 3 then raiseRails s1 else s1
    .next (endChange s2)

/-- CHIP_RESET (R770, R782, R802): every register but those of PWR, NVM and the wake state at its reset value, and every cell self-tested: `fails`
lists those that fail, as kind (0 lane, 1 buffer bank, 2 compute cell, 3 table bank, 4 TDC interpolator), Pavilion and index. FEED_FAULT (source 450)
may have latched while the chip is held, and stays pending (R806). -/
def execChipReset (fails : List (Fin 5 × Fin 8 × Fin 16)) (s : State) : Result :=
  if s.held then
    let s1 := setPend (resetBlocks s) 450 (s.flag (irqB + 0x170) 2)
    .next { s1 with pwr := { s1.pwr with failed := fails.map fun x => 256 * x.1.val + 16 * x.2.1.val + x.2.2.val } }
  else .next s

/-- A cell that failed its self-test is retired (R782). What CODE its record holds the spec does not state (log entry 2). -/
def failCell (s : State) (x : Nat) : State :=
  let r := x / 16 % 16
  let i := x % 16
  match x / 256 with
  | 0 => retireLane s (16 * r + i)
  | 1 => retireBank s true r i
  | 2 => retireCompute s.drawn (16 * r + i) s.freeCode
  | 3 => retireBank s false r i
  | _ =>
    let s1 := setTdcCh s.drawn i { tdcCh s i with retired := true }
    recordRetire (latchErr s1 ⟨.tdc, 0, 0⟩ 0x07 (0x400 + 0x40 * i) .host) 4 0xF i s.freeCode false

/-- The chip comes out of reset (R171, R267, R274, R695, R715, R782, R803 step 5): in START and STATE P0, both domain counters at the Lodge counter,
calibration loaded, failed cells retired; firmware loads from now on (R803, R814); after a restart from P3 TARGET reads
WAKE_TO and the sources that latched in P3 are pending. -/
def releaseChip (s : State) : State :=
  let back := s.pwr.change = .restart
  let t := if back ∧ wakeToP1 s then 1 else 0
  let s1 := { (s.setFld (pwrB + 0x040) 31 30 0).setFld (pwrB + 0x040) 29 28 t with held := false }
  let s2 := loadCal (alignVco (loadSundial { s1 with tbl := { s1.tbl with ageAt := s1.elapsed } }))
  let s3 := forEach s2.pwr.failed { s2 with pwr := { s2.pwr with failed := [] } } fun x y => failCell y x
  let s4 := if back then forEach s3.irq.p3Latched s3 fun n y => setPend y n true else s3
  ({ s4 with irq := { s4.irq with p3Latched := [] }, pwr := { s4.pwr with loading := true } }).emit (.flashDrive true)

/-- CHIP_RESET_RELEASE (R803 step 5): RAIL_GOOD and CHIP_RESET_N have been high for 1 ms. -/
def execChipResetRelease (s : State) : Result :=
  if s.held ∧ s.pwr.lodgeOn ∧ s.pwr.railEn ∧ s.pwr.railGood ∧ !s.pwr.pinLow ∧ !s.pwr.testen then .next (releaseChip s) else .next s

/-- A byte as it is shifted out on FLASH_IO0: bit 7 first. -/
def flashByte (b : Nat) : List Bool := (List.range 8).map fun i => b.testBit (7 - i)

/-- A Fast Read of `n` bytes from address `a` (R813): command 0x0B, three address bytes, 8 dummy clocks, and 8 clocks a byte. -/
def fastRead (a : BitVec 24) (n : Nat) : Output :=
  .flash (flashByte 0x0B ++ flashByte (bits (a.setWidth 32) 23 16) ++ flashByte (bits (a.setWidth 32) 15 8) ++ flashByte (bits (a.setWidth 32) 7 0)) (8 * n)

/-- FIRMWARE_LOAD (R32, R803 step 5, R813, R814): management core 0 reads the flash, whose balls are high impedance afterwards, and runs the image only
if it is correctly signed; source 17 either way. It loads once after each release of chip reset. -/
def execFirmwareLoad (x : FlashLoad) (s : State) : Result :=
  if s.alive ∧ s.pwr.loading then
    let s1 := forEach x.reads s fun r t => t.emit (fastRead r.1 r.2.length)
    .next (latchSource ({ s1 with pwr := { s1.pwr with firmware := x.good, loading := false } }.emit (.flashDrive false)) 17)
  else .next s

/-- GATEHOUSE_READY (R803 step 6). -/
def execGatehouseReady (s : State) : Result := if s.alive then .next { s with pwr := { s.pwr with ready := true } } else .next s

/-- Where image slot `k` starts (R742). -/
def imageAt (k : Nat) : Nat := 0x80000 + 0x80000 * k

/-- How many entries an image has. -/
def imageEntries (s : State) (k : Nat) : Nat := bits (nvmWord s (imageAt k)) 19 0

/-- Is an image slot usable (R746, R747)? -/
def imageGood (s : State) (k : Nat) : Bool :=
  let a := imageAt k
  let n := imageEntries s k
  decide (bits (nvmWord s a) 31 24 = 1) && decide (16 + 12 * n ≤ 0x80000) &&
    decide (nvmWord s (a + 12) = w32 (crc32 (nvmBytes s a 12 ++ nvmBytes s (a + 16) (12 * n))))

/-- The image slot that firmware uses (R747): the usable one, of two the one with the higher SEQ modulo 2^32. -/
def imageSlot (s : State) : Option Nat :=
  if imageGood s 0 then
    (if imageGood s 1 ∧ 0 < ((nvmWord s (imageAt 1 + 4)) - (nvmWord s (imageAt 0 + 4))).toInt then some 1 else some 0)
  else if imageGood s 1 then some 1 else none

/-- The firmware's core as a master. -/
def fwMaster : Master := .core 0 true

/-- The code of a write of an image entry: that of the checks of R89. -/
def imageWriteCode (s : State) (a : Nat) (v : Word) : Nat :=
  if a % 4 ≠ 0 then 0x11
  else
    match resolve a with
    | none => 0x06
    | some (b, o) =>
      match regAt b o with
      | none => 0x06
      | some f => writeCode s fwMaster ⟨b, o, f.row, f.i, f.j⟩ v false

/-- An entry's write that fails its checks latches its code as any other (R88). -/
def refuseEntry (s : State) (a code : Nat) : State :=
  match resolve a with
  | none => reservedAccess s fwMaster true 0xF a
  | some (b, o) => refuse s fwMaster b code o (ownAddr a)

/-- One entry is applied as a masked write, a DW register as a pair; one that fails its checks is skipped and counted (R747), and its code is
latched (R88). -/
def applyEntry (s : State) (a : Nat) (v mask : Word) : State :=
  let old := match regOf a with
    | some x => s.rd x.home
    | none => 0
  let w := (old &&& ~~~mask) ||| (v &&& mask)
  let code := imageWriteCode s a w
  if code ≠ 0 then (refuseEntry s a code).setFld (nvmB + 0x040) 31 16 (min 0xFFFF (s.fld (nvmB + 0x040) 31 16 + 1))
  else
    let s1 := busWrite s fwMaster 0xF a w false
    match regOf a with
    | some x => if x.row.cls = .dw then busWrite s1 fwMaster 0xF (a + 0x800) (~~~w) false else s1
    | none => s1

/-- CONFIG_IMAGE_APPLY (R746, R747, R803 step 7): by running firmware, once, during START. -/
def execConfigImageApply (s : State) : Result :=
  if s.alive ∧ s.pwr.firmware ∧ !s.pwr.imaged ∧ s.mode = 0 then
    let s1 := { s with pwr := { s.pwr with imaged := true } }
    match imageSlot s with
    | none => .next (s1.setFld (nvmB + 0x040) 1 0 3)
    | some k =>
      let a := imageAt k
      let s2 := { s1.setFld (nvmB + 0x040) 1 0 k with pwr := { s1.pwr with subsys := nvmWord s (a + 8) } }
      .next (forEach (List.range (imageEntries s k)) s2 fun i t =>
        let e := a + 16 + 12 * i
        applyEntry t (nvmWord s e).toNat (nvmWord s (e + 4)) (nvmWord s (e + 8)))
  else .next s

/-- TESTEN_HIGH (R810): TESTEN is high and holds the chip in reset (`high`), or falls again. -/
def execTestenHigh (high : Bool) (s : State) : Result :=
  let s1 := { s with pwr := { s.pwr with testen := high } }
  if high then .next (endChange (holdChip s1)) else .next s1

/-- Does the test access port work: VDD_CORE and VDD_IO in range (R812)? -/
def tapWorks (s : State) : Bool := s.pwr.railEn && s.pwr.railGood

/-- The port's instruction becomes `i`. -/
def setTap (s : State) (i : Nat) : State := { s with pwr := { s.pwr with tap := i } }

/-- JTAG_BYPASS (R811): the one-bit bypass register, which holds 0, is selected. -/
def execJtagBypass (s : State) : Result := if tapWorks s then .next ((setTap s 0).emit (.tdo [false])) else .next s

/-- The identification code (R811). -/
def idCode : Word := fieldW 27 12 0x7260 ||| fieldW 11 1 Config.jedecId.toNat ||| 1

/-- JTAG_IDCODE (R811): the code is shifted out, bit 0 first. -/
def execJtagIdcode (s : State) : Result :=
  if tapWorks s then .next ((setTap s 1).emit (.tdo ((List.range 32).map (bit idCode)))) else .next s

/-- JTAG_SAMPLE_PRELOAD (R811): the levels of the balls, `pins`, are sampled and shifted out, and `data` is preloaded. -/
def execJtagSamplePreload (pins data : List Bool) (s : State) : Result :=
  if tapWorks s then
    let s1 := setTap s 2
    .next ({ s1 with pwr := { s1.pwr with boundary := data } }.emit (.tdo pins))
  else .next s

/-- JTAG_EXTEST (R811, R812): the boundary register is driven onto the balls while the chip is held in reset; BYPASS otherwise. -/
def execJtagExtest (s : State) : Result :=
  if !tapWorks s then .next s
  else if s.held then .next ((setTap s 3).emit (.drive s.pwr.boundary)) else .next ((setTap s 0).emit (.tdo [false]))

/-- JTAG_HIGHZ (R811, R812). -/
def execJtagHighz (s : State) : Result :=
  if !tapWorks s then .next s
  else if s.held then .next ((setTap s 4).emit .highz) else .next ((setTap s 0).emit (.tdo [false]))

/-- The function mask changes (R657): messages that it held back leave. -/
def setFnMask (s : State) (mask : Bool) : State :=
  let s1 := { s with hif := { s.hif with fnMask := mask } }
  if s.hif.fnMask && !mask && canSend s1 then
    forEach ((List.range 256).filter fun v => s1.flag (hifB + 0x9000 + 4 * (v / 32)) (v % 32)) s1 fun v t => msixEmit t v
  else s1

/-- A dword of configuration space (R607): the identities that the spec gives; the rest is PCIe's own, a free value. -/
def cfgRead (s : State) (off : Nat) : Word × State :=
  match off / 4 with
  | 0 => (0x72600000 ||| w32 Config.vendorId.toNat, s)
  | 2 => (0x028000A0, s)
  | 11 => (bits s.pwr.subsys 31 16 + bits s.pwr.subsys 15 0 * 65536 |> w32, s)
  | _ => (s.free, s.drawn)

/-- PCIE_CONFIG_REQUEST (R804): retried until the configuration image has been applied; then it reads, or changes the function (R639, R662,
R665). -/
def execPcieConfigRequest (x : CfgReq) (s : State) : Result :=
  if !s.alive ∨ !s.pwr.ready ∨ s.pwr.perstLow ∨ linkState s = 4 then .next s
  else if !s.pwr.imaged then .next (s.emit (.cfg true 0))
  else
    match x with
    | .read off =>
      let y := cfgRead s off.toNat
      .next (y.2.emit (.cfg false y.1))
    | .command bme => .next ((setFunction s (fnD3 s) bme (fnMsix s)).emit (.cfg false 0))
    | .power d0 clearPme =>
      let s1 := if clearPme then { s with hif := { s.hif with pme := false } } else s
      .next ((setFunction s1 (!d0) (fnBme s) (fnMsix s)).emit (.cfg false 0))
    | .msix enable mask => .next ((setFnMask (setFunction s (fnD3 s) (fnBme s) enable) mask).emit (.cfg false 0))
    | .flr => .next ((hifEvent (resetHif s) 4).emit (.cfg false 0))

end Sys2Proof.Machine
end

