-- ==== Sys2Proof/Machine/Line.lean ====
section
/-!
DEFINITION. Line.lean: frames received by network ports (R347, R348, R397, R429 to R432, R441 to R443) and superblocks sent and received
(R353 to R373), one meaning per row of the table.
-/
namespace Sys2Proof.Machine

/-- The length check of R348. -/
def lenBad (bs : List Byte) (h : Hdr) : Bool :=
  let l := getNet bs h.toff 2
  let data := bs.length - 4 - (h.toff + 2)
  decide (l ≤ 1500) && (decide (data < l) || (decide (l < data) && decide (64 < bs.length)))

/-- The first row of R347 that a frame meets, as the offset of its counter: `code` says that row 1 was found, `abort` that ABORT ended it. -/
def rxRow (s : State) (p : Nat) (bs : List Byte) (code abort : Bool) : Option Nat :=
  if code then some 0x130
  else if abort ∧ !portIs s p 0 then some 0x138
  else if bs.length < 64 then some 0x124
  else if maxLen s p < bs.length then some 0x128
  else if !fcsGood bs then some 0x120
  else if s.flag (macB p + 0x40) 5 ∧ lenBad bs (parse bs) then some 0x12C
  else if (parse bs).ety = 0x8808 then some 0x134
  else none

/-- The frame of a network port: `sub` is when it arrived, in 2^-40 ns after the last tick (R170, R196 to R198, R205). A local port gives no
stamp. -/
def rxFrame (s : State) (p : Nat) (bs : List Byte) (sub : Nat) : Frame :=
  let d := domOfCode (s.fld (sunB + 0x1000 + 0x10 * p) 3 2)
  let adj := -(ingressAdj s p s.sw.next)
  let at_ := placedSub s sub
  let h := parse bs
  let event : Bool := match ptpType bs h with
    | some t => decide (t ≤ 3)
    | none => false
  { id := s.sw.next, bytes := bs, ing := p, cls := 0,
    stamp := if portIs s p 2 then none else some (compactStamp s d (shiftTime (timeOf s d + at_) adj) false 0),
    inNode := shiftTime (nodeTime s + at_) adj,
    tc := if ptpMode s p = 2 ∧ event then some p else none }

/-- A sampled copy is taken with probability 1 / N (R441 to R443): the draw is free (log entry 2), and so is the room of the sample queue (log entry
92). -/
def takeSample (s : State) (p : Nat) (f : Frame) : State :=
  let cfg := s.rd (queSlot p + 0x024)
  if !bit cfg 0 then s
  else if s.free.toNat % s.fld (queSlot p + 0x028) 23 0 ≠ 0 then s.drawn
  else if hostPortDown s ∨ Config.sampleRoom ≤ s.sw.samples.length then s.drawn.count (quePortCtr p + 0x0C)
  else
    let x : Sample :=
      { ring := bits cfg 31 24, port := p, cls := f.cls, len := f.bytes.length, trunc := bits cfg 23 16, stamp := f.stamp.getD 0,
        bytes := f.bytes.take (16 * bits cfg 23 16) }
    { s.drawn with sw := { s.sw with samples := s.sw.samples ++ [x] } }

/-- A copy that left cut-through before its frame was found bad (R430 to R432): an Ethernet port ends it with a wrong FCS, a trunk or local
port with ABORT. -/
def stompCopy (s : State) (f : Frame) (q : Nat) : State :=
  let t := f.cls
  let r := some (attachOf q)
  let s1 := perfCount (countQueue s q t 0) r { ev := 0x01, cls := some t } 1
  let s2 := perfCount (s1.count (quePortCtr q + 4)) r { ev := 0x04, cls := some t } 1
  let body := ptpRewrite s2 q f (vlanRewrite s2 q f (f.bytes.take (f.bytes.length - 4))) (nodeTime s2)
  if portIs s2 q 0 then (s2.count (macB q + 0x13C)).emit (.frame q t (body ++ bytesOfNat 4 (crc32 body ^^^ 0xFFFFFFFF)) true)
  else streamFrame ((s2.count (macB q + 0x140)).emit (.frame q t body true)) q t body true

/-- A copy of a frame of which another copy has left cut-through, and that is found bad: admitted or dropped as any copy, then withdrawn unsent (R432). -/
def withdrawCopy (s : State) (f : Frame) (mc : Bool) (q : Nat) : State :=
  let s1 := admitCopy s { f := f, ports := [q], mc := mc } q
  match (queueOf s1 q f.cls).find? fun c => c.f.id == f.id with
  | some c => releaseCopy (setQueue s1 q f.cls ((queueOf s1 q f.cls).filter fun c => c.f.id != f.id)) c
  | none => s1

/-- A frame found bad under rows 1 to 5 of R347: what a head that had already left on a cut-through copy leaves behind, and the other copies withdrawn. A
frame no copy of which went cut-through leaves nothing. -/
def badFrame (s : State) (p sof : Nat) (bs : List Byte) (sub : Nat) : State :=
  if bs.length < 18 then s
  else
    let h := parse bs
    let x := portLookup s p h
    let f : Frame := { rxFrame s p bs sub with cls := classify s p h sof x.2.cls, vact := x.2.vact, newVid := x.2.newVid }
    match if (groupBad x.1 p x.2.toward).isSome then none else targetPorts x.1 p x.2.toward with
    | none => s
    | some (l, mc) =>
      let cut := l.filter fun q => !noPort s q && portUp s q && (portSw s q).flushing.isNone && cutOk s p q f.cls &&
        (admitRule s q f.cls (depthOf s q f.cls) (pagesOf f)).isSome
      if cut = [] then s
      else
        let s1 := x.1.count (queB (p / 16) + 0x054) (l.filter (noPort x.1)).length
        forEach (l.filter fun q => !noPort x.1 q) { s1 with sw := { s1.sw with next := s1.sw.next + 1 } } fun q t =>
          if cut.contains q then stompCopy t f q else withdrawCopy t f mc q

/-- Is a frame a cue message (R537)? -/
def isCueFrame (s : State) (p : Nat) (h : Hdr) : Bool := portIs s p 1 && h.da == 0x030000000010 && h.ety == 0x88B5

/-- The cue message of a frame: its payload is as long as its header says, what follows being padding. -/
def cueOfFrame (bs : List Byte) (h : Hdr) : CueMsg :=
  let m := (bs.take (bs.length - 4)).drop (h.toff + 2)
  let hdr := (List.range 12).map fun i => w32 (natOfBytes ((m.drop (4 * i)).take 4))
  ⟨hdr, (m.drop 48).take (bits (dwAt hdr 8) 31 16)⟩

/-- A frame that passes R347: counted, sampled, looked up, forwarded, learned from. A cue message goes to the cue engine (R538). -/
def goodFrame (s : State) (p sof : Nat) (bs : List Byte) (sub : Nat) : State :=
  let h := parse bs
  let s1 := (s.count64 (macB p + 0x100) 1).count64 (macB p + 0x108) bs.length
  let s2 := if h.da = 2 ^ 48 - 1 then s1.count (macB p + 0x16C) else if h.da / 2 ^ 40 % 2 = 1 then s1.count (macB p + 0x168) else s1
  let f := rxFrame s2 p bs sub
  let s3 := { s2 with sw := { s2.sw with next := s2.sw.next + 1 } }
  if isCueFrame s p h then takeCueMsg (takeSample s3 p { f with cls := sof }) p (cueOfFrame bs h)
  else
    let x := portLookup s3 p h
    let g := { f with cls := classify s p h sof x.2.cls, vact := x.2.vact, newVid := x.2.newVid }
    let s4 := forward (takeSample x.1 p g) g x.2.toward true none
    let s5 := match x.2.toward with
      | .group n => cswFrame s4 g n
      | .port _ => s4
    retireWorn (queueLearn s5 p (frameVid h (s.fld (lrnSlot p) 27 16)) h.sa)

/-- A network port receives a frame (R347); only a port that is UP takes one (R376). -/
def receiveFrame (s : State) (p : Nat) (bs : List Byte) (code abort : Bool) (sof sub : Nat) : State :=
  if !s.alive ∨ !portUp s p then s
  else
    match rxRow s p bs code abort with
    | some o =>
      let s1 := s.count (macB p + o)
      if o = 0x12C ∨ o = 0x134 then s1 else badFrame s1 p sof bs sub
    | none => goodFrame s p sof bs sub

/-- FRAME_RECEIVE (R347): the bytes from DA through FCS; `code` says that the PCS or FEC found an error in it, `abort` that a trunk frame ended in
ABORT; `sof` is the class of a trunk frame's SOF, `sub` when it arrived, in 2^-40 ns after the last tick. -/
def execFrameReceive (p : Fin 128) (bs : List Byte) (code abort : Bool) (sof : Fin 8) (sub : Nat) (s : State) : Result :=
  .next (receiveFrame s p bs code abort sof sub)

/-- The level of a PAM4 symbol from its pair of line bits, the first one the more significant, Gray-coded (R339). -/
def pamLevel (a b : Bool) : Nat := if a then (if b then 2 else 3) else (if b then 1 else 0)

/-- The levels of line bits in pairs. -/
def pamLevels : List Bool → List Nat
  | a :: b :: t => pamLevel a b :: pamLevels t
  | _ => []

/-- The pair of line bits of a level. -/
def pamBits (n : Nat) : List Bool := [decide (2 ≤ n), n == 1 || n == 2]

/-- What a lane sends of line bits (R339): levels at a PAM4 rate; LAN_RXCFG.TX_INV turns its polarity. -/
def lineOut (s : State) (l : Nat) (bits : List Bool) : Output :=
  let inv := s.flag (lanB l + 0x054) 1
  if fecRate (laneRate s l) then .pam4 l ((pamLevels bits).map fun n => if inv then 3 - n else n)
  else .line l (bits.map fun b => b != inv)

/-- The line bits of what a lane's receiver sees (R339); LAN_RXCFG.RX_INV turns its polarity. A signal of another modulation than the lane's gives none. -/
def lineBits (s : State) (l : Nat) (x : LineSig) : List Bool :=
  let inv := s.flag (lanB l + 0x054) 0
  match x with
  | .nrz b => if fecRate (laneRate s l) then [] else b.map fun c => c != inv
  | .pam4 v => if fecRate (laneRate s l) then v.flatMap fun n => pamBits (if inv then 3 - n.val else n.val) else []

/-- What the lanes of a port have sent is counted and leaves (R357, R359): LAN_STUFF, MAC_TX_SEEDALT. -/
def emitLines (s : State) (p : Nat) (ls : List SbLine) : State :=
  forEach ls.zipIdx s fun x t =>
    let l := p + x.2
    let t1 := setLaneRec (t.count (lanB l + 0x084) x.1.stuffed) l { laneRec t l with txRun := x.1.run }
    (if x.1.seed = 0 then t1 else t1.count (macB p + 0x15C)).emit (lineOut t l x.1.bits)

/-- The frames of a port whose SOF may leave with a superblock that starts `sub` after the last tick take the PTP changes of that instant (R196, R206):
`k` words of the stream have room. -/
def restamp (s : State) (p k sub : Nat) (x : PortSt) : PortSt :=
  x.frames.foldl (fun (y : PortSt) f =>
    if f.stamp.isNone ∧ f.sof < k then
      let bs := egressBytes s p f.c.f (nodeTime s + placedSub s sub)
      { y with out := y.out.take f.sof ++ frameWords f.c.f.cls bs false ++ y.out.drop f.eof,
               frames := y.frames.map fun g => if g.sof = f.sof then { g with bytes := bs } else g }
    else y) x

/-- `n` words of a port's stream have left with a superblock that started `sub` after the last tick: the frames whose SOF was among them have their
egress stamp. -/
def wordsLeft (s : State) (p n sub : Nat) (fs : List LineFrame) : List LineFrame :=
  fs.map fun f =>
    { f with sof := f.sof - n, eof := f.eof - n,
             stamp := if f.stamp.isNone ∧ f.sof < n then some (egressStamp s p f.c.f.id sub) else f.stamp }

/-- A port's superblock, whose first bit crosses `sub` after the last tick, leaves (R353 to R363, R367, R369, R377, R730), and with it the frames
whose EOF it carries. -/
def sendSuperblock (s : State) (p sub : Nat) : State :=
  let x := restamp s p (freeCount (sbSlots s p)) sub (portRec s p)
  let w := portWidth s p
  let slots := sbSlots s p
  let rb := rangeBits s p sub
  let mk (k seed : Nat) (ws : List LineWord) : List Bool :=
    contentBits seed k x.sb [k == 0 && rb.1, k == 0 && rb.2, !s.flag (lanB (p + k) + 0x040) 3] ws
  let runs := (List.range w).map fun k => (laneRec s (p + k)).txRun
  match sendLoop (fecRate (laneRate s p)) runs mk x.out (slots.length + 1) slots (min x.out.length (freeCount slots)) 0 with
  | none => s
  | some (sl, n, ls, reps) =>
    let woke := sl.any fun a => match a with
      | .wake _ => true
      | _ => false
    let fs := wordsLeft s p n sub x.frames
    let y := { x with sb := (x.sb + 1) % 65536, out := x.out.drop n, frames := fs.filter fun f => f.eof != 0, times := [], wakes := if woke then x.wakes.tail else x.wakes }
    forEach (fs.filter fun f => f.eof == 0) (emitLines ((setPortRec (chipLeft s p sub) p y).count (macB p + 0x158) reps) p ls) fun f t =>
      copySent t p f.c f.bytes f.stamp f.start

/-- SUPERBLOCK_TRANSMIT (R359): the next superblock of every lane of a port. Valid on a trunk or local port whose lanes send. -/
def execSuperblockTransmit (x : SbStart) (s : State) : Result := .next (if sendsLine s x.port then sendSuperblock s x.port x.sub else s)

/-- The open frame of a port is dropped under row 1 of R347 (R368). -/
def dropOpen (s : State) (p : Nat) : State :=
  match (portRec s p).rx with
  | some x => receiveFrame (setPortRec s p { portRec s p with rx := none }) p x.bytes true false x.cls x.sub
  | none => s

/-- An invalid control word (R368). -/
def badWord (s : State) (p : Nat) : State := dropOpen (s.count (macB p + 0x150)) p

/-- A SOF opens a frame (R365, R368). -/
def openFrame (s : State) (p cls sub : Nat) : State :=
  let s1 := dropOpen s p
  setPortRec s1 p { portRec s1 p with rx := some { cls := cls, bytes := [], sub := sub } }

/-- EOF or ABORT closes the open frame (R365, R347 row 2): `last` bytes of its final data word are valid. -/
def closeFrame (s : State) (p last : Nat) (abort : Bool) : State :=
  match (portRec s p).rx with
  | some x =>
    receiveFrame (setPortRec s p { portRec s p with rx := none }) p (x.bytes.take (x.bytes.length - (8 - last))) false abort x.cls x.sub
  | none => s

/-- A data word (R365, R368). -/
def dataWord (s : State) (p : Nat) (w : BitVec 64) : State :=
  match (portRec s p).rx with
  | some x => setPortRec s p { portRec s p with rx := some { x with bytes := x.bytes ++ bytesOfNat 8 w.toNat } }
  | none => s.count (macB p + 0x150)

/-- A NEG word on a port that negotiates (R377). -/
def lineNeg (s : State) (p : Nat) (w : BitVec 64) (near : Bool) : State :=
  if portIs s p 1 ∧ 3 ≤ trkSt s p ∧ trkSt s p ≠ 4 ∧ trkSt s p ≤ 8 then takeNeg s p w near else s

/-- A control word that stands where a TIME word does not belong (R364, R366 to R368). -/
def ctlWord (s : State) (p : Nat) (w : BitVec 64) (near : Bool) (sub : Nat) : State :=
  match wbits w 7 0 with
  | 0x00 => if w = 0 then s else badWord s p
  | 0x1B => if wbits w 63 11 = 0 then openFrame s p (wbits w 10 8) sub else badWord s p
  | 0x2D => if wbits w 63 12 = 0 ∧ 1 ≤ wbits w 11 8 ∧ wbits w 11 8 ≤ 8 then closeFrame s p (wbits w 11 8) false else badWord s p
  | 0x36 => if wbits w 63 8 = 0 then closeFrame s p 8 true else badWord s p
  | 0x5A => if wbits w 51 50 = 0 then lineNeg s p w near else badWord s p
  | 0x69 => if wakeValid w then (if portIs s p 1 ∧ 3 ≤ trkSt s p ∧ trkSt s p ≤ 8 then takeWake s p w else s) else badWord s p
  | _ => badWord s p

/-- One word of a port's stream, or a hole where its lane's superblock was bad (R368). -/
def takeWord (s : State) (p : Nat) (near : Bool) (sub : Nat) (w : Option LineWord) : State :=
  match w with
  | none => dropOpen s p
  | some x => if x.ctl then ctlWord s p x.val near sub else dataWord s p x.val

/-- The time word that starts at word `i` of the first lane's words (R364, R367): its eight dwords. -/
def timeAt (ws : List LineWord) (dom i : Nat) : Option (List Word) :=
  if ws.getD i idleWord = ⟨true, BitVec.ofNat 64 (0x47 + dom * 2 ^ 8)⟩ then
    some ((List.range 4).flatMap fun j => let v := (ws.getD (i + 1 + j) idleWord).val; [loHalf v.toNat, hiHalf v.toNat])
  else none

/-- The words of the superblocks of one SBSEQ, lane by lane, reach the port (R366 to R369). -/
def takeWords (s : State) (p : Nat) (near : Bool) (sub : Nat) (lanes : List (Option (List LineWord))) : State :=
  let first := (lanes.getD 0 none).getD []
  let trunk := portIs s p 1
  let t0 := if trunk then timeAt first 0 0 else none
  let t1 := if trunk then timeAt first 1 5 else none
  let s1 := match t0 with
    | some ws => takeTimeWord s p ws sub
    | none => s
  let s2 := match t1 with
    | some ws => takeTimeWord s1 p ws sub
    | none => s1
  let used (i k : Nat) : Bool := k == 0 && ((t0.isSome && decide (i < 5)) || (t1.isSome && decide (5 ≤ i) && decide (i < 10)))
  forEach (List.range 61) s2 fun i t =>
    forEach lanes.zipIdx t fun x u => if used i x.2 then u else takeWord u p near sub (x.1.map fun ws => ws.getD i idleWord)

/-- Is a superblock overdue: the one of the same SBSEQ on another lane arrived more than 256 ns before `now` (R370)? -/
def skewed (s : State) (p now : Nat) : Bool :=
  (lanesOf s p).any fun l => (laneRec s l).got.any fun x => decide (x.2.1 + 256 * tuPerNs < now)

/-- Once every lane has given its superblock of an SBSEQ, their words go on (R369, R370); lanes aligned take a port from FRAME to NEGOTIATE
(R374). -/
def joinLanes (s : State) (p q : Nat) (near : Bool) (sub : Nat) : State :=
  let ls := lanesOf s p
  let have_ := ls.map fun l => (laneRec s l).got.find? fun x => x.1 == q
  if have_.all Option.isSome then
    let s1 := forEach ls s fun l t => setLaneRec t l { laneRec t l with got := (laneRec t l).got.filter fun x => x.1 != q }
    if skewed s p (s.elapsed + sub) then faultTrk s1 p 0x06
    else
      let whole := have_.all fun x => (x.map fun y => y.2.2.isSome).getD false
      let s1 := if trkSt s1 p = 6 then setPortRec s1 p { portRec s1 p with checked := if whole then (portRec s1 p).checked + 1 else 0 } else s1
      let s2 := if portIs s1 p 1 ∧ trkSt s1 p = 2 then setTrk s1 p 3 else s1
      takeWords s2 p near sub (have_.map fun x => (x.map fun y => y.2.2).getD none)
  else if skewed s p (s.elapsed + sub) then faultTrk s p 0x06
  else s

/-- A lane gains or loses superblock lock with a superblock (R371, R375, R384). -/
def judgeLock (s : State) (l : Nat) (x : SbRead) : State :=
  let r := laneRec s l
  let r1 := { r with good := if x.head then r.good + 1 else 0, bad := if x.good then 0 else r.bad + 1 }
  let s1 := setLaneRec s l r1
  let a := lanB l + 0x040
  if s.flag a 3 ∧ 8 ≤ r1.bad then lanePortLost ((slot7Loses s1 (portOfLane s l)).setFlag a 3 false) l
  else if !s.flag a 3 ∧ 4 ≤ r1.good then laneLocked (s1.setFlag a 3 true) l
  else s1

/-- A lane's receiver takes the line bits of a superblock: the FEC corrects them, then they are read (R361 to R363). Answers what it read. -/
def readLine (s : State) (p l : Nat) (line : List Bool) (fix : List (Fin 440 × BitVec 10)) : State × SbRead :=
  let run := (laneRec s l).rxRun
  let fec := fecRate (laneRate s l)
  let bs := if fec ∧ fix.length ≤ 15 then fixBits line fix else line
  let corr := !fec || codeword run bs
  let x := readSb run bs
  let s1 := setLaneRec s l { laneRec s l with rxRun := bs.foldl runBit run }
  let s2 := if !fec then s1
    else if !corr then s1.count (macB p + 0x148)
    else if fix = [] then s1
    else (s1.count (macB p + 0x144)).count (lanB l + 0x088) fix.length
  (s2, { x with good := x.good && corr })

/-- A superblock of a trunk port's first lane has arrived at elapsed time `t`: TRK_Pk_PHASE shows where its words stand in the phase window, which the
first one since the port entered VERIFY centres (R372). -/
def movePhase (s : State) (p t : Nat) : State :=
  if !portIs s p 1 ∨ trkSt s p < 6 ∨ 8 < trkSt s p then s
  else
    let x := portRec s p
    match x.phase with
    | none => (setPortRec s p { x with phase := some (t, 0) }).wr (trkPeer p + 4) 0
    | some (c, n) =>
      let want := c + (n + 1) * sbBits (portRate s p) * 32 * tuPerNs / laneNum (portRate s p)
      (setPortRec s p { x with phase := some (c, n + 1) }).wr (trkPeer p + 4) (BitVec.ofInt 32 (divRound (((t : Int) - want) * 1000) (2 ^ 40)))

/-- SUPERBLOCK_RECEIVE (R368): lane `l` has received a superblock (4,096 bits, or 4,400 with pad and parity as 2,200 symbols at the FEC rates), which
arrived `sub` (in 2^-40 ns) after the last tick; `fix` are the symbol errors that its decoder finds; the receive-frequency monitor finds the peer `ppt` off
the network clock (R380). -/
def execSuperblockReceive (l : Fin 128) (line : LineSig) (fix : List (Fin 440 × BitVec 10)) (ppt : Int) (sub : Nat) (s : State) : Result :=
  match portOfLane s l with
  | none => .next s
  | some p =>
    if !receivesLine s p l then .next s
    else
      let near := freqNear ppt
      let x := readLine (if l.val = p then movePhase s p (s.elapsed + sub) else s) p l (lineBits s l line) fix
      let s0 := if l.val = p then chipCame x.1 p (s.sun.d0.t + sub) x.2.chip (x.2.good && x.2.ron) else x.1
      let s1 := if x.2.good then s0 else s0.count (macB p + 0x14C)
      let s2 := judgeLock s1 l x.2
      let q := if x.2.head then x.2.sbseq else ((laneRec s2 l).seq + 1) % 65536
      let s3 := setLaneRec s2 l { laneRec s2 l with seq := q }
      if allLanes s3 p 3 then
        let got := (laneRec s3 l).got ++ [(q, s.elapsed + sub, if x.2.good then some x.2.words else none)]
        .next (joinLanes (setLaneRec s3 l { laneRec s3 l with got := got }) p q near sub)
      else .next (if x.2.good then s3 else dropOpen s3 p)

end Sys2Proof.Machine
end

