-- ==== Sys2Proof/Machine/Power.lean ====
section
/-!
DEFINITION. Power.lean: the events of the power manager, the Lodge and the feeds, one meaning per row of the table (14_power_and_feeds.md R698 to
R741). A row whose condition does not hold changes nothing.
-/
namespace Sys2Proof.Machine

/-- P1_ENTRY_DONE (R711, R715). -/
def execP1EntryDone (s : State) : Result :=
  if s.pwr.change = .trim then .next (stateDone (gateIdle (endIn s 1)) false) else .next s

/-- P0_RETURN_DONE (R712): everything is ungated, cells are ready for jobs, and the ports that waited for their Pavilion start. -/
def execP0ReturnDone (s : State) : Result :=
  if s.pwr.change = .untrim then
    let s1 := endIn s 0
    let was := s1.pwr.gated
    let s0 := forEach (allCells.filter (cellServes s1)) { s1 with pwr := { s1.pwr with gated := [] } } fun c t => setCell t c { cellOf t c with ready := true }
    let s2 := forEach was s0 fun r t => reloadReplica t r fun _ => true
    .next (stateDone (startPorts s2 fun p => was.contains (p / 16)) false)
  else .next s

/-- PAVILION_GATE (R699). -/
def execPavilionGate (r : Fin 8) (s : State) : Result :=
  if s.alive ∧ s.pstate = 1 ∧ s.pwr.change = .idle ∧ pavIdle s r ∧ !s.pwr.gated.contains r.val then .next (gatePav s r) else .next s

/-- PAVILION_UNGATE_DONE (R497, R700): a gated Pavilion that is no longer idle runs again, and its enabled ports start. -/
def execPavilionUngateDone (r : Fin 8) (s : State) : Result :=
  if s.pwr.gated.contains r.val ∧ !pavIdle s r then
    .next (startPorts (reloadReplica { s with pwr := { s.pwr with gated := s.pwr.gated.filter (· != r.val) } } r fun _ => true) fun p => p / 16 == r.val)
  else .next s

/-- P2_COMMIT (R716 steps 3 to 5). -/
def execP2Commit (s : State) : Result :=
  match s.pwr.change with
  | .hold _ toP3 => if holdReached s then .next (darken (setResult (setChange s (.gating toP3) (if toP3 then 3 else 2)) 2 0)) else .next s
  | _ => .next s

/-- P2_ENTRY_DONE (R709, R716 step 6). -/
def execP2EntryDone (s : State) : Result :=
  match s.pwr.change with
  | .gating toP3 => .next (reachP2 s toP3)
  | _ => .next s

/-- P2_DEPARTURE_DONE (R717). -/
def execP2DepartureDone (s : State) : Result :=
  match s.pwr.change with
  | .leave toP1 => .next (brighten s (if toP1 then 1 else 0))
  | _ => .next s

/-- P3_LINK_READY (R718 steps 1, 2): the link reports L2/L3 Ready (`ready`), or L2_WAIT has passed. -/
def execP3LinkReady (ready : Bool) (s : State) : Result :=
  match s.pwr.change with
  | .linkWait c =>
    if ready ∨ waited s s.pwr.stepAt (s.fld (pwrB + 0x050) 31 16 * 1000000 * tuPerNs) then .next (alignLodge s c) else .next s
  | _ => .next s

/-- P3_SUNDIAL_LAST_PPS (R718 step 3). -/
def execP3SundialLastPps (s : State) : Result :=
  if s.pwr.change = .lastSecond ∧ lastEdgeDone s then .next (lastPps s) else .next s

/-- P3_ENTRY_DONE (R37, R718 step 5, R834). -/
def execP3EntryDone (s : State) : Result := if s.pwr.change = .railsOff then .next (rest s) else .next s

/-- P3_RESTART (R719 steps 1, 2, R800). -/
def execP3Restart (s : State) : Result :=
  if s.pwr.change = .restart ∧ s.pstate = 3 ∧ !s.pwr.railEn then .next (raiseRails (resetBlocks s)) else .next s

/-- SUNDIAL_LODGE_LOAD (R38, R171, R719 step 6, R808): on the Lodge clock edge that brings a whole second. -/
def execSundialLodgeLoad (s : State) : Result :=
  let s1 := reachLodge s (secondFrom (lodgeNow s) * tuPerSec)
  if s.pwr.imaged ∧ !s.held ∧ s.pwr.loaded = none ∧ !s.pwr.handedBack ∧ lodgeNow s1 % tuPerSec < lodgeInc s1 then
    .next (loadSundial { s1 with pwr := { s1.pwr with loaded := some (lodgeNow s1 / tuPerSec) } })
  else .next s

/-- P3_RESTART_DONE (R715, R719 step 7, R808). -/
def execP3RestartDone (s : State) : Result :=
  match s.pwr.loaded with
  | some w => if (w + 1) * tuPerSec ≤ nodeTime s then .next (handBack s) else .next s
  | none => .next s

/-- LODGE_SYNC (R723, R725): at each whole second of node time in P0 to P2; not while a restart still takes its time from the Lodge (R724). -/
def execLodgeSync (s : State) : Result :=
  if s.alive ∧ !s.sun.stopped ∧ s.sun.hand.carried ∧ !s.pwr.lapse ∧ !(s.pwr.change = .restart ∧ s.pwr.loaded = none) ∧
      s.pwr.change ≠ .lastSecond ∧ s.pwr.change ≠ .railsOff then
    .next (syncLodge s)
  else .next s

/-- LODGE_PPS (R726, R808, R833). -/
def execLodgePps (s : State) : Result := .next (emitPps s)

/-- LODGE_ALARM (R727). -/
def execLodgeAlarm (s : State) : Result :=
  let s1 := reachLodge s (alarmSec s * tuPerSec)
  if s.pwr.lodgeOn ∧ alarmOn s ∧ alarmSec s * tuPerSec ≤ lodgeNow s1 then .next (pwrEvent (s1.setFlag (pwrB + 0x094) 31 false) 5) else .next s

/-- WAKE_PIN_EDGE (R728): LODGE_WAKE0_N or LODGE_WAKE1_N falls after at least 1 ms high. -/
def execWakePinEdge (pin : Fin 2) (s : State) : Result := if s.pwr.lodgeOn then .next (pwrEvent s (3 + pin)) else .next s

/-- TRUNK_WAKE_SEND_DONE (R730): no port that transmits has a WAKE word left. -/
def execTrunkWakeSendDone (s : State) : Result :=
  if s.pwr.wakeBusy ∧ (List.range 128).all (fun p => !portIs s p 1 || !s.flag (lanB p + 0x040) 2 || (portRec s p).wakes == []) then
    .next { s with pwr := { s.pwr with wakeBusy := false } }
  else .next s

/-- TRUNK_WAKE_RECEIVE (R729, R731): a WAKE word arrives on a trunk port that receives superblocks. -/
def execTrunkWakeReceive (p : Fin 128) (w : BitVec 64) (s : State) : Result :=
  if s.alive ∧ portIs s p 1 ∧ 3 ≤ trkSt s p ∧ trkSt s p ≤ 8 ∧ wakeValid w then .next (takeWake s p w) else .next s

/-- FEED_LOST (R732, R733, R736, R737): with the last two samples of each feed, `va` and `vb`, in 10 mV. -/
def execFeedLost (x : Fin 2) (va vb : BitVec 16 × BitVec 16) (s : State) : Result :=
  let s0 := takeVolts s va.1 vb.1
  let s1 := takeVolts s0 va.2 vb.2
  if s.pwr.lodgeOn ∧ feedOk s x ∧ !inRange s0 x ∧ !inRange s1 x then .next (loseFeed s1 x) else .next s

/-- FEED_RETURN (R732, R735, R736): with the last two samples of each feed. -/
def execFeedReturn (x : Fin 2) (va vb : BitVec 16 × BitVec 16) (s : State) : Result :=
  let s0 := takeVolts s va.1 vb.1
  let s1 := takeVolts s0 va.2 vb.2
  if s.pwr.lodgeOn ∧ !feedOk s x ∧ inRange s0 x ∧ inRange s1 x then .next (regainFeed s1 x (inRange s0 (1 - x))) else .next s

/-- FEED_REVERT (R735). -/
def execFeedRevert (s : State) : Result :=
  let f := prefFeed s
  match s.pwr.holdSince with
  | some t =>
    if s.flag (pwrB + 0x058) 31 ∧ s.pwr.fet = some (1 - f) ∧ feedOk s f ∧ waited s t (s.fld (pwrB + 0x058) 7 0 * 100000000 * tuPerNs) then
      .next (pwrEvent (((fetOn s f).emit (.edge (gateBall (1 - f)) false 0)).count (pwrB + 0x100)) 1)
    else .next s
  | none => .next s

/-- LODGE_STOP (R736): with both feeds lost and the bank below 6.0 V, nothing of the device runs. -/
def execLodgeStop (s : State) : Result :=
  if s.pwr.lodgeOn ∧ s.pwr.fet = none ∧ s.flag (pwrB + 0x040) 19 then
    let s1 := holdChip (setLodge s (lodgeNow s))
    .next { s1 with pwr := { s1.pwr with lodgeOn := false, lodgePps := none, railEn := false, railGood := false, change := .idle } }
  else .next s

/-- CHARGE_COMPLETE (R738): the bank measures `c` uF. -/
def execChargeComplete (c : BitVec 16) (s : State) : Result :=
  if s.pwr.charging then
    let v := fullVolts c.toNat
    let s1 := (s.wr (pwrB + 0x06C) (w32 c.toNat)).wr (pwrB + 0x068) (fieldW 31 16 (min 65535 (bankEnergy c.toNat v)) ||| fieldW 15 0 v)
    .next { s1.setFlag (pwrB + 0x040) 18 true with pwr := { s1.pwr with charging := false, chargeAt := none } }
  else .next s

/-- CHARGE_TIMEOUT (R737): the bank, at `v` times 10 mV, has not reached 8.0 V within 5 s of charging. -/
def execChargeTimeout (v : BitVec 16) (s : State) : Result :=
  match s.pwr.chargeAt with
  | some t =>
    if s.pwr.charging ∧ v.toNat < 800 ∧ waited s t (5 * tuPerSec) then
      let s1 := s.setFld (pwrB + 0x068) 15 0 v.toNat
      .next (feedFault { s1 with pwr := { s1.pwr with chargeAt := none } })
    else .next s
  | none => .next s

/-- FIELD_SHORT (R741): field output `b`, by its bit of PWR_FIELD_STAT, has been in current limit for 10 ms. -/
def execFieldShort (b : Fin 12) (s : State) : Result :=
  if s.pwr.lodgeOn ∧ !fieldOff s b then
    let s1 := ((cutField s b).setFlag (pwrB + 0x0A0) b true).count (pwrB + 0x104)
    .next { s1 with pwr := { s1.pwr with fieldAt := AMap.set s1.pwr.fieldAt b s1.elapsed } }
  else .next s

/-- FIELD_RETRY (R741): 1 s after it was turned off. -/
def execFieldRetry (b : Fin 12) (s : State) : Result :=
  if s.pwr.lodgeOn ∧ fieldOff s b ∧ waited s (AMap.getD s.pwr.fieldAt b 0) tuPerSec then
    .next { s.setFlag (pwrB + 0x0A0) b false with pwr := { s.pwr with fieldAt := AMap.del s.pwr.fieldAt b } }
  else .next s

end Sys2Proof.Machine
end

