-- ==== Sys2Proof/Machine/Tdc.lean ====
section
/-!
DEFINITION. Tdc.lean: the events of the TDC channels and difference units (R234 to R250), one meaning per row of the table.
-/
namespace Sys2Proof.Machine

/-- TDC_EDGE (R236): the channel's stop tick after an edge, with code `c` and the calibration pair `c1`, `c2`. -/
def execTdcEdge (n : Fin 16) (fall : Bool) (c c1 c2 : BitVec 12) (s : State) : Result :=
  .next (measureEdge s n fall c.toNat c1.toNat c2.toNat)

/-- TDC_PAIR_TIMEOUT (R250): valid once the window of the unit's open A result has passed. -/
def execTdcPairTimeout (u : Fin 8) (s : State) : Result :=
  match (tdcDiff s u).openA with
  | some a =>
    let now := csBody (timeOf s (tdcDom s (s.fld (diffCfg u) 7 4)))
    if s.flag (diffCfg u) 0 ∧ (2 ^ s.fld (diffCfg u) 28 24 * 65536 : Nat) < csDiff now a then
      .next (unpaired (setTdcDiff s u { tdcDiff s u with openA := none }) u)
    else .next s
  | none => .next s

/-- TDC_IDLE_CALIBRATION (R245): valid on an armed channel, out of bypass (R241), once 1 ms has passed with no edge. -/
def execTdcIdleCalibration (n : Fin 16) (c1 c2 : BitVec 12) (s : State) : Result :=
  let x := tdcCh s n
  if tdcArmed s n ∧ !inBypass s ∧ !x.retired ∧ x.quietAt + 1000000 * tuPerNs ≤ s.elapsed then
    .next (takePair (setTdcCh s n { x with quietAt := s.elapsed }) n c1.toNat c2.toNat).1
  else .next s

/-- TDC_GATE_RISE (R242): ball TDC_GATE`g` is sampled high. -/
def execTdcGateRise (g : Fin 4) (s : State) : Result :=
  let s1 := if s.tdc.gates.contains g.val then s else { s with tdc := { s.tdc with gates := s.tdc.gates ++ [g.val] } }
  .next (forEach (List.range 16) s1 fun n t =>
    if tdcArm t n = 2 ∧ t.fld (tdcCfg n) 7 4 = g.val ∧ !(tdcCh t n).retired ∧ !s.tdc.gates.contains g.val then gateHigh t n else t)

/-- TDC_GATE_FALL (R242): ball TDC_GATE`g` is sampled low. -/
def execTdcGateFall (g : Fin 4) (s : State) : Result :=
  let s1 := { s with tdc := { s.tdc with gates := s.tdc.gates.filter (· ≠ g.val) } }
  .next (forEach (List.range 16) s1 fun n t => if tdcArm t n = 2 ∧ t.fld (tdcCfg n) 7 4 = g.val then disarmCh t n else t)

/-- TIME_BUS_LATENCY_MEASURED (R234, R28): the measurement after chip reset ends, and channel 14 is released. -/
def execTimeBusLatencyMeasured (s : State) : Result := .next { s with tdc := { s.tdc with latDone := true } }

end Sys2Proof.Machine
end

