-- ==== Sys2Proof/Machine/Dispatch.lean ====
section
/-!
DEFINITION. Dispatch.lean: one arm per command of the table, each one direct call of that command's meaning.
-/
namespace Sys2Proof.Machine

/-- The effect of one command on everything but the queue. -/
def exec (i : Instr) (s : State) : Host.Outcome State Fault Refusal :=
  match i with
  | .registerWrite m be a v rest => Sys2Proof.Machine.execRegisterWrite m be a v rest s
  | .reservedRangeAccess m wr be a => Sys2Proof.Machine.execReservedRangeAccess m wr be a s
  | .bar2ReservedWrite a x => Sys2Proof.Machine.execBar2ReservedWrite a x s
  | .blkErrRead m be a => Sys2Proof.Machine.execBlkErrRead m be a s
  | .registerReadParityError m be a => Sys2Proof.Machine.execRegisterReadParityError m be a s
  | .counterRead m be a => Sys2Proof.Machine.execCounterRead m be a s
  | .counterLowHalfRead m be a => Sys2Proof.Machine.execCounterLowHalfRead m be a s
  | .blkLockWrite m be a v => Sys2Proof.Machine.execBlkLockWrite m be a v s
  | .snapshotPort m be a target => Sys2Proof.Machine.execSnapshotPort m be a target s
  | .snapshotPavilion m be a target => Sys2Proof.Machine.execSnapshotPavilion m be a target s
  | .snapshotChip m be a target => Sys2Proof.Machine.execSnapshotChip m be a target s
  | .dwFirstWrite m be a v => Sys2Proof.Machine.execDwFirstWrite m be a v s
  | .dwComplementWrite m be a v => Sys2Proof.Machine.execDwComplementWrite m be a v s
  | .dwWindowExpiry m a => Sys2Proof.Machine.execDwWindowExpiry m a s
  | .modeKeyWrite m be v => Sys2Proof.Machine.execModeKeyWrite m be v s
  | .modeKeyExpiry m => Sys2Proof.Machine.execModeKeyExpiry m s
  | .modeChange m be v => Sys2Proof.Machine.execModeChange m be v s
  | .refConfigWrite m be n nom v => Sys2Proof.Machine.execRefConfigWrite m be n nom v s
  | .refPulseArrival n x => Sys2Proof.Machine.execRefPulseArrival n x s
  | .refActivityLost n => Sys2Proof.Machine.execRefActivityLost n s
  | .foffUpdate n raw => Sys2Proof.Machine.execFoffUpdate n raw s
  | .slotQualified n => Sys2Proof.Machine.execSlotQualified n s
  | .selectionTick meas => Sys2Proof.Machine.execSelectionTick meas s
  | .dpllModeWrite m be d v => Sys2Proof.Machine.execDpllModeWrite m be d v s
  | .dpllLocked d => Sys2Proof.Machine.execDpllLocked d s
  | .holdoverBin y0 y2 y3 => Sys2Proof.Machine.execHoldoverBin y0 y2 y3 s
  | .holdoverSecond d => Sys2Proof.Machine.execHoldoverSecond d s
  | .apllLossOfLock => Sys2Proof.Machine.execApllLossOfLock s
  | .apllLock oscHz => Sys2Proof.Machine.execApllLock oscHz s
  | .bypassReturn => Sys2Proof.Machine.execBypassReturn s
  | .bypassIncScale => Sys2Proof.Machine.execBypassIncScale s
  | .outputEnableSet m be v => Sys2Proof.Machine.execOutputEnableSet m be v s
  | .outputEnableClear m be v => Sys2Proof.Machine.execOutputEnableClear m be v s
  | .outputDelayWrite m be k v => Sys2Proof.Machine.execOutputDelayWrite m be k v s
  | .delayWalkDone k => Sys2Proof.Machine.execDelayWalkDone k s
  | .sundialTick x => Sys2Proof.Machine.execSundialTick x s
  | .domainStep d => Sys2Proof.Machine.execDomainStep d s
  | .slewDone d => Sys2Proof.Machine.execSlewDone d s
  | .domainSelectWrite m be v => Sys2Proof.Machine.execDomainSelectWrite m be v s
  | .autoDomainSwitch => Sys2Proof.Machine.execAutoDomainSwitch s
  | .leapSecond => Sys2Proof.Machine.execLeapSecond s
  | .timeOutputEnable m be k v => Sys2Proof.Machine.execTimeOutputEnable m be k v s
  | .timeOutputDisable m be k v => Sys2Proof.Machine.execTimeOutputDisable m be k v s
  | .outputAdjWrite m be k v => Sys2Proof.Machine.execOutputAdjWrite m be k v s
  | .compareArm m be c v => Sys2Proof.Machine.execCompareArm m be c v s
  | .compareDisarm m be c v => Sys2Proof.Machine.execCompareDisarm m be c v s
  | .compareFire c => Sys2Proof.Machine.execCompareFire c s
  | .captureCounters m be v => Sys2Proof.Machine.execCaptureCounters m be v s
  | .timeSetStep m be v => Sys2Proof.Machine.execTimeSetStep m be v s
  | .timeSetSlew m be v => Sys2Proof.Machine.execTimeSetSlew m be v s
  | .timeSetDone => Sys2Proof.Machine.execTimeSetDone s
  | .timeWordSend p dom sub => Sys2Proof.Machine.execTimeWordSend p dom sub s
  | .timeWordReceive p dws sub => Sys2Proof.Machine.execTimeWordReceive p dws sub s
  | .ptpConfigWrite m be p v => Sys2Proof.Machine.execPtpConfigWrite m be p v s
  | .tdcEdge n fall c c1 c2 => Sys2Proof.Machine.execTdcEdge n fall c c1 c2 s
  | .tdcPairTimeout u => Sys2Proof.Machine.execTdcPairTimeout u s
  | .tdcIdleCalibration n c1 c2 => Sys2Proof.Machine.execTdcIdleCalibration n c1 c2 s
  | .tdcArmContinuous m be n v => Sys2Proof.Machine.execTdcArmContinuous m be n v s
  | .tdcArmGate m be n v => Sys2Proof.Machine.execTdcArmGate m be n v s
  | .tdcArmCompare m be n v => Sys2Proof.Machine.execTdcArmCompare m be n v s
  | .tdcDisarm m be n v => Sys2Proof.Machine.execTdcDisarm m be n v s
  | .tdcGateRise g => Sys2Proof.Machine.execTdcGateRise g s
  | .tdcGateFall g => Sys2Proof.Machine.execTdcGateFall g s
  | .tdcResultRead m be n => Sys2Proof.Machine.execTdcResultRead m be n s
  | .tdcDiffConfigWrite m be u v => Sys2Proof.Machine.execTdcDiffConfigWrite m be u v s
  | .calTrigger k idx => Sys2Proof.Machine.execCalTrigger k idx s
  | .calCommandOffset m be item => Sys2Proof.Machine.execCalCommandOffset m be item s
  | .calCommandTrunk m be item => Sys2Proof.Machine.execCalCommandTrunk m be item s
  | .calCommandAsym m be item => Sys2Proof.Machine.execCalCommandAsym m be item s
  | .calDeferredStart l => Sys2Proof.Machine.execCalDeferredStart l s
  | .calRunComplete k idx a0 a1 b0 b1 => Sys2Proof.Machine.execCalRunComplete k idx a0 a1 b0 b1 s
  | .calApplyStep what idx => Sys2Proof.Machine.execCalApplyStep what idx s
  | .calEnableWrite m be v => Sys2Proof.Machine.execCalEnableWrite m be v s
  | .notchSearch n k lines depth pwr floor follow => Sys2Proof.Machine.execNotchSearch n k lines depth pwr floor follow s
  | .notchRelease n k => Sys2Proof.Machine.execNotchRelease n k s
  | .acqGo m be v => Sys2Proof.Machine.execAcqGo m be v s
  | .acqDone pnr code dop idx => Sys2Proof.Machine.execAcqDone pnr code dop idx s
  | .epochEnd c data pilot half cn0 x => Sys2Proof.Machine.execEpochEnd c data pilot half cn0 x s
  | .channelNcoWrite m be c reg v => Sys2Proof.Machine.execChannelNcoWrite m be c reg v s
  | .channelSlewWrite m be c v => Sys2Proof.Machine.execChannelSlewWrite m be c v s
  | .ownerWrite m be c v => Sys2Proof.Machine.execOwnerWrite m be c v s
  | .timeMessage x sec utc pend sign lead => Sys2Proof.Machine.execTimeMessage x sec utc pend sign lead s
  | .belvederePps interval x => Sys2Proof.Machine.execBelvederePps interval x s
  | .gnssUtcLoad => Sys2Proof.Machine.execGnssUtcLoad s
  | .snapshotGo m be v => Sys2Proof.Machine.execSnapshotGo m be v s
  | .snapshotCaptureStart k x => Sys2Proof.Machine.execSnapshotCaptureStart k x s
  | .snapshotCaptureEnd k x y z w => Sys2Proof.Machine.execSnapshotCaptureEnd k x y z w s
  | .snapshotRelease m be v => Sys2Proof.Machine.execSnapshotRelease m be v s
  | .grottoGo m be j v => Sys2Proof.Machine.execGrottoGo m be j v s
  | .grottoChannelClaim j => Sys2Proof.Machine.execGrottoChannelClaim j s
  | .grottoWaitTimeout j => Sys2Proof.Machine.execGrottoWaitTimeout j s
  | .rangingExchange j p good aFar sFar => Sys2Proof.Machine.execRangingExchange j p good aFar sFar s
  | .grottoPeerTimeout j => Sys2Proof.Machine.execGrottoPeerTimeout j s
  | .grottoDone j x y z => Sys2Proof.Machine.execGrottoDone j x y z s
  | .grottoCancel m be j v => Sys2Proof.Machine.execGrottoCancel m be j v s
  | .gnssDisable m be v => Sys2Proof.Machine.execGnssDisable m be v s
  | .portEnable m be p v => Sys2Proof.Machine.execPortEnable m be p v s
  | .portDisable m be p v => Sys2Proof.Machine.execPortDisable m be p v s
  | .frameReceive p bs code abort sof sub => Sys2Proof.Machine.execFrameReceive p bs code abort sof sub s
  | .ethLinkUp p => Sys2Proof.Machine.execEthLinkUp p s
  | .ethLinkDown p lf rf => Sys2Proof.Machine.execEthLinkDown p lf rf s
  | .superblockTransmit x => Sys2Proof.Machine.execSuperblockTransmit x s
  | .superblockReceive l line fix ppt sub => Sys2Proof.Machine.execSuperblockReceive l line fix ppt sub s
  | .cdrLock l => Sys2Proof.Machine.execCdrLock l s
  | .cdrLoss l => Sys2Proof.Machine.execCdrLoss l s
  | .negWordReceive p w ppt => Sys2Proof.Machine.execNegWordReceive p w ppt s
  | .rateStep p => Sys2Proof.Machine.execRateStep p s
  | .txpllLock p => Sys2Proof.Machine.execTxpllLock p s
  | .trainComplete p => Sys2Proof.Machine.execTrainComplete p s
  | .verifyComplete p => Sys2Proof.Machine.execVerifyComplete p s
  | .bringupTimeout p => Sys2Proof.Machine.execBringupTimeout p s
  | .rateFallback p => Sys2Proof.Machine.execRateFallback p s
  | .phaseSlip p => Sys2Proof.Machine.execPhaseSlip p s
  | .txpllLoss l => Sys2Proof.Machine.execTxpllLoss l s
  | .upstreamSelect => Sys2Proof.Machine.execUpstreamSelect s
  | .localTimeMessage p sec utc => Sys2Proof.Machine.execLocalTimeMessage p sec utc s
  | .eyeScanGo m be l v => Sys2Proof.Machine.execEyeScanGo m be l v s
  | .eyeScanStop m be l v => Sys2Proof.Machine.execEyeScanStop m be l v s
  | .eyeScanDone l err => Sys2Proof.Machine.execEyeScanDone l err s
  | .crossbarGrant e => Sys2Proof.Machine.execCrossbarGrant e s
  | .crossbarTimeoutDrop ing e l => Sys2Proof.Machine.execCrossbarTimeoutDrop ing e l s
  | .frameTransmit p => Sys2Proof.Machine.execFrameTransmit p s
  | .gateEntryChange p => Sys2Proof.Machine.execGateEntryChange p s
  | .schedulerEnable m be p v => Sys2Proof.Machine.execSchedulerEnable m be p v s
  | .schedulerDisable m be p v => Sys2Proof.Machine.execSchedulerDisable m be p v s
  | .schedulerStopped p => Sys2Proof.Machine.execSchedulerStopped p s
  | .flushComplete p => Sys2Proof.Machine.execFlushComplete p s
  | .tierMoveStart p t => Sys2Proof.Machine.execTierMoveStart p t s
  | .tierMoveDone p t => Sys2Proof.Machine.execTierMoveDone p t s
  | .learnCommit => Sys2Proof.Machine.execLearnCommit s
  | .moveWindowExpiry vid mac => Sys2Proof.Machine.execMoveWindowExpiry vid mac s
  | .flapHoldEnd vid mac => Sys2Proof.Machine.execFlapHoldEnd vid mac s
  | .refreshCommit r => Sys2Proof.Machine.execRefreshCommit r s
  | .ageTick => Sys2Proof.Machine.execAgeTick s
  | .agerVisit stream idx => Sys2Proof.Machine.execAgerVisit stream idx s
  | .ageDeleteCommit => Sys2Proof.Machine.execAgeDeleteCommit s
  | .portDownTableFlush p => Sys2Proof.Machine.execPortDownTableFlush p s
  | .tableRead n d => Sys2Proof.Machine.execTableRead n d s
  | .tableWrite n d data => Sys2Proof.Machine.execTableWrite n d data s
  | .tableInsert n d data => Sys2Proof.Machine.execTableInsert n d data s
  | .tableDelete n d data => Sys2Proof.Machine.execTableDelete n d data s
  | .tableSearch n d data => Sys2Proof.Machine.execTableSearch n d data s
  | .tableFlush n d => Sys2Proof.Machine.execTableFlush n d s
  | .tableFlushDone => Sys2Proof.Machine.execTableFlushDone s
  | .snapshotRead n d => Sys2Proof.Machine.execSnapshotRead n d s
  | .tblLockSet m be v => Sys2Proof.Machine.execTblLockSet m be v s
  | .tblLockClr m be v => Sys2Proof.Machine.execTblLockClr m be v s
  | .lockExpired b => Sys2Proof.Machine.execLockExpired b s
  | .cueSubmit n d img => Sys2Proof.Machine.execCueSubmit n d img s
  | .cueValidated n => Sys2Proof.Machine.execCueValidated n s
  | .cueCommitting => Sys2Proof.Machine.execCueCommitting s
  | .cueCommit => Sys2Proof.Machine.execCueCommit s
  | .scheduleChangeAtB p => Sys2Proof.Machine.execScheduleChangeAtB p s
  | .cueCancel m be v => Sys2Proof.Machine.execCueCancel m be v s
  | .cleanSwitchPoint => Sys2Proof.Machine.execCleanSwitchPoint s
  | .cswForced => Sys2Proof.Machine.execCswForced s
  | .presenceSend => Sys2Proof.Machine.execPresenceSend s
  | .presenceReceive p hdr payload => Sys2Proof.Machine.execPresenceReceive p hdr payload s
  | .prepareReceive p hdr payload => Sys2Proof.Machine.execPrepareReceive p hdr payload s
  | .readyReceive p hdr payload => Sys2Proof.Machine.execReadyReceive p hdr payload s
  | .armReceive p hdr payload => Sys2Proof.Machine.execArmReceive p hdr payload s
  | .abortReceive p hdr payload => Sys2Proof.Machine.execAbortReceive p hdr payload s
  | .armDeadline => Sys2Proof.Machine.execArmDeadline s
  | .fabricCueTimeout => Sys2Proof.Machine.execFabricCueTimeout s
  | .resultReceive p hdr payload => Sys2Proof.Machine.execResultReceive p hdr payload s
  | .resultWindowExpiry => Sys2Proof.Machine.execResultWindowExpiry s
  | .blockBoundary rate blog runs bad stuck work => Sys2Proof.Machine.execBlockBoundary rate blog runs bad stuck work s
  | .jobMoveStart h home => Sys2Proof.Machine.execJobMoveStart h home s
  | .jobStateCopy h => Sys2Proof.Machine.execJobStateCopy h s
  | .audioInPacket r => Sys2Proof.Machine.execAudioInPacket r s
  | .e131Packet r => Sys2Proof.Machine.execE131Packet r s
  | .e131SourceTimeout h => Sys2Proof.Machine.execE131SourceTimeout h s
  | .e131Keepalive h => Sys2Proof.Machine.execE131Keepalive h s
  | .st20227Packet r => Sys2Proof.Machine.execSt20227Packet r s
  | .createJob n d rec img home => Sys2Proof.Machine.execCreateJob n d rec img home s
  | .deleteJob n d => Sys2Proof.Machine.execDeleteJob n d s
  | .setParam n d => Sys2Proof.Machine.execSetParam n d s
  | .loadSet n d gains => Sys2Proof.Machine.execLoadSet n d gains s
  | .createStream n d rec => Sys2Proof.Machine.execCreateStream n d rec s
  | .deleteStream n d => Sys2Proof.Machine.execDeleteStream n d s
  | .readJob n d => Sys2Proof.Machine.execReadJob n d s
  | .cellEvacuate m be c v => Sys2Proof.Machine.execCellEvacuate m be c v s
  | .cellReturn m be c v => Sys2Proof.Machine.execCellReturn m be c v s
  | .cellReady c => Sys2Proof.Machine.execCellReady c s
  | .ringEnable m be n v => Sys2Proof.Machine.execRingEnable m be n v s
  | .ringDisable m be n v => Sys2Proof.Machine.execRingDisable m be n v s
  | .ringStopped n => Sys2Proof.Machine.execRingStopped n s
  | .cqEnable m be n v => Sys2Proof.Machine.execCqEnable m be n v s
  | .cqDisable m be n v => Sys2Proof.Machine.execCqDisable m be n v s
  | .ringDoorbell be a v => Sys2Proof.Machine.execRingDoorbell be a v s
  | .cqDoorbell be a v => Sys2Proof.Machine.execCqDoorbell be a v s
  | .cqRearm be a v => Sys2Proof.Machine.execCqRearm be a v s
  | .txDescriptor n d data => Sys2Proof.Machine.execTxDescriptor n d data s
  | .rxFrameDelivery descs => Sys2Proof.Machine.execRxFrameDelivery descs s
  | .completionResume n => Sys2Proof.Machine.execCompletionResume n s
  | .cqFire c => Sys2Proof.Machine.execCqFire c s
  | .linkL0Reached => Sys2Proof.Machine.execLinkL0Reached s
  | .dmaReadError n fetch => Sys2Proof.Machine.execDmaReadError n fetch s
  | .hostPortDown d3 bme0 msix0 => Sys2Proof.Machine.execHostPortDown d3 bme0 msix0 s
  | .hostPortUp => Sys2Proof.Machine.execHostPortUp s
  | .functionLevelReset => Sys2Proof.Machine.execFunctionLevelReset s
  | .perstAssert => Sys2Proof.Machine.execPerstAssert s
  | .perstDeassert => Sys2Proof.Machine.execPerstDeassert s
  | .pendSetWrite m be w v => Sys2Proof.Machine.execPendSetWrite m be w v s
  | .pendClrWrite m be w v => Sys2Proof.Machine.execPendClrWrite m be w v s
  | .maskSetWrite m be w v => Sys2Proof.Machine.execMaskSetWrite m be w v s
  | .maskClrWrite m be w v => Sys2Proof.Machine.execMaskClrWrite m be w v s
  | .irqTargetWrite m be n v => Sys2Proof.Machine.execIrqTargetWrite m be n v s
  | .irqClaim m be t => Sys2Proof.Machine.execIrqClaim m be t s
  | .irqEoi m be t v => Sys2Proof.Machine.execIrqEoi m be t v s
  | .stackClear m be v => Sys2Proof.Machine.execStackClear m be v s
  | .wakeEntryWrite m be idx v => Sys2Proof.Machine.execWakeEntryWrite m be idx v s
  | .powerRequestP0 m be key => Sys2Proof.Machine.execPowerRequestP0 m be key s
  | .powerRequestP1 m be key => Sys2Proof.Machine.execPowerRequestP1 m be key s
  | .powerRequestP2 m be key => Sys2Proof.Machine.execPowerRequestP2 m be key s
  | .powerRequestP3 m be key => Sys2Proof.Machine.execPowerRequestP3 m be key s
  | .p1EntryDone => Sys2Proof.Machine.execP1EntryDone s
  | .p0ReturnDone => Sys2Proof.Machine.execP0ReturnDone s
  | .pavilionGate r => Sys2Proof.Machine.execPavilionGate r s
  | .pavilionUngateDone r => Sys2Proof.Machine.execPavilionUngateDone r s
  | .p2Commit => Sys2Proof.Machine.execP2Commit s
  | .p2EntryDone => Sys2Proof.Machine.execP2EntryDone s
  | .p2DepartureDone => Sys2Proof.Machine.execP2DepartureDone s
  | .p3LinkReady ready => Sys2Proof.Machine.execP3LinkReady ready s
  | .p3SundialLastPps => Sys2Proof.Machine.execP3SundialLastPps s
  | .p3EntryDone => Sys2Proof.Machine.execP3EntryDone s
  | .p3Restart => Sys2Proof.Machine.execP3Restart s
  | .sundialLodgeLoad => Sys2Proof.Machine.execSundialLodgeLoad s
  | .p3RestartDone => Sys2Proof.Machine.execP3RestartDone s
  | .lodgeSync => Sys2Proof.Machine.execLodgeSync s
  | .lodgePps => Sys2Proof.Machine.execLodgePps s
  | .oscinLapse => Sys2Proof.Machine.execOscinLapse s
  | .alarmSet m be high v => Sys2Proof.Machine.execAlarmSet m be high v s
  | .lodgeAlarm => Sys2Proof.Machine.execLodgeAlarm s
  | .wakePinEdge pin => Sys2Proof.Machine.execWakePinEdge pin s
  | .trunkWakeSend m be v => Sys2Proof.Machine.execTrunkWakeSend m be v s
  | .trunkWakeSendDone => Sys2Proof.Machine.execTrunkWakeSendDone s
  | .trunkWakeReceive p w => Sys2Proof.Machine.execTrunkWakeReceive p w s
  | .feedLost x va vb => Sys2Proof.Machine.execFeedLost x va vb s
  | .feedReturn x va vb => Sys2Proof.Machine.execFeedReturn x va vb s
  | .feedRevert => Sys2Proof.Machine.execFeedRevert s
  | .lodgeStop => Sys2Proof.Machine.execLodgeStop s
  | .chargeComplete c => Sys2Proof.Machine.execChargeComplete c s
  | .chargeTimeout v => Sys2Proof.Machine.execChargeTimeout v s
  | .fieldShort b => Sys2Proof.Machine.execFieldShort b s
  | .fieldRetry b => Sys2Proof.Machine.execFieldRetry b s
  | .nvmWindowWrite m be o v => Sys2Proof.Machine.execNvmWindowWrite m be o v s
  | .nvmWriteDone fail => Sys2Proof.Machine.execNvmWriteDone fail s
  | .histogramEnable m be pav u v => Sys2Proof.Machine.execHistogramEnable m be pav u v s
  | .histogramDisable m be pav u v => Sys2Proof.Machine.execHistogramDisable m be pav u v s
  | .sensorRead temps => Sys2Proof.Machine.execSensorRead temps s
  | .supplyRead mv => Sys2Proof.Machine.execSupplyRead mv s
  | .supplyFault m => Sys2Proof.Machine.execSupplyFault m s
  | .eccUncorrectable x => Sys2Proof.Machine.execEccUncorrectable x s
  | .lodgePowerOn => Sys2Proof.Machine.execLodgePowerOn s
  | .lodgeStart va vb => Sys2Proof.Machine.execLodgeStart va vb s
  | .railEnable => Sys2Proof.Machine.execRailEnable s
  | .railGoodRise => Sys2Proof.Machine.execRailGoodRise s
  | .railGoodTimeout => Sys2Proof.Machine.execRailGoodTimeout s
  | .railGoodFall => Sys2Proof.Machine.execRailGoodFall s
  | .railOffHoldEnd => Sys2Proof.Machine.execRailOffHoldEnd s
  | .chipResetPin low => Sys2Proof.Machine.execChipResetPin low s
  | .chipReset fails => Sys2Proof.Machine.execChipReset fails s
  | .chipResetRelease => Sys2Proof.Machine.execChipResetRelease s
  | .firmwareLoad x => Sys2Proof.Machine.execFirmwareLoad x s
  | .gatehouseReady => Sys2Proof.Machine.execGatehouseReady s
  | .configImageApply => Sys2Proof.Machine.execConfigImageApply s
  | .testenHigh high => Sys2Proof.Machine.execTestenHigh high s
  | .jtagBypass => Sys2Proof.Machine.execJtagBypass s
  | .jtagIdcode => Sys2Proof.Machine.execJtagIdcode s
  | .jtagSamplePreload pins data => Sys2Proof.Machine.execJtagSamplePreload pins data s
  | .jtagExtest => Sys2Proof.Machine.execJtagExtest s
  | .jtagHighz => Sys2Proof.Machine.execJtagHighz s
  | .oscinReturn => Sys2Proof.Machine.execOscinReturn s
  | .clearOnRead m be a => Sys2Proof.Machine.execClearOnRead m be a s
  | .timeBusLatencyMeasured => Sys2Proof.Machine.execTimeBusLatencyMeasured s
  | .calRangingTimeout p => Sys2Proof.Machine.execCalRangingTimeout p s
  | .antennaFaultChange low => Sys2Proof.Machine.execAntennaFaultChange low s
  | .timeSolutionUpdate x px py pz => Sys2Proof.Machine.execTimeSolutionUpdate x px py pz s
  | .ptpPortStateChange p st mpd => Sys2Proof.Machine.execPtpPortStateChange p st mpd s
  | .pcieLinkChange link width speed => Sys2Proof.Machine.execPcieLinkChange link width speed s
  | .pcieConfigRequest x => Sys2Proof.Machine.execPcieConfigRequest x s

end Sys2Proof.Machine
end

