-- ==== Sys2Proof/Safety.lean ====
section
/-!
DEFINITION. Safety.lean: what a safe run is, and the form that every state of a run keeps.
-/
namespace Sys2Proof.Machine

/-- A step is safe when it answers a next state. -/
def SafeStep (s : State) : Prop := ∃ t, step s = .next t

/-- The register file in canonical form: offsets strictly rising, no register listed at its reset value. -/
def State.regsCanonical (s : State) : Prop := AMap.wf s.regs = true ∧ ∀ e ∈ s.regs, e.2 ≠ resetOf e.1

/-- The NVM in canonical form: addresses strictly rising, no byte listed that is 0. -/
def State.nvmCanonical (s : State) : Prop := AMap.wf s.nvm.bytes = true ∧ ∀ e ∈ s.nvm.bytes, e.2 ≠ 0

/-- Both (the model's two addressed memories). -/
def State.canonical (s : State) : Prop := s.regsCanonical ∧ s.nvmCanonical

end Sys2Proof.Machine
end

