-- ==== Sys2Proof/Certificates/Slice0/Obligations.lean ====
section
/-!
DEFINITION. Obligations.lean: the statements for the provers. Names of registers and fields, and the operations the statements use, are the model's;
each statement's docstring names the rules it follows.
-/
open Sys2Proof Sys2Proof.Machine

/-! ## The block and its queue -/

/-- A step takes the command at the front of the queue and runs it on the queue's rest; on an empty queue the block idles (the model's choice, log
entry 1). -/
def Obligations.StepRunsTheFrontCommand : Prop :=
  (∀ (c : Instr) (s : State), step { s with pending := c :: s.pending } = exec c s) ∧
  ∀ s : State, s.pending = [] → step s = .next s

/-- No command ends in a fault or a refusal, whatever the state: every meaning of the model is an effect. -/
def Obligations.EveryStepAnswersANextState : Prop := ∀ s : State, SafeStep s

/-- Every step keeps the register file and the NVM in canonical form, so that equal contents are equal data. -/
def Obligations.EveryStepKeepsTheCanonicalForm : Prop := ∀ s t : State, s.canonical → step s = .next t → t.canonical

/-- The state after reset is in canonical form. -/
def Obligations.ResetIsCanonical : Prop := State.reset.canonical

/-- A step takes exactly one command from the queue and adds none. -/
def Obligations.EveryStepTakesExactlyOneCommand : Prop := ∀ s t : State, step s = .next t → t.pending = s.pending.tail

/-- What has left the chip stays as it left, and neither the time nor the count of free values runs back. -/
def Obligations.OutputsAndTimeNeverRunBack : Prop :=
  ∀ s t : State, step s = .next t → s.sent <:+ t.sent ∧ s.elapsed ≤ t.elapsed ∧ s.fresh ≤ t.fresh

/-- The NVM changes only when a write of it completes (R743, R801): every byte reads as before after every other command, resets and the Lodge's
power-on among them. -/
def Obligations.OnlyACompletedWriteChangesTheNvm : Prop :=
  ∀ (c : Instr) (s t : State), (∀ fail, c ≠ .nvmWriteDone fail) → exec c s = .next t →
    ∀ a : Nat, AMap.getD t.nvm.bytes a 0 = AMap.getD s.nvm.bytes a 0

/-- A chip held in reset leaves it by CHIP_RESET_RELEASE alone (R803 step 5). -/
def Obligations.OnlyTheReleaseEndsAChipReset : Prop :=
  ∀ (c : Instr) (s t : State), c ≠ .chipResetRelease → s.held = true → exec c s = .next t → t.held = true

/-! ## Register accesses -/

namespace Sys2Proof.Claims

/-- The classes of R53 that a single plain write changes. -/
def plain (x : Reg) : Bool := x.row.cls == .rw || x.row.cls == .w1c || x.row.cls == .set || x.row.cls == .clr

/-- A register without an effect of its own beyond the store. -/
def quiet (x : Reg) : Bool := plain x && x.row.eff == .none

/-- An aligned access of `m` at `a` reaches the register `x` of a chip that answers; a management core acts only with signed firmware (R32). -/
def reaches (s : State) (m : Master) (a : Nat) (x : Reg) : Bool := masterActs s m && a % 4 == 0 && regOf a == some x

/-- A write of `v` by `m` at `a` reaches `x`, which takes plain writes, and passes every check of R89. -/
def taken (s : State) (m : Master) (be : BitVec 4) (a : Nat) (v : Word) (x : Reg) : Bool :=
  reaches s m a x && be == 0xF && plain x && writeCode s m x v false == 0

/-- What such a write leaves: the register's new word and the effects its chapter gives the write, a mode write uses up its key, and the access is
counted (R764). -/
def written (s : State) (m : Master) (a : Nat) (v : Word) (x : Reg) : State := counted (useKey (storeWrite s m x v) m x) m a

/-- What a refused write of register `x` leaves. -/
def refused (s : State) (m : Master) (a : Nat) (x : Reg) (code : Nat) : State :=
  counted (refuse (useKey s m x) m x.b code x.o (ownAddr a)) m a

/-- What a plain write of `v` makes of a register that holds `old` (R53, R56). -/
def stored (x : Reg) (old v : Word) : Word :=
  match x.row.cls with
  | .set => old ||| v
  | .w1c | .clr => old &&& ~~~v
  | _ => storeFields x.row.flds old v

end Sys2Proof.Claims

open Sys2Proof.Claims

/-- What a taken write stores in a register that has no effect of its own: the fields of an RW register take their bits by their own rule, a 1 clears
its bit in a W1C register (R53, R56); every other register and everything else in the machine stays as it was, and then the access is counted. A write
wider than a dword is its first dword's write and then that of the rest, and a wider read in the same way, in ascending address order (R48). -/
def Obligations.PlainWriteStoresByItsClass : Prop :=
  ∀ (s : State) (m : Master) (be : BitVec 4) (a : BitVec 25) (v : Word) (x : Reg),
    (s.regsCanonical → taken s m be a.toNat v x = true → quiet x = true →
      ∃ t, exec (.registerWrite m be a v ⟨false, []⟩) s = .next (counted t m a.toNat) ∧
        t.rd x.home = stored x (s.rd x.home) v ∧
        (∀ a' : Nat, a' ≠ x.home → t.rd a' = s.rd a') ∧
        t = { s with regs := t.regs }) ∧
    (∀ (p : Bool) (e : BitVec 4 × Word) (l : List (BitVec 4 × Word)) (t : State), a.toNat + 4 < 2 ^ 25 →
      exec (.registerWrite m be a v ⟨p, []⟩) s = .next t →
      exec (.registerWrite m be a v ⟨p, e :: l⟩) s = exec (.registerWrite m e.1 (a + 4) e.2 ⟨false, l⟩) t) ∧
    (∀ (be' : BitVec 4) (t u : State), a.toNat + 4 < 2 ^ 25 → exec (.counterRead m ⟨be, []⟩ a) s = .next t →
      exec (.counterRead m ⟨be', []⟩ (a + 4)) { t with busMore := s.busMore } = .next u →
      exec (.counterRead m ⟨be, [be']⟩ a) s = .next { u with busOut := t.busOut, busMore := [u.busOut] })

/-- The checks of a plain register write, in the order of R89, each deciding when those before it pass: width and alignment, chip mode, lock and key,
class S, encoding, range, register parity. The failing code latches in the block's BLK_ERR, and the register is not written (R46, R88). -/
def Obligations.FirstFailingCheckGivesTheCode : Prop :=
  ∀ (s : State) (m : Master) (be : BitVec 4) (a : BitVec 25) (v : Word) (p : Bool) (x : Reg),
    masterActs s m = true → regOf a.toNat = some x → plain x = true →
    let out (code : Nat) : Prop := exec (.registerWrite m be a v ⟨p, []⟩) s = .next (refused s m a.toNat x code)
    (be ≠ 0xF ∨ a.toNat % 4 ≠ 0 →
      exec (.registerWrite m be a v ⟨p, []⟩) s = .next (counted (refuse s m x.b 0x11 x.o (ownAddr a.toNat)) m a.toNat)) ∧
    (be = 0xF → a.toNat % 4 = 0 →
      (modeBad s x v = true → out 0x10) ∧
      (modeBad s x v = false →
        (lockBad s m x v = true → out 0x02) ∧
        (lockBad s m x v = false →
          (ownerActive s x = true → out 0x03) ∧
          (ownerActive s x = false →
            (valueIllegal s m x v = true → out 0x01) ∧
            (valueIllegal s m x v = false →
              (valueRange s m x v = true → out 0x06) ∧ (valueRange s m x v = false → p = true → out 0x12))))))

/-- A write to an RO, RC or SNAP register is ignored and latches nothing (R92): but for the count of the access nothing changes. -/
def Obligations.WriteToReadOnlyClassesIsIgnored : Prop :=
  ∀ (s : State) (m : Master) (a : BitVec 25) (v : Word) (p : Bool) (x : Reg),
    reaches s m a.toNat x = true → x.row.cls = .ro ∨ x.row.cls = .rc ∨ x.row.cls = .rcHi ∨ x.row.cls = .snap →
    exec (.registerWrite m 0xF a v ⟨p, []⟩) s = .next (counted s m a.toNat)

/-- A WM write changes the data bits whose mask bits it sets, and no other; bits 31:16 are not stored; with no mask bit it changes no data bit; and it
is checked on the word that results from the merge (R53, R55). No register map of the spec has a register of this class, so the statement is about the
class's rule. -/
def Obligations.MaskedWriteMergesItsBits : Prop :=
  ∀ (s : State) (m : Master) (x : Reg) (old v : Word), x.row.cls = .wm → x.row.eff = .none →
    (∀ i : Nat, i < 16 → bit (newWord x old v) i = if bit v (16 + i) then bit v i else bit old i) ∧
    (∀ i : Nat, 16 ≤ i → bit (newWord x old v) i = false) ∧
    (v >>> 16 = 0 → old >>> 16 = 0 → newWord x old v = old) ∧
    (valueIllegal s m x v = true ↔ illegalValue x.row.flds (newWord x (s.rd x.home) v) = true) ∧
    (valueRange s m x v = true ↔ rangeValue x.row.flds (newWord x (s.rd x.home) v) = true)

/-- A new error overwrites CODE, MASTER and OFFSET of BLK_ERR and sets OVF if CODE was not zero (R50); it drives the block's error source while
ERR_INT_EN is 1 (R671), and otherwise changes nothing else. -/
def Obligations.NewErrorOverwritesBlkErr : Prop :=
  ∀ (s : State) (b : Block) (code : Fin 256) (off : Fin 65536) (m : Master), s.regsCanonical →
    ∃ t : State, t = { s with regs := t.regs } ∧ (∀ a' : Nat, a' ≠ b.base + 0x008 → t.rd a' = s.rd a') ∧
      t.fld (b.base + 0x008) 23 16 = code ∧ t.fld (b.base + 0x008) 15 0 = off ∧ t.fld (b.base + 0x008) 30 28 = m.num ∧
      t.flag (b.base + 0x008) 31 = decide (s.fld (b.base + 0x008) 23 16 ≠ 0) ∧
      latchErr s b code off m = if s.flag (b.base + 0x004) 2 then latchSource t (errSource b) else t

/-- Reading BLK_ERR returns its content and clears it (R51), at whatever byte enables (R47); nothing else changes but the count of the access. -/
def Obligations.ReadingBlkErrClearsIt : Prop :=
  ∀ (s : State) (m : Master) (be : BitVec 4) (a : BitVec 25) (b : Block) (o : Nat), masterActs s m = true → locate a.toNat = some (b, o) →
    exec (.blkErrRead m be a) s = .next (counted { s.wr (b.base + 0x008) 0 with busOut := s.rd (b.base + 0x008) } m (b.base + 0x008))

/-- An access to a reserved range of BAR0 (R44): a read returns 0; the address, the master and the byte enables are recorded, E_RANGE latches in
CHP_BLK_ERR with bits 15:0 of the address, and a refused write is counted as one. A chip in reset or in P3 does not answer (R36, R710), and a
management core without signed firmware does not act (R32). -/
def Obligations.ReservedRangeIsRecorded : Prop :=
  ∀ (s : State) (m : Master) (be : BitVec 4) (a : BitVec 25), resolve a.toNat = none →
    let c := (s.wr (chpB + 0x048) (w32 a.toNat))
    let rec_ (wr : Bool) : State :=
      latchErr (c.wr (chpB + 0x04C) (bitW 8 wr ||| fieldW 6 4 m.num ||| w32 be.toNat)) ⟨.chp, 0, 0⟩ 0x06 (a.toNat % 0x10000) m
    (masterActs s m = false → ∀ wr, exec (.reservedRangeAccess m wr be a) s = .next s) ∧
    (masterActs s m = true →
      exec (.reservedRangeAccess m false be a) s = .next (counted { rec_ false with busOut := 0 } m a.toNat) ∧
      exec (.reservedRangeAccess m true be a) s = .next (counted (perfCount (rec_ true) none (busEvent 0x02 m a.toNat) 1) m a.toNat))

/-- A write to a reserved offset of a BAR2 page is ignored, and a read of any BAR2 offset returns 0 and changes nothing (R43); offset 0 of page n is
the doorbell of ring n (R42). -/
def Obligations.ReservedBar2WriteIsIgnored : Prop :=
  ∀ (s : State) (be : BitVec 4) (a : BitVec 20) (v : Word),
    (a.toNat % 0x1000 ≠ 0 → exec (.bar2ReservedWrite a (some (be, v))) s = .next s) ∧
    (s.alive = true → exec (.bar2ReservedWrite a none) s = .next { s with busOut := 0 }) ∧
    ∀ n : Fin 256, a.toNat = 0x1000 * n.val → exec (.bar2ReservedWrite a (some (be, v))) s = .next (doorbell s be n v)

/-- An access through an alias behaves as an access at the register's own offset, in every effect (R74, R75): a write, and a read. -/
def Obligations.AliasBehavesAsTheRegister : Prop :=
  ∀ (s : State) (m : Master) (be : BitVec 4) (a a' : BitVec 25) (v : Word) (p : Bool) (b : Block) (o : Nat),
    a.toNat % 4 = 0 → resolve a.toNat = some (b, o) → a'.toNat = b.base + o →
    exec (.registerWrite m be a v ⟨p, []⟩) s = exec (.registerWrite m be a' v ⟨p, []⟩) s ∧
    exec (.counterRead m ⟨be, []⟩ a) s = exec (.counterRead m ⟨be, []⟩ a') s

/-- Reading a live 32-bit counter, or any other RC register without a high half, returns its value and clears it (R53, R84); no other register
changes. -/
def Obligations.ReadingACounterClearsIt : Prop :=
  ∀ (s : State) (m : Master) (be : BitVec 4) (a : BitVec 25) (x : Reg), reaches s m a.toNat x = true → x.row.cls = .rc → x.row.eff = .none →
    (∀ d, x.row.ctr ≠ .c64 d) → hasHigh x.addr = false → s.regsCanonical →
    ∃ t u : State, exec (.counterRead m ⟨be, []⟩ a) s = .next u ∧ exec (.clearOnRead m ⟨be, []⟩ a) s = .next u ∧
      u = { counted t m a.toNat with busOut := s.rd x.addr, busMore := [] } ∧ t.rd x.addr = 0 ∧
      (∀ a' : Nat, a' ≠ x.addr → t.rd a' = s.rd a') ∧ t = { s with regs := t.regs, busOut := t.busOut }

/-- Reading the low half of a 64-bit counter clears the pair and latches its high half for the reading master; each read of the high half gives that
master the latched value and changes nothing (R86). -/
def Obligations.LowHalfLatchesTheHighHalf : Prop :=
  ∀ (s : State) (m : Master) (be : BitVec 4) (a : BitVec 25) (x : Reg) (d : Nat), reaches s m a.toNat x = true → x.row.cls = .rc → x.row.eff = .none →
    x.row.ctr = .c64 d → hasHigh x.addr = true → s.regsCanonical → AMap.wf s.latched = true →
    ∃ t : State, exec (.counterLowHalfRead m ⟨be, []⟩ a) s = .next { counted t m a.toNat with busOut := s.rd x.addr, busMore := [] } ∧
      t.rd64 x.addr = 0 ∧
      AMap.getD t.latched (8 * (x.addr + 4) + m.num) 0 = s.rd (x.addr + 4) ∧
      (∀ k : Nat, k ≠ 8 * (x.addr + 4) + m.num → AMap.getD t.latched k 0 = AMap.getD s.latched k 0) ∧
      (∀ a' : Nat, a' ≠ x.addr → a' ≠ x.addr + 4 → t.rd a' = s.rd a') ∧
      t = { s with regs := t.regs, latched := t.latched, busOut := t.busOut } ∧
      ∀ (u : State) (a' : BitVec 25) (y : Reg), masterActs u m = true → regOf a'.toNat = some y → y.addr = x.addr + 4 → y.row.cls = .rcHi →
        y.row.eff = .none → hasHigh y.addr = false →
        exec (.counterRead m ⟨be, []⟩ a') u =
          .next { counted u m a'.toNat with busOut := AMap.getD u.latched (8 * y.addr + m.num) 0, busMore := [] }

/-- A parity error found when a register is read (R94): the read returns the stored value with its side effects, and E_PARITY latches at the
register's offset. -/
def Obligations.ReadParityErrorLatches : Prop :=
  ∀ (s : State) (m : Master) (be : BitVec 4) (a : BitVec 25) (x : Reg), masterActs s m = true → regOf a.toNat = some x →
    let t := { readEffect s m x with busOut := readView s m x }
    exec (.registerReadParityError m be a) s = .next (counted (latchErr t x.b 0x12 x.o m) m a.toNat) ∧
    exec (.counterRead m ⟨be, []⟩ a) s = .next { counted t m a.toNat with busOut := readView s m x, busMore := [] }

/-- Every counter saturates at its all-ones value (R79); no other register changes. -/
def Obligations.CountersSaturate : Prop :=
  ∀ (s : State) (a n : Nat), s.regsCanonical →
    ((s.count a n).rd a).toNat = min ((s.rd a).toNat + n) (2 ^ 32 - 1) ∧ (∀ a' : Nat, a' ≠ a → (s.count a n).rd a' = s.rd a') ∧
    (s.count64 a n).rd64 a = min (s.rd64 a + n) (2 ^ 64 - 1) ∧ (∀ a' : Nat, a' ≠ a → a' ≠ a + 4 → (s.count64 a n).rd a' = s.rd a')

/-- A DW register takes a value only from a pair (R59 to R63). A first write opens the master's pair in the block and changes no register; the
complement write closes the pair, and stores the value if every check passes, mode and lock being checked anew before the pair (R89); with a value
that is not the complement, or for another register, or without an open pair, E_DWMISMATCH latches at a DW register's offset and nothing is stored;
the window's end closes the pair in the same way. -/
def Obligations.DualWriteNeedsBothWrites : Prop :=
  ∀ (s : State) (m : Master) (a : BitVec 25) (v : Word) (x : Reg), reaches s m a.toNat x = true →
    let own := ownAddr a.toNat
    let first (t : State) : Prop := exec (.dwFirstWrite m 0xF a v) s = .next (counted t m a.toNat)
    let second (t : State) : Prop := exec (.dwComplementWrite m 0xF a v) s = .next (counted t m a.toNat)
    (x.row.cls = .dw → modeBad s x v = true → first (refuse s m x.b 0x10 x.o own)) ∧
    (x.row.cls = .dw → modeBad s x v = false → lockBad s m x v = true → first (refuse s m x.b 0x02 x.o own)) ∧
    (x.row.cls = .dw → modeBad s x v = false → lockBad s m x v = false →
      (AMap.get s.dw (dwKey x.b m) = none → first { s with dw := AMap.set s.dw (dwKey x.b m) ⟨x.addr, v⟩ }) ∧
      ∀ q, AMap.get s.dw (dwKey x.b m) = some q →
        let r := refuse s m x.b 0x04 (q.reg - x.b.base) own
        first { r with dw := AMap.set r.dw (dwKey x.b m) ⟨x.addr, v⟩ }) ∧
    (x.row.cls = .comp → ∀ y, regOf x.home = some y →
      let c := closePair s x.b m
      (modeBad s y (~~~v) = true → second (refuse c m x.b 0x10 x.o own)) ∧
      (modeBad s y (~~~v) = false → lockBad s m y (~~~v) = true → second (refuse c m x.b 0x02 x.o own)) ∧
      (modeBad s y (~~~v) = false → lockBad s m y (~~~v) = false →
        (AMap.get s.dw (dwKey x.b m) = none → second (refuse s m x.b 0x04 (x.o - 0x800) own)) ∧
        ∀ q, AMap.get s.dw (dwKey x.b m) = some q →
          (q.reg ≠ y.addr → second (refuse c m x.b 0x04 (q.reg - x.b.base) own)) ∧
          (q.reg = y.addr → v ≠ ~~~q.val → second (refuse c m x.b 0x04 y.o own)) ∧
          (q.reg = y.addr → v = ~~~q.val → lateCode c m y q.val false = 0 → second (storeWrite c m y q.val)))) ∧
    ∀ q, AMap.get s.dw (dwKey x.b m) = some q →
      exec (.dwWindowExpiry m a) s = .next (latchErr (closePair s x.b m) x.b 0x04 (q.reg - x.b.base) m)

/-- The chip mode (R64 to R66). Writing 0xA5C3 to CHP_MODE_KEY gives the master a key, any other value takes it away, and nothing latches; a mode
write without a key is E_LOCKED; with one, a transition that the table does not allow is E_ILLEGAL, and the key is used up; MODE_KEY_EXPIRY always
completes: the master holds no key then, and nothing else changes. -/
def Obligations.ModeWriteNeedsItsKey : Prop :=
  ∀ (s : State) (m : Master) (v : Word),
    let x : Reg := ⟨⟨.chp, 0, 0⟩, 0x040, { off := 0x040, cls := .rw, flds := [encF 3 0 3], eff := .chpMode }, 0, 0⟩
    (masterActs s m = true → s.mode < 4 → s.flag (chpB + 0x004) 3 = false →
      ∃ t, exec (.modeKeyWrite m 0xF v) s = .next (counted t m (chpB + 0x044)) ∧ (m.num ∈ t.keys ↔ v = 0xA5C3) ∧
        (∀ n, n ≠ m.num → (n ∈ t.keys ↔ n ∈ s.keys)) ∧ t = { s with keys := t.keys, regs := t.regs }) ∧
    (masterActs s m = true → s.mode < 4 → m.num ∉ s.keys → exec (.modeChange m 0xF v) s = .next (refused s m (chpB + 0x040) x 0x02)) ∧
    (masterActs s m = true → s.mode < 4 → m.num ∈ s.keys → (4 ≤ v.toNat ∨ moveAllowed s s.mode (bits v 3 0) = false) →
      exec (.modeChange m 0xF v) s = .next (refused s m (chpB + 0x040) x 0x01) ∧ m.num ∉ (useKey s m x).keys) ∧
    (m.num ∈ s.keys →
      ∃ t : State, exec (.modeKeyExpiry m) s = .next t ∧ m.num ∉ t.keys ∧ (∀ n, n ≠ m.num → (n ∈ t.keys ↔ n ∈ s.keys)) ∧
        t = { s with keys := t.keys }) ∧
    (m.num ∉ s.keys → exec (.modeKeyExpiry m) s = .next s)

/-- The transitions between chip modes that a write can make (R64, R66): START to SERVICE or TEST, SERVICE to RECOVERY, RECOVERY to SERVICE while no
chip-level fatal fault is latched; naming the present mode is not a transition. -/
def Obligations.ModeMovesOnlyAsTheTableAllows : Prop :=
  ∀ (s : State) (old new : Fin 4), moveAllowed s old new = true ↔
    old = new ∨ (old = 0 ∧ new = 1) ∨ (old = 0 ∧ new = 2) ∨ (old = 1 ∧ new = 3) ∨ (old = 3 ∧ new = 1 ∧ s.flag (monB + 0x048) 31 = false)

/-- Every register of every map holds after reset the reset value its row gives; the chip mode is START and the power state P0 (R64, R698), CHP is
enabled and no node ID is set (R67), every source is masked (R674); no command waits and the NVM lists nothing (the model's own, log entries 1 and
22). -/
def Obligations.ResetLeavesTheStatedValues : Prop :=
  (∀ (a : Nat) (x : Reg), regOf a = some x → State.reset.rd a = w32 x.row.rst) ∧
  State.reset.mode = 0 ∧ State.reset.pstate = 0 ∧ State.reset.rd (chpB + 0x004) = 1 ∧ State.reset.rd (chpB + 0x050) = 0 ∧
  (∀ k : Fin 16, State.reset.rd (irqB + 0x180 + 8 * k.val) = 0xFFFFFFFF) ∧ State.reset.pending = [] ∧ State.reset.nvm.bytes = []

/-! ## The commands that write a register -/

/-- A write command of any block, of BLK_LOCK and BLK_SNAP, of CHP_MODE_KEY and CHP_MODE that passes every check of R89 takes effect (R45, R52, R64,
R65, R80, R89). -/
def Obligations.HeaderAndModeCommandsWriteTheirRegister : Prop :=
  ∀ (s : State) (m : Master) (be : BitVec 4) (x : Reg) (v : Word),
    (∀ (a : BitVec 25), taken s m be a.toNat v x = true →
      exec (.registerWrite m be a v ⟨false, []⟩) s = .next (written s m a.toNat v x)) ∧
    (∀ (a : BitVec 25), taken s m be (headerAddr a.toNat 0x00C) v x = true →
      exec (.blkLockWrite m be a v) s = .next (written s m (headerAddr a.toNat 0x00C) v x)) ∧
    (∀ (a : BitVec 25) (target : Byte), taken s m be (headerAddr a.toNat 0x010) (w32 (target.toNat * 256 + 0)) x = true →
      exec (.snapshotPort m be a target) s = .next (written s m (headerAddr a.toNat 0x010) (w32 (target.toNat * 256 + 0)) x)) ∧
    (∀ (a : BitVec 25) (target : Byte), taken s m be (headerAddr a.toNat 0x010) (w32 (target.toNat * 256 + 1)) x = true →
      exec (.snapshotPavilion m be a target) s = .next (written s m (headerAddr a.toNat 0x010) (w32 (target.toNat * 256 + 1)) x)) ∧
    (∀ (a : BitVec 25) (target : Byte), taken s m be (headerAddr a.toNat 0x010) (w32 (target.toNat * 256 + 2)) x = true →
      exec (.snapshotChip m be a target) s = .next (written s m (headerAddr a.toNat 0x010) (w32 (target.toNat * 256 + 2)) x)) ∧
    (taken s m be (chpB + 0x044) v x = true →
      exec (.modeKeyWrite m be v) s = .next (written s m (chpB + 0x044) v x)) ∧
    (taken s m be (chpB + 0x040) v x = true →
      exec (.modeChange m be v) s = .next (written s m (chpB + 0x040) v x))

/-- A command that writes a register of the CLK or SUN block and passes every check of R89 takes effect: the register holds its new word, and the
write's own effects happen (R45, R89). -/
def Obligations.ClockAndTimeCommandsWriteTheirRegister : Prop :=
  ∀ (s : State) (m : Master) (be : BitVec 4) (x : Reg) (v : Word),
    (∀ (n : Fin 8) (nom : Bool), taken s m be (clkB + 0x100 + 0x20 * n.val + (if nom then 4 else 0)) v x = true →
      exec (.refConfigWrite m be n nom v) s = .next (written s m (clkB + 0x100 + 0x20 * n.val + (if nom then 4 else 0)) v x)) ∧
    (∀ (d : Fin 4), taken s m be (dpllCfg d) v x = true →
      exec (.dpllModeWrite m be d v) s = .next (written s m (dpllCfg d) v x)) ∧
    (taken s m be (clkB + 0x060) v x = true →
      exec (.outputEnableSet m be v) s = .next (written s m (clkB + 0x060) v x)) ∧
    (taken s m be (clkB + 0x064) v x = true →
      exec (.outputEnableClear m be v) s = .next (written s m (clkB + 0x064) v x)) ∧
    (∀ (k : Fin 8), taken s m be (clkB + 0x30C + 0x20 * k.val) v x = true →
      exec (.outputDelayWrite m be k v) s = .next (written s m (clkB + 0x30C + 0x20 * k.val) v x)) ∧
    (taken s m be (sunB + 0x05C) v x = true →
      exec (.domainSelectWrite m be v) s = .next (written s m (sunB + 0x05C) v x)) ∧
    (∀ (k : Fin 8), taken s m be (timeOutCfg k.val) (putBits v 0 0 1) x = true →
      exec (.timeOutputEnable m be k v) s = .next (written s m (timeOutCfg k.val) (putBits v 0 0 1) x)) ∧
    (∀ (k : Fin 8), taken s m be (timeOutCfg k.val) (putBits v 0 0 0) x = true →
      exec (.timeOutputDisable m be k v) s = .next (written s m (timeOutCfg k.val) (putBits v 0 0 0) x)) ∧
    (∀ (k : Fin 8), taken s m be (timeOutAdj k.val) v x = true →
      exec (.outputAdjWrite m be k v) s = .next (written s m (timeOutAdj k.val) v x)) ∧
    (∀ (c : Fin 16), taken s m be (sunB + 0x200 + 0x20 * c.val) (putBits v 0 0 1) x = true →
      exec (.compareArm m be c v) s = .next (written s m (sunB + 0x200 + 0x20 * c.val) (putBits v 0 0 1) x)) ∧
    (∀ (c : Fin 16), taken s m be (sunB + 0x200 + 0x20 * c.val) (putBits v 0 0 0) x = true →
      exec (.compareDisarm m be c v) s = .next (written s m (sunB + 0x200 + 0x20 * c.val) (putBits v 0 0 0) x)) ∧
    (taken s m be (sunB + 0x064) v x = true →
      exec (.captureCounters m be v) s = .next (written s m (sunB + 0x064) v x)) ∧
    (taken s m be (sunB + 0x068) (putBits v 4 4 0) x = true →
      exec (.timeSetStep m be v) s = .next (written s m (sunB + 0x068) (putBits v 4 4 0) x)) ∧
    (taken s m be (sunB + 0x068) (putBits v 4 4 1) x = true →
      exec (.timeSetSlew m be v) s = .next (written s m (sunB + 0x068) (putBits v 4 4 1) x)) ∧
    (∀ (p : Fin 128), taken s m be (sunB + 0x1000 + 0x10 * p.val) v x = true →
      exec (.ptpConfigWrite m be p v) s = .next (written s m (sunB + 0x1000 + 0x10 * p.val) v x))

/-- A command that writes a register of the TDC or GNS block and passes every check of R89 takes effect (R45, R89). -/
def Obligations.MeasurementAndGnssCommandsWriteTheirRegister : Prop :=
  ∀ (s : State) (m : Master) (be : BitVec 4) (x : Reg) (v : Word),
    (∀ (n : Fin 16), taken s m be (tdcB + 0x400 + 0x40 * n.val) (putBits v 3 2 1) x = true →
      exec (.tdcArmContinuous m be n v) s = .next (written s m (tdcB + 0x400 + 0x40 * n.val) (putBits v 3 2 1) x)) ∧
    (∀ (n : Fin 16), taken s m be (tdcB + 0x400 + 0x40 * n.val) (putBits v 3 2 2) x = true →
      exec (.tdcArmGate m be n v) s = .next (written s m (tdcB + 0x400 + 0x40 * n.val) (putBits v 3 2 2) x)) ∧
    (∀ (n : Fin 16), taken s m be (tdcB + 0x400 + 0x40 * n.val) (putBits v 3 2 3) x = true →
      exec (.tdcArmCompare m be n v) s = .next (written s m (tdcB + 0x400 + 0x40 * n.val) (putBits v 3 2 3) x)) ∧
    (∀ (n : Fin 16), taken s m be (tdcB + 0x400 + 0x40 * n.val) (putBits v 3 2 0) x = true →
      exec (.tdcDisarm m be n v) s = .next (written s m (tdcB + 0x400 + 0x40 * n.val) (putBits v 3 2 0) x)) ∧
    (∀ (u : Fin 8), taken s m be (tdcB + 0x800 + 0x20 * u.val) v x = true →
      exec (.tdcDiffConfigWrite m be u v) s = .next (written s m (tdcB + 0x800 + 0x20 * u.val) v x)) ∧
    (∀ (item : Byte), taken s m be (tdcB + 0x05C) (w32 (0 + item.toNat)) x = true →
      exec (.calCommandOffset m be item) s = .next (written s m (tdcB + 0x05C) (w32 (0 + item.toNat)) x)) ∧
    (∀ (item : Byte), taken s m be (tdcB + 0x05C) (w32 (256 + item.toNat)) x = true →
      exec (.calCommandTrunk m be item) s = .next (written s m (tdcB + 0x05C) (w32 (256 + item.toNat)) x)) ∧
    (∀ (item : Byte), taken s m be (tdcB + 0x05C) (w32 (512 + item.toNat)) x = true →
      exec (.calCommandAsym m be item) s = .next (written s m (tdcB + 0x05C) (w32 (512 + item.toNat)) x)) ∧
    (taken s m be (tdcB + 0x050) v x = true →
      exec (.calEnableWrite m be v) s = .next (written s m (tdcB + 0x050) v x)) ∧
    (taken s m be (gnsB + 0x308) v x = true →
      exec (.acqGo m be v) s = .next (written s m (gnsB + 0x308) v x)) ∧
    (∀ (c : Fin 64) (reg : Fin 3), taken s m be (gnsB + 0x2004 + 0x80 * c.val + 4 * reg.val) v x = true →
      exec (.channelNcoWrite m be c reg v) s = .next (written s m (gnsB + 0x2004 + 0x80 * c.val + 4 * reg.val) v x)) ∧
    (∀ (c : Fin 64), taken s m be (gnsB + 0x2010 + 0x80 * c.val) v x = true →
      exec (.channelSlewWrite m be c v) s = .next (written s m (gnsB + 0x2010 + 0x80 * c.val) v x)) ∧
    (∀ (c : Fin 64), taken s m be (gnsB + 0x2000 + 0x80 * c.val) v x = true →
      exec (.ownerWrite m be c v) s = .next (written s m (gnsB + 0x2000 + 0x80 * c.val) v x)) ∧
    (taken s m be (gnsB + 0x408) (putBits v 0 0 1) x = true →
      exec (.snapshotGo m be v) s = .next (written s m (gnsB + 0x408) (putBits v 0 0 1) x)) ∧
    (taken s m be (gnsB + 0x408) (putBits v 1 1 1) x = true →
      exec (.snapshotRelease m be v) s = .next (written s m (gnsB + 0x408) (putBits v 1 1 1) x)) ∧
    (∀ (j : Fin 8), taken s m be (grtCfg j.val + 0x10) (putBits v 0 0 1) x = true →
      exec (.grottoGo m be j v) s = .next (written s m (grtCfg j.val + 0x10) (putBits v 0 0 1) x)) ∧
    (∀ (j : Fin 8), taken s m be (grtCfg j.val + 0x10) (putBits v 1 1 1) x = true →
      exec (.grottoCancel m be j v) s = .next (written s m (grtCfg j.val + 0x10) (putBits v 1 1 1) x)) ∧
    (taken s m be (gnsB + 0x004) (putBits v 0 0 0) x = true →
      exec (.gnssDisable m be v) s = .next (written s m (gnsB + 0x004) (putBits v 0 0 0) x))

/-- A command that writes a register of the MAC, LAN, QUE, TBL, CUE or BST block and passes every check of R89 takes effect (R45, R89). -/
def Obligations.PortTableAndCueCommandsWriteTheirRegister : Prop :=
  ∀ (s : State) (m : Master) (be : BitVec 4) (x : Reg) (v : Word),
    (∀ (p : Fin 128), taken s m be (macB p.val + 0x040) (putBits v 0 0 1) x = true →
      exec (.portEnable m be p v) s = .next (written s m (macB p.val + 0x040) (putBits v 0 0 1) x)) ∧
    (∀ (p : Fin 128), taken s m be (macB p.val + 0x040) (putBits v 0 0 0) x = true →
      exec (.portDisable m be p v) s = .next (written s m (macB p.val + 0x040) (putBits v 0 0 0) x)) ∧
    (∀ (l : Fin 128), taken s m be (lanB l.val + 0x064) (putBits v 0 0 1) x = true →
      exec (.eyeScanGo m be l v) s = .next (written s m (lanB l.val + 0x064) (putBits v 0 0 1) x)) ∧
    (∀ (l : Fin 128), taken s m be (lanB l.val + 0x064) (putBits v 1 1 1) x = true →
      exec (.eyeScanStop m be l v) s = .next (written s m (lanB l.val + 0x064) (putBits v 1 1 1) x)) ∧
    (∀ (p : Fin 128), taken s m be (queSlot p.val + 4) (putBits v 0 0 1) x = true →
      exec (.schedulerEnable m be p v) s = .next (written s m (queSlot p.val + 4) (putBits v 0 0 1) x)) ∧
    (∀ (p : Fin 128), taken s m be (queSlot p.val + 4) (putBits v 0 0 0) x = true →
      exec (.schedulerDisable m be p v) s = .next (written s m (queSlot p.val + 4) (putBits v 0 0 0) x)) ∧
    (taken s m be (tblB + 0x064) v x = true →
      exec (.tblLockSet m be v) s = .next (written s m (tblB + 0x064) v x)) ∧
    (taken s m be (tblB + 0x068) v x = true →
      exec (.tblLockClr m be v) s = .next (written s m (tblB + 0x068) v x)) ∧
    (taken s m be (cueB + 0x054) v x = true →
      exec (.cueCancel m be v) s = .next (written s m (cueB + 0x054) v x)) ∧
    (∀ (c : Fin 128), taken s m be (bstB c.val + 0x004) (putBits v 0 0 0) x = true →
      exec (.cellEvacuate m be c v) s = .next (written s m (bstB c.val + 0x004) (putBits v 0 0 0) x)) ∧
    (∀ (c : Fin 128), taken s m be (bstB c.val + 0x004) (putBits v 0 0 1) x = true →
      exec (.cellReturn m be c v) s = .next (written s m (bstB c.val + 0x004) (putBits v 0 0 1) x))

/-- A command that writes a register of the HIF, IRQ, PWR, NVM or MON block and passes every check of R89 takes effect (R45, R89). -/
def Obligations.HostIrqAndPowerCommandsWriteTheirRegister : Prop :=
  ∀ (s : State) (m : Master) (be : BitVec 4) (x : Reg) (v : Word),
    (∀ (n : Fin 256), taken s m be (ringCfg n.val) (putBits v 0 0 1) x = true →
      exec (.ringEnable m be n v) s = .next (written s m (ringCfg n.val) (putBits v 0 0 1) x)) ∧
    (∀ (n : Fin 256), taken s m be (ringCfg n.val) (putBits v 0 0 0) x = true →
      exec (.ringDisable m be n v) s = .next (written s m (ringCfg n.val) (putBits v 0 0 0) x)) ∧
    (∀ (n : Fin 256), taken s m be (cqCfg n.val) (putBits v 0 0 1) x = true →
      exec (.cqEnable m be n v) s = .next (written s m (cqCfg n.val) (putBits v 0 0 1) x)) ∧
    (∀ (n : Fin 256), taken s m be (cqCfg n.val) (putBits v 0 0 0) x = true →
      exec (.cqDisable m be n v) s = .next (written s m (cqCfg n.val) (putBits v 0 0 0) x)) ∧
    (∀ (w : Fin 16), taken s m be (irqB + 0x100 + 8 * w.val) v x = true →
      exec (.pendSetWrite m be w v) s = .next (written s m (irqB + 0x100 + 8 * w.val) v x)) ∧
    (∀ (w : Fin 16), taken s m be (irqB + 0x104 + 8 * w.val) v x = true →
      exec (.pendClrWrite m be w v) s = .next (written s m (irqB + 0x104 + 8 * w.val) v x)) ∧
    (∀ (w : Fin 16), taken s m be (irqB + 0x180 + 8 * w.val) v x = true →
      exec (.maskSetWrite m be w v) s = .next (written s m (irqB + 0x180 + 8 * w.val) v x)) ∧
    (∀ (w : Fin 16), taken s m be (irqB + 0x184 + 8 * w.val) v x = true →
      exec (.maskClrWrite m be w v) s = .next (written s m (irqB + 0x184 + 8 * w.val) v x)) ∧
    (∀ (n : Fin 512), taken s m be (irqB + 0x1000 + 4 * n.val) v x = true →
      exec (.irqTargetWrite m be n v) s = .next (written s m (irqB + 0x1000 + 4 * n.val) v x)) ∧
    (∀ (t : Fin 260), taken s m be (claimAddr t.val + 4) v x = true →
      exec (.irqEoi m be t v) s = .next (written s m (claimAddr t.val + 4) v x)) ∧
    (taken s m be (irqB + 0x070) v x = true →
      exec (.stackClear m be v) s = .next (written s m (irqB + 0x070) v x)) ∧
    (∀ (i : Fin 32), taken s m be (irqB + 0x280 + 4 * i.val) v x = true →
      exec (.wakeEntryWrite m be i v) s = .next (written s m (irqB + 0x280 + 4 * i.val) v x)) ∧
    (∀ (key : Byte), taken s m be (pwrB + 0x048) (w32 (key.toNat * 256 + 0)) x = true →
      exec (.powerRequestP0 m be key) s = .next (written s m (pwrB + 0x048) (w32 (key.toNat * 256 + 0)) x)) ∧
    (∀ (key : Byte), taken s m be (pwrB + 0x048) (w32 (key.toNat * 256 + 1)) x = true →
      exec (.powerRequestP1 m be key) s = .next (written s m (pwrB + 0x048) (w32 (key.toNat * 256 + 1)) x)) ∧
    (∀ (key : Byte), taken s m be (pwrB + 0x048) (w32 (key.toNat * 256 + 2)) x = true →
      exec (.powerRequestP2 m be key) s = .next (written s m (pwrB + 0x048) (w32 (key.toNat * 256 + 2)) x)) ∧
    (∀ (key : Byte), taken s m be (pwrB + 0x048) (w32 (key.toNat * 256 + 3)) x = true →
      exec (.powerRequestP3 m be key) s = .next (written s m (pwrB + 0x048) (w32 (key.toNat * 256 + 3)) x)) ∧
    (∀ (high : Bool), taken s m be (if high then pwrB + 0x094 else pwrB + 0x090) v x = true →
      exec (.alarmSet m be high v) s = .next (written s m (if high then pwrB + 0x094 else pwrB + 0x090) v x)) ∧
    (taken s m be (pwrB + 0x098) (putBits v 31 31 1) x = true →
      exec (.trunkWakeSend m be v) s = .next (written s m (pwrB + 0x098) (putBits v 31 31 1) x)) ∧
    (∀ (o : BitVec 15), taken s m be (nvmB + 0x8000 + o.toNat / 4 * 4) v x = true →
      exec (.nvmWindowWrite m be o v) s = .next (written s m (nvmB + 0x8000 + o.toNat / 4 * 4) v x)) ∧
    (∀ (pav : Option (Fin 8)) (u : Fin 8), taken s m be (histReg (pav.map Fin.val) (histUnit pav u)) (putBits v 0 0 1) x = true →
      exec (.histogramEnable m be pav u v) s = .next (written s m (histReg (pav.map Fin.val) (histUnit pav u)) (putBits v 0 0 1) x)) ∧
    (∀ (pav : Option (Fin 8)) (u : Fin 8), taken s m be (histReg (pav.map Fin.val) (histUnit pav u)) (putBits v 0 0 0) x = true →
      exec (.histogramDisable m be pav u v) s = .next (written s m (histReg (pav.map Fin.val) (histUnit pav u)) (putBits v 0 0 0) x))

/-! ## What the events do

The commands that write no register. Each statement gives, for every state, the condition on the state and the operands under which the event has its
effect and the state that it then leaves, written with the model's operations; elsewhere the event cannot occur and nothing changes (the model's choice,
log entry 37). Where an operation that a statement names rests on a choice of the model, the operation's docstring names the log entry. -/

/-- For each event of the reference slots (R101 to R107, R824) and of the loops (R112, R129, R137, R140 to R142): when it acts and the state it then
leaves; at other times, among them while the clock block does not run, it changes nothing (the model's choice, log entry 37). -/
def Obligations.ReferenceAndLoopEventsHaveTheirEffect : Prop :=
  ∀ s : State,
    (∀ (n : Fin 8) (x : Arrival),
      ((clkRuns s && refEnabled s n) = false → exec (.refPulseArrival n x) s = .next s) ∧
      (clkRuns s = true → refEnabled s n = true → arrivalValid s n x = none → exec (.refPulseArrival n x) s = .next s) ∧
      (clkRuns s = true → refEnabled s n = true → arrivalValid s n x = some false → exec (.refPulseArrival n x) s = .next (loseActivity s n)) ∧
      (clkRuns s = true → refEnabled s n = true → arrivalValid s n x = some true →
        exec (.refPulseArrival n x) s = .next (handIfPending (handIfPending (gainActivity (arrivalOffsets s n x) n) n 0) n 1))) ∧
    (∀ n : Fin 8,
      ((clkRuns s && (refEnabled s n && refActive s n)) = false → exec (.refActivityLost n) s = .next s) ∧
      (clkRuns s = true → refEnabled s n = true → refActive s n = true → exec (.refActivityLost n) s = .next
        (dropPhase (judgeSlot ((s.setFlag (refStatus n) 3 false).orReg (refHist n) (bitW 3 true)) n) n))) ∧
    (∀ (n : Fin 8) (raw : Option Int), (clkRuns s && refEnabled s n && refActive s n) = false → exec (.foffUpdate n raw) s = .next s) ∧
    (∀ n : Fin 8, clkRuns s = true → refEnabled s n = true → refActive s n = true →
      exec (.foffUpdate n none) s = .next (fitSlope (judgeSlot s n) n)) ∧
    (∀ (n : Fin 8) (y : Int), clkRuns s = true → refEnabled s n = true → refActive s n = true →
      exec (.foffUpdate n (some y)) s = .next (fitSlope (judgeSlot
        (setSlotRec (s.wr (clkB + 0x110 + 0x20 * n.val) (sat32 (reTrim 0 (oscTrim s) y))) n { slotRec s n with measured := true }) n) n)) ∧
    (∀ n : Fin 8,
      let ready : Prop := clkRuns s ∧ s.fld (refStatus n) 1 0 = 2 ∧ s.flag (refStatus n) 5 ∧ qualTime s ≤ (slotRec s n).qualMs
      (¬ready → exec (.slotQualified n) s = .next s) ∧
      (ready → exec (.slotQualified n) s = .next
        (clkEvent ((setSlotRec (s.wr (refStatus n) (putBits (putBits (s.rd (refStatus n)) 31 24 0) 1 0 3)) n
          { slotRec s n with qualMs := 0, qualAge := 0, win := [] }).orReg (refHist n) (bitW 4 true)) 11))) ∧
    (∀ meas : List LoopMeas,
      let aged := forEach (List.range 8) s fun n t => ageSlot t n
      let s3 := forEach [0, 1, 2, 3] aged fun d t => measureLoop t d (meas.getD d ⟨0, 0, []⟩)
      let p0 := selectOn s3 0 (meas.getD 0 ⟨0, 0, []⟩).offs
      let p1 := selectOn p0.1 1 (meas.getD 1 ⟨0, 0, []⟩).offs
      let p2 := selectOn p1.1 2 (meas.getD 2 ⟨0, 0, []⟩).offs
      let p3 := selectOn p2.1 3 (meas.getD 3 ⟨0, 0, []⟩).offs
      (clkRuns s = false → exec (.selectionTick meas) s = .next s) ∧
      (clkRuns s = true → exec (.selectionTick meas) s = .next (mirrorLoops (setDisputants p3.1 (p0.2 ++ p1.2))))) ∧
    (∀ d : Fin 4,
      let held : Prop := clkRuns s ∧ dpllSt s d = 1 ∧ dpllMode s d ≠ 4 ∧ s.fld (clkB + 0x204 + 0x40 * d.val) 23 16 * 1000 ≤ (loopRec s d).lockMs
      (¬held → exec (.dpllLocked d) s = .next s) ∧ (held → exec (.dpllLocked d) s = .next (mirrorLoops (becomeLocked s d)))) ∧
    (∀ y0 y2 y3 : Int,
      let ts := secondTemps s
      let clear : State := { s with clk := { s.clk with temps := [] } }
      let u := binSecond (binSecond (binSecond clear 0 y0 ts) 2 y2 ts) 3 y3 ts
      (clkRuns s = false → exec (.holdoverBin y0 y2 y3) s = .next s) ∧
      (clkRuns s = true → exec (.holdoverBin y0 y2 y3) s = .next (mirrorLoops { u with clk := { u.clk with sec := u.clk.sec + 1 } }))) ∧
    (∀ d : Fin 4, ¬(clkRuns s ∧ dpllSt s d = 3 ∧ dpllMode s d ≠ 4) → exec (.holdoverSecond d) s = .next s) ∧
    (∀ d : Fin 4, clkRuns s = true → dpllSt s d = 3 → dpllMode s d ≠ 4 → AMap.wf s.clk.dplls = true →
      ∃ u : State, exec (.holdoverSecond d) s = .next (refreshQc (mirrorLoops u)) ∧ (loopRec u d).age = (loopRec s d).age + 1 ∧
        (loopRec u d).d = (if 0 ≤ (loopRec s d).d then max 0 ((loopRec s d).d - 1000) else min 0 ((loopRec s d).d + 1000)) ∧
        (loopRec s d).err + (loopRec s d).sy ≤ (loopRec u d).err ∧
        (d = 0 → s.regsCanonical → u.rd (clkB + 0x418) = w32 (min ((loopRec s d).age + 1) (2 ^ 32 - 1))))

/-- For each event of the APLL, of bypass and of the clock outputs' delay walks (R148, R152 to R157, R168, R829, R830): when it acts and the state it
then leaves; at other times it changes nothing (the model's choice, log entry 37). -/
def Obligations.BypassEventsHaveTheirEffect : Prop :=
  ∀ s : State,
    (¬(clkRuns s ∧ s.flag (clkB + 0x040) 0 ∧ 8 ≤ s.clk.pdBad) → exec .apllLossOfLock s = .next s) ∧
    (clkRuns s = true → s.flag (clkB + 0x040) 0 = true → 8 ≤ s.clk.pdBad →
      let open1 := clkEvent (s.setFlag (clkB + 0x040) 0 false) 6
      let s2 : State := { open1 with clk := { open1.clk with pdBad := 0, unlockClr := false } }
      let s3 := (s2.setFlag (clkB + 0x040) 1 true).setFld (clkB + 0x040) 11 8 4
      (inBypass s = true → exec .apllLossOfLock s = .next s2) ∧
      (inBypass s = false → exec .apllLossOfLock s = .next
        (refreshQc (calStop (gnsBypass (bypassEth (bypassLanes (loadBypInc (switchClkOuts s3))))))))) ∧
    (∀ hz : Nat,
      let locks : Prop := clkRuns s ∧ !s.flag (clkB + 0x040) 0 ∧ apllLocks (s.rd (clkB + 0x050)) hz ∧ !s.clk.oscLost
      (¬locks → exec (.apllLock hz) s = .next s) ∧
      (locks → exec (.apllLock hz) s = .next
        { s.setFlag (clkB + 0x040) 0 true with clk := { s.clk with lockedAt := s.elapsed, pdBad := 0, unlockClr := false } })) ∧
    (let back : Prop := clkRuns s ∧ inBypass s ∧ s.flag (clkB + 0x040) 0 ∧
        s.clk.lockedAt + s.fld (clkB + 0x05C) 31 16 * 1000000 * tuPerNs ≤ s.elapsed ∧ (s.flag (clkB + 0x05C) 8 ∨ s.clk.unlockClr)
     (¬back → exec .bypassReturn s = .next s) ∧ (back → exec .bypassReturn s = .next (leaveBypass s))) ∧
    (let onOsc : Prop := clkRuns s ∧ inBypass s ∧ s.fld (clkB + 0x05C) 2 0 = 0
     (¬onOsc → exec .bypassIncScale s = .next s) ∧ (onOsc → exec .bypassIncScale s = .next (loadBypInc s))) ∧
    ∀ k : Fin 8,
      let there : Prop := clkRuns s ∧ s.flag (clkOutA k + 0x10) 1 ∧ (clkOut s k).pos = (clkOut s k).tgt ∧ !inBypass s
      (¬there → exec (.delayWalkDone k) s = .next s) ∧
      (there → exec (.delayWalkDone k) s = .next (s.setFlag (clkOutA k + 0x10) 1 false))

/-- For each event of the Sundial (R28, R162, R170, R184, R185, R191, R192, R223, R226, R230): when it acts and the state it then leaves; at other
times it changes nothing (the model's choice, log entry 37). -/
def Obligations.SundialEventsHaveTheirEffect : Prop :=
  ∀ s : State,
    (∀ x : TickIn,
      (s.sun.stopped = true → exec (.sundialTick x) s = .next s) ∧
      (s.sun.stopped = false →
        let s0 := forEach x.corrected (takePd s x.pdErr) fun c t => eccCorrected t c
        let s1 := tickClkOuts (tickSundial s0) (nodeTime s) (baseInc s (activeDom s))
        let s2 := gnsTick (tickGates s1) (s.sun.d0.t / tuPerSec) x.fe0 x.fe1
        let dt := s1.elapsed - s.elapsed
        exec (.sundialTick x) s = .next (retireWorn (forEach x.mismatch (tickCells (tickPorts s2 dt) dt) fun r t => isolatePav t r)))) ∧
    (∀ d : Fin 3,
      (stepDue s d = false → exec (.domainStep d) s = .next s) ∧
      (stepDue s d = true → d.val ≠ 2 → d.val ≠ activeDom s → exec (.domainStep d) s = .next (stepCounter s d)) ∧
      (stepDue s d = true → d.val = 2 ∨ d.val = activeDom s → exec (.domainStep d) s = .next
        (lateFires (stepOuts (rebaseLeap (stepCounter s d) (nodeTime s))) (nodeTime s)))) ∧
    (∀ d : Fin 3,
      (¬((ctrOf s d).rem = .slew ∧ (ctrOf s d).resid = 0) → exec (.slewDone d) s = .next s) ∧
      ((ctrOf s d).rem = .slew → (ctrOf s d).resid = 0 →
        exec (.slewDone d) s = .next (sunEvent (setCtr s d { ctrOf s d with rem := .none, acc := 0 }) 1))) ∧
    (s.sun.better = none → exec .autoDomainSwitch s = .next s) ∧
    (∀ e, s.sun.better = some e →
      let due : Prop := s.flag (sunB + 0x05C) 4 ∧ s.fld (sunB + 0x05C) 15 8 * tuPerSec ≤ s.elapsed - e
      (¬due → exec .autoDomainSwitch s = .next s) ∧
      (due → exec .autoDomainSwitch s = .next (switchDomain (s.setFld (sunB + 0x05C) 0 0 (1 - activeDom s)) (nodeTime s)))) ∧
    (s.sun.leapAt = none → exec .leapSecond s = .next s) ∧
    (∀ l, s.sun.leapAt = some l →
      (nodeTime s / tuPerSec < l → exec .leapSecond s = .next s) ∧
      (l ≤ nodeTime s / tuPerSec → exec .leapSecond s = .next
        (sunEvent { s.wr (sunB + 0x060) (putBits (putBits (s.rd (sunB + 0x060)) 31 16
          (codeOf 16 (utcOffset s + (if s.flag (sunB + 0x060) 1 then -1 else 1)))) 0 0 0) with sun := { s.sun with leapAt := none } } 5))) ∧
    (∀ c : Fin 16, ¬(cmpArmed s c = true ∧ cmpTarget s c ≤ nodeTime s) → exec (.compareFire c) s = .next s) ∧
    (∀ c : Fin 16, cmpArmed s c = true → cmpTarget s c ≤ nodeTime s →
      let fired := fireUnit s c (placeEdge s (cmpTarget s c) s.sun.before (nodeTime s)) false
      (s.flag (cmpCfg c) 1 = true → exec (.compareFire c) s = .next (setTarget fired c (cmpTarget s c + cmpPeriod s c))) ∧
      (s.flag (cmpCfg c) 1 = false → exec (.compareFire c) s = .next fired)) ∧
    (s.sun.setDom = none → exec .timeSetDone s = .next s) ∧
    (∀ d, s.sun.setDom = some d →
      ((ctrOf s d).rem ≠ .none → exec .timeSetDone s = .next s) ∧
      ((ctrOf s d).rem = .none → exec .timeSetDone s = .next
        (sunEvent (markSet (({ s with sun := { s.sun with setDom := none } } : State).setFlag (sunB + 0x068) 31 false) d) 6)))

/-- For the time words sent and received, a PTP port's state, a local link's time and the time bus's latency (R200, R207 to R214, R234, R388, R389):
when each acts and the state it then leaves; at other times it changes nothing (the model's choice, log entry 37). -/
def Obligations.TimeTransferEventsHaveTheirEffect : Prop :=
  ∀ s : State,
    (∀ (p : Fin 128) (dom : Fin 2) (sub : Nat),
      ((trunkRuns s p && domRuns s dom && wordDue s p dom sub) = false → exec (.timeWordSend p dom sub) s = .next s) ∧
      (trunkRuns s p = true → domRuns s dom = true → wordDue s p dom sub = true →
        let t1 := shiftTime ((ctrOf s dom).t + sub) (laneTxd s p + portTxAdj s p)
        let ws := timeWordOf s p dom t1
        let x := trkTime s p dom
        let s1 := setTrkTime s p dom
          { x with seq := (x.seq + 1) % 256, slot := some (((ctrOf s dom).t + sub) / twInterval),
                   sent := ((x.seq, t1, s.elapsed + sub) :: x.sent).take 9 }
        let s2 := if dom.val = 0 then
            s1.wr (sunB + 0x0F4) (fieldW 31 16 (bits (dwAt ws 5) 15 0) ||| fieldW 12 8 (bits (dwAt ws 0) 23 16))
          else s1
        exec (.timeWordSend p dom sub) s = .next
          ((setPortRec s2 p { portRec s2 p with times := AMap.set (portRec s2 p).times dom ws }).emit (.timeWord p ws)))) ∧
    (∀ (p : Fin 128) (dws : List Word) (sub : Nat),
      let w := (List.range 8).map (dwAt dws)
      (trunkRuns s p = false ∨ bits (dwAt w 0) 31 28 ≠ 1 → exec (.timeWordReceive p dws sub) s = .next s) ∧
      (trunkRuns s p = true → bits (dwAt w 0) 31 28 = 1 →
        bits (dwAt w 6) 15 0 ≠ twCheck w ∨ bits (dwAt w 0) 27 24 ≠ s.fld (trkState p) 6 4 ∨ 31 ≤ bits (dwAt w 0) 23 16 ∨ 999999999 < (dwAt w 2).toNat →
        exec (.timeWordReceive p dws sub) s = .next (badTimeWord s p)) ∧
      (trunkRuns s p = true → bits (dwAt w 0) 31 28 = 1 →
        bits (dwAt w 6) 15 0 = twCheck w → bits (dwAt w 0) 27 24 = s.fld (trkState p) 6 4 → bits (dwAt w 0) 23 16 < 31 → (dwAt w 2).toNat ≤ 999999999 →
        let dom := bits (dwAt w 1) 4 4
        let x := trkTime s p dom
        let t2 := shiftTime ((ctrOf s dom).t + placedSub s sub) (-((laneRxd s p : Int)) - portRxAdj s p)
        let ds := ((exchangeDelay x w t2 (s.elapsed + sub)).map fun d => (d :: x.delays).take (2 ^ s.fld (sunB + 0x0F0) 3 0)).getD x.delays
        let s1 := setTrkTime s p dom
          { x with delays := ds, echo := bits (dwAt w 0) 15 8, t4 := t2, hops := bits (dwAt w 0) 23 16, qc := bits (dwAt w 1) 7 5,
                   lastAt := some s.elapsed }
        let o : Int := (twT1 w : Int) + meanOf ds + divRound (portAsym s p) 2 - t2
        (ds = [] → exec (.timeWordReceive p dws sub) s = .next (feedSlot7 s1 p dom w none)) ∧
        (ds ≠ [] → ((200000 * tuPerNs : Nat) : Int) < meanOf ds →
          exec (.timeWordReceive p dws sub) s = .next (badTimeWord (setTrkTime s p dom { x with delays := ds }) p)) ∧
        (ds ≠ [] → meanOf ds ≤ ((200000 * tuPerNs : Nat) : Int) →
          let u := histSample s1 (some (p / 16)) 2 (p % 16 + 128 * dom) 0 (divRound (o * 1000) (2 ^ 40))
          exec (.timeWordReceive p dws sub) s = .next (feedSlot7 (if dom = 0 then seeDelay u p (meanOf ds) else u) p dom w (some o))))) ∧
    (∀ (p : Fin 128) (st : Fin 7) (mpd : BitVec 16),
      let a := sunB + 0x1000 + 0x10 * p.val
      let s1 := s.wr (a + 0x00C) (fieldW 31 16 mpd.toNat ||| fieldW 2 0 st.val)
      ((s.fld a 5 4 ≠ 1 ∧ s.fld a 5 4 ≠ 2) ∨ portIs s p 0 = false → exec (.ptpPortStateChange p st mpd) s = .next s) ∧
      (s.fld a 5 4 = 2 → portIs s p 0 = true → exec (.ptpPortStateChange p st mpd) s = .next (s.wr (a + 0x00C) (fieldW 31 16 mpd.toNat))) ∧
      (s.fld a 5 4 = 1 → portIs s p 0 = true → st.val = 3 → exec (.ptpPortStateChange p st mpd) s = .next s1) ∧
      (s.fld a 5 4 = 1 → portIs s p 0 = true → st.val ≠ 3 → exec (.ptpPortStateChange p st mpd) s = .next
        (forEach [5, 6] s1 fun n x => if refSource x n = p.val then loseActivity x n else x))) ∧
    (∀ (p : Fin 128) (sec : BitVec 48) (utc : Word),
      let slot := [0, 1, 2, 3].find? fun n => refEnabled s n && slotType s n == 1 && refRank s 0 n == 1
      (slot = none ∨ portIs s p 2 = false ∨ trkSt s p ≠ 7 → exec (.localTimeMessage p sec utc) s = .next s) ∧
      ∀ n, slot = some n → portIs s p 2 = true → trkSt s p = 7 →
        (nodeTime s / tuPerSec = sec.toNat ∨ s.sun.setDom.isSome = true → exec (.localTimeMessage p sec utc) s = .next (loadUtc s utc)) ∧
        (nodeTime s / tuPerSec ≠ sec.toNat → s.sun.setDom = none → exec (.localTimeMessage p sec utc) s = .next
          (loadUtc (judgeSlot ((takeSet (dropPhase (judgeSlot (s.setFlag (refCfg n) 0 false) n) n) 0
            (sec.toNat * tuPerSec + nodeTime s % tuPerSec) false).setFlag (refCfg n) 0 true) n) utc))) ∧
    exec .timeBusLatencyMeasured s = .next { s with tdc := { s.tdc with latDone := true } }

/-- For each event of the TDC (R234 to R251): when it acts and the state it then leaves. An edge is measured by `measureEdge`: one that the channel is
not armed for, of the wrong polarity or on a retired channel leaves nothing; one during a calibration run is missed; a first edge in bypass is stamped
at the tick before. -/
def Obligations.TdcEventsHaveTheirEffect : Prop :=
  ∀ s : State,
    (∀ (n : Fin 16) (fall : Bool) (c c1 c2 : BitVec 12),
      let tstop := timeOf s (tdcDom s n)
      let at_ := if inBypass s then s.elapsed - s.sun.bypInc
        else s.elapsed - (((tstop / 2 ^ 24 : Nat) : Int) - edgeOf s n (tdcDom s n) c.toNat tstop).toNat * 2 ^ 24
      let wrong : Prop := (s.fld (tdcCfg n) 1 0 = 0 ∧ fall = true) ∨ (s.fld (tdcCfg n) 1 0 = 1 ∧ fall = false)
      (armedThen s n at_ = false ∨ (tdcCh s n).retired = true ∨ wrong → exec (.tdcEdge n fall c c1 c2) s = .next s) ∧
      (armedThen s n at_ = true → (tdcCh s n).retired = false → ¬wrong →
        (s.tdc.hold.contains n.val = true → exec (.tdcEdge n fall c c1 c2) s = .next (tdcMiss s n)) ∧
        (s.tdc.hold.contains n.val = false → (∀ e, (tdcCh s n).lastEdge = some e → e + 50 * tuPerNs ≤ at_) →
          let s1 := setTdcCh s n { tdcCh s n with lastEdge := some at_ }
          let carrier := n.val * 16 + (if fall then 8 else 0) + 4
          (inBypass s = true → exec (.tdcEdge n fall c c1 c2) s = .next
            (giveResult (countEdge s1 n at_) n
              (stampTag s (tdcDom s n) true carrier * 2 ^ 48 + csBody (tstop - s.sun.bypInc)))) ∧
          (inBypass s = false →
            let q := takePair s1 n c1.toNat c2.toNat
            let s2 := countEdge (q.1.wr (tdcCfg n + 0x10) (fieldW 11 0 c.toNat)) n at_
            let far : Prop := 256 * c.toNat + 32 * 256 < s.fld (tdcCfg n + 0x18) 19 0 ∨ s.fld (tdcCfg n + 0x1C) 19 0 + 32 * 256 < 256 * c.toNat
            (q.2 = false ∨ far → exec (.tdcEdge n fall c c1 c2) s = .next (s2.count (tdcCfg n + 0x30))) ∧
            (q.2 = true → ¬far → exec (.tdcEdge n fall c c1 c2) s = .next
              (giveResult s2 n (stampTag s (tdcDom s n) false carrier * 2 ^ 48 +
                csBody (edgeOf s n (tdcDom s n) c.toNat tstop * 2 ^ 24 % (timeWrap : Int)).toNat))))) ∧
        (s.tdc.hold.contains n.val = false → ∀ e, (tdcCh s n).lastEdge = some e → at_ < e + 50 * tuPerNs →
          exec (.tdcEdge n fall c c1 c2) s = .next (tdcMiss (setTdcCh s n { tdcCh s n with quietAt := s.elapsed }) n)))) ∧
    (∀ u : Fin 8, (tdcDiff s u).openA = none → exec (.tdcPairTimeout u) s = .next s) ∧
    (∀ (u : Fin 8) (a : Nat), (tdcDiff s u).openA = some a → 
      let isOver : Prop := s.flag (diffCfg u) 0 ∧
        (2 ^ s.fld (diffCfg u) 28 24 * 65536 : Nat) < csDiff (csBody (timeOf s (tdcDom s (s.fld (diffCfg u) 7 4)))) a
      (¬isOver → exec (.tdcPairTimeout u) s = .next s) ∧
      (isOver → exec (.tdcPairTimeout u) s = .next (unpaired (setTdcDiff s u { tdcDiff s u with openA := none }) u))) ∧
    (∀ (n : Fin 16) (c1 c2 : BitVec 12),
      let quiet : Prop := tdcArmed s n ∧ !inBypass s ∧ !(tdcCh s n).retired ∧ (tdcCh s n).quietAt + 1000000 * tuPerNs ≤ s.elapsed
      (¬quiet → exec (.tdcIdleCalibration n c1 c2) s = .next s) ∧
      (quiet → exec (.tdcIdleCalibration n c1 c2) s = .next
        (takePair (setTdcCh s n { tdcCh s n with quietAt := s.elapsed }) n c1.toNat c2.toNat).1)) ∧
    (∀ g : Fin 4, exec (.tdcGateRise g) s = .next
      (forEach (List.range 16)
        (if s.tdc.gates.contains g.val then s else { s with tdc := { s.tdc with gates := s.tdc.gates ++ [g.val] } }) fun n t =>
        if tdcArm t n = 2 ∧ t.fld (tdcCfg n) 7 4 = g.val ∧ !(tdcCh t n).retired ∧ !s.tdc.gates.contains g.val then gateHigh t n else t)) ∧
    (∀ g : Fin 4, exec (.tdcGateFall g) s = .next
      (forEach (List.range 16) { s with tdc := { s.tdc with gates := s.tdc.gates.filter (· ≠ g.val) } } fun n t =>
        if tdcArm t n = 2 ∧ t.fld (tdcCfg n) 7 4 = g.val then disarmCh t n else t)) ∧
    (∀ (m : Master) (be : BitVec 4) (n : Fin 16), masterActs s m = true →
      exec (.tdcResultRead m be n) s = .next
        (counted { latch (popResult s n).1 m (tdcB + 0x40C + 0x40 * n.val) (hiHalf (popResult s n).2) with busOut := w32 (popResult s n).2 } m
          (tdcB + 0x408 + 0x40 * n.val)))

/-- For each event of live calibration (R255 to R266, R279): when it acts and the state it then leaves; at other times it changes nothing (the model's
choice, log entry 37). -/
def Obligations.CalibrationEventsHaveTheirEffect : Prop :=
  ∀ s : State,
    (∀ (k : Fin 3) (i : Fin 128),
      (¬(calDue s k i = true ∧ calMay s k i = true ∧ (calItem s k i).retryAt ≤ s.elapsed) ∨ (calItem s k i).run = true → exec (.calTrigger k i) s = .next s) ∧
      (calDue s k i = true → calMay s k i = true → (calItem s k i).retryAt ≤ s.elapsed → (calItem s k i).run = false →
        exec (.calTrigger k i) s = .next (startCal s k i))) ∧
    (∀ l : Fin 128,
      let may : Prop := (calItem s 1 l).wait ∧ calMay s 1 l ∧ (calItem s 1 l).retryAt ≤ s.elapsed
      (¬may → exec (.calDeferredStart l) s = .next s) ∧ (may → exec (.calDeferredStart l) s = .next (startCal s 1 l))) ∧
    (∀ (k : Fin 3) (i : Fin 128) (a0 a1 b0 b1 : Int), (calItem s k i).run = false → exec (.calRunComplete k i a0 a1 b0 b1) s = .next s) ∧
    (∀ (k : Fin 3) (i : Fin 128) (a0 a1 b0 b1 : Int), (calItem s k i).run = true → k.val ≠ 2 →
      let d := if k.val = 1 then max (a0 - b0).natAbs (a1 - b1).natAbs else (a0 - b0).natAbs
      (calTol s k * 65536 < d * 1000 →
        exec (.calRunComplete k i a0 a1 b0 b1) s = .next (discardRun s k i (divRound ((d * 1000 : Nat) : Int) 65536).toNat)) ∧
      (d * 1000 ≤ calTol s k * 65536 →
        (k.val = 0 → exec (.calRunComplete k i a0 a1 b0 b1) s = .next (acceptOffset s i (runMean a0 b0) (runMean a1 b1))) ∧
        (k.val = 1 → exec (.calRunComplete k i a0 a1 b0 b1) s = .next (acceptTrunk s i (runMean a0 b0) (runMean a1 b1))))) ∧
    (∀ (i : Fin 128) (a0 a1 b0 b1 : Int),
      let x := calItem s 2 i
      let ranges := s.flag (tdcB + 0x3000 + 0x10 * i.val) 1 && !x.noRange
      (x.run = true → s.elapsed < x.startAt + 2 * tuPerSec ∨ (ranges = true ∧ x.ranged = none) →
        exec (.calRunComplete 2 i a0 a1 b0 b1) s = .next s) ∧
      (x.run = true → x.startAt + 2 * tuPerSec ≤ s.elapsed → ¬(ranges = true ∧ x.ranged = none) →
        ∀ (n1 n2 : Int) (d1 d2 : Nat), asymMeans s i = some ((n1, d1), (n2, d2)) →
          let unit : Nat := d1 * d2 * 2 ^ 40
          let apart := (n1 * d2 - n2 * d1).natAbs * 1000
          let num := n1 * d2 + n2 * d1
          let den := 2 * d1 * d2
          (calTol s 2 * unit < apart →
            exec (.calRunComplete 2 i a0 a1 b0 b1) s = .next (discardRun s 2 i (divRound (apart : Nat) unit).toNat)) ∧
          (apart ≤ calTol s 2 * unit →
            (ranges = false →
              exec (.calRunComplete 2 i a0 a1 b0 b1) s = .next ((acceptAsym s i num den).setFlag (tdcB + 0x060) 9 x.noRange)) ∧
            ∀ r, ranges = true → x.ranged = some r →
              let off := (r * (den * 2 ^ 40 : Nat) - num * 1000).natAbs
              (calTol s 2 * (den * 2 ^ 40) < off → exec (.calRunComplete 2 i a0 a1 b0 b1) s = .next
                (forEach (lanesOf s i) (discardRun s 2 i (divRound (off : Nat) (den * 2 ^ 40)).toNat) fun l t => askCal t 1 l)) ∧
              (off ≤ calTol s 2 * (den * 2 ^ 40) → exec (.calRunComplete 2 i a0 a1 b0 b1) s = .next
                ((acceptAsym s i num den).setFlag (tdcB + 0x060) 9 false))))) ∧
    (∀ i : Fin 128,
      let x := tdcCh s i
      (x.wSteps = 0 ∨ x.wDue = 0 ∨ calLive s = false → exec (.calApplyStep 0 i) s = .next s) ∧
      (x.wSteps ≠ 0 → x.wDue ≠ 0 → calLive s = true → exec (.calApplyStep 0 i) s = .next
        (setTdcCh ((s.wr (tdcCfg i + 0x18) (w32 (equalStep (s.rd (tdcCfg i + 0x18)).toNat x.w1 x.wSteps).toNat)).wr (tdcCfg i + 0x1C)
          (w32 (equalStep (s.rd (tdcCfg i + 0x1C)).toNat x.w2 x.wSteps).toNat)) i { x with wSteps := x.wSteps - 1, wDue := x.wDue - 1 })) ∧
      (x.gSteps = 0 ∨ x.gDue = 0 ∨ calLive s = false → exec (.calApplyStep 1 i) s = .next s) ∧
      (x.gSteps ≠ 0 → x.gDue ≠ 0 → calLive s = true → exec (.calApplyStep 1 i) s = .next
        (setTdcCh (s.wr (tdcCfg i + 0x24) (BitVec.ofInt 32 (equalStep (sbits (s.rd (tdcCfg i + 0x24)) 31 0) x.g2 x.gSteps))) i
          { x with gSteps := x.gSteps - 1, gDue := x.gDue - 1 })) ∧
      (16 ≤ i.val ∨ sbits (s.rd (tdcCfg i + 0x20)) 31 0 = x.ofs ∨ stepFree s 0 i unitTime = false → exec (.calApplyStep 2 i) s = .next s) ∧
      (i.val < 16 → sbits (s.rd (tdcCfg i + 0x20)) 31 0 ≠ x.ofs → stepFree s 0 i unitTime = true → exec (.calApplyStep 2 i) s = .next
        (stepMade (s.wr (tdcCfg i + 0x20) (BitVec.ofInt 32 (stepTo (sbits (s.rd (tdcCfg i + 0x20)) 31 0) x.ofs 1))) 0 i))) ∧
    (∀ i : Fin 128,
      let x := laneNow s i
      (x.moving = false ∨ stepFree s 1 i unitTime = false → exec (.calApplyStep 3 i) s = .next s) ∧
      (x.moving = true → stepFree s 1 i unitTime = true → exec (.calApplyStep 3 i) s = .next
        (stepMade (setLaneNow s i { x with
          tx := w32 (stepTo x.tx.toNat x.txT.toNat 1).toNat, rx := w32 (stepTo x.rx.toNat x.rxT.toNat 1).toNat }) 1 i))) ∧
    (∀ i : Fin 128,
      let v := stepTo (asymNow s i) (asymTgt s i) 1
      let s1 := stepMade (s.wr (sunB + 0x1008 + 0x10 * i.val) (BitVec.ofInt 32 v)) 2 i
      (asymMoves s i = false ∨ stepFree s 2 i tuPerSec = false → exec (.calApplyStep 4 i) s = .next s) ∧
      (asymMoves s i = true → stepFree s 2 i tuPerSec = true →
        (v ≠ asymTgt s i → exec (.calApplyStep 4 i) s = .next s1) ∧
        (v = asymTgt s i → exec (.calApplyStep 4 i) s = .next
          { s1 with tdc := { s1.tdc with asymEnds := s1.tdc.asymEnds.filter (· ≠ i.val) } }))) ∧
    ∀ p : Fin 128,
      let late : Prop := (calItem s 2 p).run ∧ s.flag (tdcB + 0x3000 + 0x10 * p.val) 1 ∧ (calItem s 2 p).ranged.isNone ∧ !(calItem s 2 p).noRange ∧
        (calItem s 2 p).startAt + 10 * tuPerSec ≤ s.elapsed
      (¬late → exec (.calRangingTimeout p) s = .next s) ∧
      (late → exec (.calRangingTimeout p) s = .next
        ((setCalItem s 2 p { calItem s 2 p with noRange := true }).setFlag (tdcB + 0x060) 9 true))

/-- For each event of the Belvedere's inputs, notches and correlators (R287, R288, R290, R295, R297, R298, R301, R302, R304): when it acts and the
state it then leaves; at other times it changes nothing (the model's choice, log entry 37). -/
def Obligations.GnssSignalEventsHaveTheirEffect : Prop :=
  ∀ s : State,
    (∀ (n : Fin 2) (k : Fin 4) (lines : List Line) (depth : Byte) (pwr : BitVec 16) (fl : Int) (follow : Option Line),
      let a := ntCfg n k
      let key := 4 * n.val + k.val
      let old := AMap.getD s.gns.notches key {}
      let sa : State := { s with gns := { s.gns with notches := AMap.put s.gns.notches key { old with next := s.elapsed + 1000000 * tuPerNs } {} } }
      let b := if k.val = 0 then takePower sa n (signedOf 16 pwr.toNat) else sa
      let run := exec (.notchSearch n k lines depth pwr fl follow) s
      let at_ (t : State) (x : Line) : State := (t.wr (a + 8) (BitVec.ofInt 32 x.freq)).wr (a + 0x0C) (fieldW 15 8 depth.toNat ||| fieldW 1 0 2)
      let here : Prop := gnsRuns s ∧ s.flag (feCfg n) 8 ∧ old.next ≤ s.elapsed
      (¬here → run = .next s) ∧
      (here →
        (b.fld a 1 0 ≠ 1 → run = .next b) ∧
        (b.fld a 1 0 = 1 → b.fld (a + 0x0C) 1 0 = 2 →
          (follow = none → run = .next (notchMs b key true)) ∧
          ∀ x, follow = some x → run = .next (at_ (notchMs b key (decide (x.db + 3 < fl + b.fld a 15 8))) x)) ∧
        (b.fld a 1 0 = 1 → b.fld (a + 0x0C) 1 0 ≠ 2 →
          (bestLine b n k lines fl = none → run = .next b) ∧
          ∀ x, bestLine b n k lines fl = some x → run = .next (judgeJam (gnsEvent (at_ b x) 7) n)))) ∧
    (∀ (n : Fin 2) (k : Fin 4),
      let s1 := (s.wr (ntCfg n k + 8) 0).wr (ntCfg n k + 0x0C) (fieldW 1 0 1)
      let gone : Prop := s.fld (ntCfg n k) 1 0 = 1 ∧ s.fld (ntCfg n k + 0x0C) 1 0 = 2 ∧
        100 ≤ (AMap.getD s.gns.notches (4 * n.val + k.val) {}).lowMs
      (¬gone → exec (.notchRelease n k) s = .next s) ∧
      (gone → exec (.notchRelease n k) s = .next
        (judgeJam (gnsEvent { s1 with gns := { s1.gns with notches := AMap.del s1.gns.notches (4 * n.val + k.val) } } 7) n))) ∧
    (∀ (pnr : BitVec 16) (code dop i : Nat),
      let r := s.gns.acq.req
      let done : Prop := gnsRuns s ∧ s.gns.acqs.head? = some .host ∧ (bits r 31 29 ≠ 0 ∨ acqWant s ≤ s.gns.acq.got) ∧ code < 2 * sigChips (bits r 3 1) ∧
        dop < acqBins s ∧ i < acqWant s
      let t := acqStart s + i * tuPerSec / sampleRate s (sigInput (bits r 3 1))
      let s1 := ((s.wr (gnsB + 0x310) (w32 (code * 2 ^ 15))).wr (gnsB + 0x314) (BitVec.ofInt 32 (acqDoppler s dop))).wr64 (gnsB + 0x318) (sampleStamp s t)
      let s2 := s1.wr (gnsB + 0x30C)
        (bitW 30 true ||| bitW 29 (decide ((s.rd (gnsB + 0x320)).toNat ≤ pnr.toNat)) ||| fieldW 15 0 pnr.toNat)
      (¬done → exec (.acqDone pnr code dop i) s = .next s) ∧
      (done → exec (.acqDone pnr code dop i) s = .next (gnsEvent { s2 with gns := { s2.gns with acqs := s2.gns.acqs.tail } } 3))) ∧
    (∀ (c : Fin 64) (data : List (Int × Word × Word)) (pilot half : Word × Word) (cn0 : Word),
      let a := chanCfg c
      let runs := gnsRuns s && s.flag a 0 && chanState s c == 1
      let ph := chanPhases s c
      let sums := corSums s c data pilot half
      let base (st : Nat) := (((s.wr64 (a + 0x18) st).wr (a + 0x20) ph.1).wr (a + 0x24) ph.2).wr (a + 0x60) cn0
      let s2 (st : Nat) := forEach (List.range 14) (base st) fun i t => t.wr (a + 0x28 + 4 * i) (sums.getD i 0)
      ((gnsCh s c).ended = none ∨ runs = false → exec (.epochEnd c data pilot half cn0 ()) s = .next s) ∧
      ∀ st, (gnsCh s c).ended = some st → runs = true →
        (s.flag a 23 = false → exec (.epochEnd c data pilot half cn0 ()) s = .next (applyEpoch (s2 st) c)) ∧
        (s.flag a 23 = true →
          ∃ u : State, exec (.epochEnd c data pilot half cn0 ()) s = .next (applyEpoch u c) ∧
            ∃ ws : List (List Word),
              (u = (eventWrite (s2 st) (s.fld a 31 24) 0x03 c ws).1 ∨ u = (eventWrite (s2 st) (s.fld a 31 24) 0x03 c ws).1.count (a + 0x64)) ∧
              ws.flatten = ph.1 :: dwPair st ++ ph.2 :: cn0 :: (List.range 14).map fun i => sums.getD i 0)) ∧
    (∀ low : Bool, s.flag (gnsB + 0x040) 6 = low → exec (.antennaFaultChange low) s = .next s) ∧
    (s.flag (gnsB + 0x040) 6 = false →
      exec (.antennaFaultChange true) s = .next (judgeFix (gnsEvent (s.setFlag (gnsB + 0x040) 6 true) 6) false)) ∧
    (s.flag (gnsB + 0x040) 6 = true → exec (.antennaFaultChange false) s = .next (judgeFix (s.setFlag (gnsB + 0x040) 6 false) false))

/-- For each event of the time solution, the Belvedere's pulse and the snapshots (R182, R303 to R317): when it acts and the state it then leaves; at
other times it changes nothing (the model's choice, log entry 37). -/
def Obligations.GnssTimeEventsHaveTheirEffect : Prop :=
  ∀ s : State,
    (∀ (x : Solution) (px py pz : Word),
      let s1 := takeSolution s x
      let n := satWord (s.rd (gnsB + 0x20C)) 1
      let v := s.gns.survey
      let sum := (v.1 + px.toInt, v.2.1 + py.toInt, v.2.2 + pz.toInt)
      let s2 := ({ s1 with gns := { s1.gns with survey := sum } } : State).wr (gnsB + 0x20C) n
      let mean (y : Int) : Word := BitVec.ofInt 32 (divRound y n.toNat)
      let surveys : Prop := s.fld (gnsB + 0x200) 9 8 = 1 ∧ x.fix = true
      (gnsRuns s = false → exec (.timeSolutionUpdate x px py pz) s = .next s) ∧
      (gnsRuns s = true → ¬surveys → exec (.timeSolutionUpdate x px py pz) s = .next s1) ∧
      (gnsRuns s = true → surveys → n.toNat < s.fld (gnsB + 0x200) 31 16 → exec (.timeSolutionUpdate x px py pz) s = .next s2) ∧
      (gnsRuns s = true → surveys → s.fld (gnsB + 0x200) 31 16 ≤ n.toNat → exec (.timeSolutionUpdate x px py pz) s = .next
        ((((s2.wr (gnsB + 0x210) (mean sum.1)).wr (gnsB + 0x214) (mean sum.2.1)).wr (gnsB + 0x218) (mean sum.2.2)).setFld (gnsB + 0x200) 9 8 2))) ∧
    (∀ (x : Solution) (sec : BitVec 48) (utc : BitVec 16) (pend sign : Bool) (lead : Nat),
      let s1 := takeSolution s x
      let e := pulseEdge s1 lead
      let ws := messageWords s1 x.tacc sec.toNat utc.toNat pend sign (BitVec.ofInt 32 e.2)
      let s2 := forEach (List.range 8) s1 fun i t => t.wr (gnsB + 0x220 + 4 * i) (ws.getD i 0)
      let s3 := gnsEvent { s2 with gns := { s2.gns with
        seq := s2.gns.seq + 1, msgValid := s2.gns.valid, msgSec := sec.toNat, msgQerr := e.2, msgAt := e.1, lostAt := none,
        msgUtc := fieldW 31 16 utc.toNat ||| bitW 1 sign ||| bitW 0 pend, emitted := false, loaded := false } } 0
      let early : Prop := gnsRuns s ∧ 50000000 * tuPerNs ≤ lead
      (¬early → exec (.timeMessage x sec utc pend sign lead) s = .next s) ∧
      (early → s.flag (gnsB + 0x048) 23 = false → exec (.timeMessage x sec utc pend sign lead) s = .next s3) ∧
      (early → s.flag (gnsB + 0x048) 23 = true → exec (.timeMessage x sec utc pend sign lead) s = .next
        (eventWrite s3 (s.fld (gnsB + 0x048) 31 24) 0x04 0 [ws.take 7, ws.drop 7]).1)) ∧
    (∀ interval : Nat,
      let due : Prop := gnsRuns s ∧ pulseKept s ∧ !s.gns.emitted ∧ s.gns.vco ≤ s.gns.msgAt ∧ s.gns.msgAt < s.gns.vco + vcoPerTick
      let sub := (s.gns.msgAt - s.gns.vco) / 10
      let s0 : State := { s with gns := { s.gns with emitted := true } }
      let s1 := forEach (List.range 4) s0 fun k t =>
        if snapState t k = 1 ∧ bits (snapRec t k).cfg 9 8 = 2 ∧ (snapRec t k).start = none then
          setSnapRec t k { snapRec t k with start := some s.gns.msgAt }
        else t
      let src : Int := (s.gns.msgSec * tuPerSec : Nat) - s.gns.msgQerr * 2 ^ 40 / 1000
      let run := exec (.belvederePps interval ()) s
      (¬due → run = .next s) ∧
      (due → (refEnabled s1 4 && arrivalValid s1 4 (.pps interval sub) == some true) = false → run = .next (arrive s1 4 (.pps interval sub))) ∧
      (due → (refEnabled s1 4 && arrivalValid s1 4 (.pps interval sub) == some true) = true → run = .next (arrive
        (keepOffset (keepOffset s1 4 0 (src - (s1.sun.d0.t + sub : Nat))) 4 1 (src - (s1.sun.d1.t + sub : Nat))) 4 (.pps interval sub)))) ∧
    (let loads : Prop := s.gns.msgValid ∧ !s.gns.loaded ∧ pulseComes s ∧ s.gns.sec0 < s.gns.msgSec ∧ s.gns.msgSec ≤ s.sun.d0.t / tuPerSec ∧
        followed s 0 = some 4 ∧ s.flag (gnsB + 0x048) 9
     (¬loads → exec .gnssUtcLoad s = .next s) ∧
     (loads → exec .gnssUtcLoad s = .next (loadUtc { s with gns := { s.gns with loaded := true } } s.gns.msgUtc))) ∧
    (∀ k : Fin 4,
      let x := snapRec s k
      let come : Prop := snapState s k = 1 ∧ gnsRuns s ∧ (x.in0.got ≠ [] ∨ x.in1.got ≠ [])
      (¬come → exec (.snapshotCaptureStart k ()) s = .next s) ∧ (come → exec (.snapshotCaptureStart k ()) s = .next (setSnapState s k 2))) ∧
    ∀ k : Fin 4,
      let x := snapRec s k
      let full : Prop := snapState s k = 2 ∧ snapWant s x 0 ≤ x.in0.got.length ∧ snapWant s x 1 ≤ x.in1.got.length
      (¬full → exec (.snapshotCaptureEnd k () () () ()) s = .next s) ∧
      (full → exec (.snapshotCaptureEnd k () () () ()) s = .next (endCapture s k 0))

/-- For each event of the Grotto's jobs (R318 to R333): when it acts and the state it then leaves; at other times it changes nothing (the model's
choice, log entry 37). -/
def Obligations.GrottoEventsHaveTheirEffect : Prop :=
  ∀ (s : State) (j : Fin 8),
    (grtState s j ≠ 1 ∨ freeChan s = none → exec (.grottoChannelClaim j) s = .next s) ∧
    (∀ c, grtState s j = 1 → freeChan s = some c →
      let s1 := (s.setFld (chanCfg c + 0x14) 1 0 2).setFld (grtCfg j + 0x14) 2 0 2
      let x := { jobRec s1 j with chan := some c, start := max (jobRec s1 j).start (nodeTime s1) }
      (s.fld (grtCfg j) 1 0 ≠ 2 → exec (.grottoChannelClaim j) s = .next (setJobRec s1 j { x with marker := none })) ∧
      (s.fld (grtCfg j) 1 0 = 2 → freeMarker s = none → exec (.grottoChannelClaim j) s = .next (s.setFld (grtCfg j + 0x14) 2 0 1)) ∧
      ∀ m, s.fld (grtCfg j) 1 0 = 2 → freeMarker s = some m →
        exec (.grottoChannelClaim j) s = .next (setJobRec s1 j { x with marker := some m })) ∧
    (let late : Prop := grtState s j = 1 ∧ (jobRec s j).goAt + 10 * tuPerSec ≤ s.elapsed
     (¬late → exec (.grottoWaitTimeout j) s = .next s) ∧ (late → exec (.grottoWaitTimeout j) s = .next (endGrotto s j 0x07 false))) ∧
    (∀ (p : Fin 128) (good : Bool) (aFar : Nat) (sFar : List Nat),
      let mine : Prop := s.fld (grtCfg j) 1 0 = 2 ∧ grtState s j = 2 ∧ grtPort s j = p.val ∧ good = true ∧ gnsRuns s
      let x := { jobRec s j with heard := true }
      let run := exec (.rangingExchange j p good aFar sFar) s
      (¬mine → run = .next s) ∧
      (mine → x.came = none → run = .next (setJobRec s j x)) ∧
      ∀ a, mine → x.came = some a →
        let all : List Int := sFar.flatMap fun f => x.left.map fun n => (timeDiff a f + timeDiff aFar n) / 2
        (all = [] → run = .next (setJobRec s j x)) ∧
        (all ≠ [] →
          ∃ d ∈ all, (∀ y ∈ all, (d - (meanDelay s (grtPort s j)).getD 0).natAbs ≤ (y - (meanDelay s (grtPort s j)).getD 0).natAbs) ∧
            run = .next (setJobRec s j { x with exchanged := true, delay := divRound (d * 1000) (2 ^ 40), apart := markersApart x }))) ∧
    (let alone : Prop := s.fld (grtCfg j) 1 0 = 2 ∧ grtState s j = 2 ∧ !(jobRec s j).heard ∧ (jobRec s j).came = none ∧
        (jobRec s j).goAt + 10 * tuPerSec ≤ s.elapsed
     (¬alone → exec (.grottoPeerTimeout j) s = .next s) ∧ (alone → exec (.grottoPeerTimeout j) s = .next (endGrotto s j 0x09 false))) ∧
    (let ready : Prop := grtState s j = 2 ∧ grtReady s j = true ∧ gnsRuns s
     let r := grtResults s j
     let s1 := ((s.wr (grtCfg j + 0x18) (BitVec.ofInt 32 r.1)).wr (grtCfg j + 0x1C) r.2.1).wr64 (grtCfg j + 0x20) (codeOf 64 r.2.2.1)
     let s2 := s1.wr64 (grtCfg j + 0x28) (compactStamp s1 r.2.2.2.2 r.2.2.2.1 false 0)
     let conf := decide (s.fld (grtCfg j) 7 4 * 128 ≤ bits r.2.1 31 16)
     (¬ready → exec (.grottoDone j () () ()) s = .next s) ∧
     (ready → (jobRec s j).forPort = none → exec (.grottoDone j () () ()) s = .next (endGrotto s2 j 0 conf)) ∧
     ∀ p, ready → (jobRec s j).forPort = some p →
       ((calItem s2 2 p).run = false → exec (.grottoDone j () () ()) s = .next (endGrotto s2 j 0 conf)) ∧
       ((calItem s2 2 p).run = true → exec (.grottoDone j () () ()) s = .next
         (endGrotto (setCalItem s2 2 p { calItem s2 2 p with ranged := some r.2.2.1 }) j 0 conf)))
/-- For Ethernet links, frames and superblocks (R347, R351, R359, R368, R371, R391): when each event acts and the state it then leaves. A frame that a
checked row of R347 names is counted by that row and does not go on as a good one; a good one goes on. -/
def Obligations.LineEventsHaveTheirEffect : Prop :=
  ∀ s : State,
    (∀ (p : Fin 128) (bs : List Byte) (code abort : Bool) (sof : Fin 8) (sub : Nat),
      let run := exec (.frameReceive p bs code abort sof sub) s
      ((s.alive && portUp s p) = false → run = .next s) ∧
      ((s.alive && portUp s p) = true →
        (rxRow s p bs code abort = none → run = .next (goodFrame s p sof bs sub)) ∧
        ∀ o, rxRow s p bs code abort = some o →
          (o = 0x12C ∨ o = 0x134 → run = .next (s.count (macB p + o))) ∧
          (o ≠ 0x12C → o ≠ 0x134 → run = .next (badFrame (s.count (macB p + o)) p sof bs sub)))) ∧
    (∀ p : Fin 128,
      let ok := portIs s p 0 = true ∧ s.fld (macB p + 0x040) 31 24 ≠ 0 ∧ mayStart s p = true ∧ allLanes s p 1 = true ∧ allLanes s p 2 = true ∧
        faultFree s p = true
      let s1 := ((forEach (lanesOf s p) s fun l t => t.setFlag (lanB l + 0x040) 3 true).setFlag (macB p + 0x044) 1 false).setFlag (macB p + 0x044) 2 false
      (¬ok → exec (.ethLinkUp p) s = .next s) ∧
      (ok → s1.flag (macB p + 0x044) 0 = true → exec (.ethLinkUp p) s = .next s1) ∧
      (ok → s1.flag (macB p + 0x044) 0 = false → exec (.ethLinkUp p) s = .next (macEvent (s1.setFlag (macB p + 0x044) 0 true) p 0))) ∧
    (∀ (p : Fin 128) (lf rf : Bool),
      let s1 := ((portDown s p).setFlag (macB p + 0x044) 1 lf).setFlag (macB p + 0x044) 2 rf
      let s2 := setPortRec s1 p { portRec s1 p with faultAt := some s.elapsed }
      (portIs s p 0 = false → exec (.ethLinkDown p lf rf) s = .next s) ∧
      (portIs s p 0 = true → lf = false → rf = false → exec (.ethLinkDown p lf rf) s = .next s1) ∧
      (portIs s p 0 = true → lf = false → rf = true → exec (.ethLinkDown p lf rf) s = .next (s2.emit (.ordered p false))) ∧
      (portIs s p 0 = true → lf = true → exec (.ethLinkDown p lf rf) s = .next (s2.emit (.ordered p true)))) ∧
    (∀ (p : Fin 128) (sub : Nat),
      (sendsLine s p = false → exec (.superblockTransmit ⟨p, sub⟩) s = .next s) ∧
      (sendsLine s p = true → exec (.superblockTransmit ⟨p, sub⟩) s = .next (sendSuperblock s p sub))) ∧
    (∀ (l : Fin 128) (line : LineSig) (fix : List (Fin 440 × BitVec 10)) (ppt : Int) (sub : Nat),
      let run := exec (.superblockReceive l line fix ppt sub) s
      (portOfLane s l = none → run = .next s) ∧
      ∀ p, portOfLane s l = some p →
        (receivesLine s p l = false → run = .next s) ∧
        (receivesLine s p l = true →
          let x := readLine (if l.val = p then movePhase s p (s.elapsed + sub) else s) p l (lineBits s l line) fix
          let s0 := if l.val = p then chipCame x.1 p (s.sun.d0.t + sub) x.2.chip (x.2.good && x.2.ron) else x.1
          let s2 := judgeLock (if x.2.good then s0 else s0.count (macB p + 0x14C)) l x.2
          let q := if x.2.head then x.2.sbseq else ((laneRec s2 l).seq + 1) % 65536
          let s3 := setLaneRec s2 l { laneRec s2 l with seq := q }
          (allLanes s3 p 3 = false → run = .next (if x.2.good then s3 else dropOpen s3 p)) ∧
          (allLanes s3 p 3 = true → run = .next (joinLanes (setLaneRec s3 l { laneRec s3 l with
            got := (laneRec s3 l).got ++ [(q, s.elapsed + sub, if x.2.good then some x.2.words else none)] }) p q (freqNear ppt) sub)))) ∧
    ∀ (l : Fin 128) (err : BitVec 64),
      let a := lanB l
      let isOver : Prop := s.flag (a + 0x068) 0 ∧ eyeBits s l = 2 ^ s.fld (a + 0x060) 31 24 ∧ err.toNat ≤ eyeBits s l
      (¬isOver → exec (.eyeScanDone l err) s = .next s) ∧
      (isOver → exec (.eyeScanDone l err) s = .next
        (lanEvent (((s.wr64 (a + 0x070) (2 ^ s.fld (a + 0x060) 31 24)).wr64 (a + 0x078) err.toNat).wr (a + 0x068) (bitW 1 true)) l 2))

/-- For each event of the bring-up of trunk and local ports and of the choice of the upstream port (R373 to R387, R770): when it acts and the state it
then leaves; at other times it changes nothing (the model's choice, log entry 37). -/
def Obligations.BringUpEventsHaveTheirEffect : Prop :=
  ∀ s : State,
    (∀ l : Fin 128,
      (portOfLane s l = none → exec (.cdrLock l) s = .next s) ∧
      (∀ p, portOfLane s l = some p → mayStart s p = false → exec (.cdrLock l) s = .next s) ∧
      (∀ p, portOfLane s l = some p → mayStart s p = true →
        let s1 := s.orReg (lanB l + 0x040) 0x03
        let all : Prop := portIs s p 1 ∧ trkSt s p = 1 ∧ allLanes s1 p 1
        (¬all → exec (.cdrLock l) s = .next s1) ∧ (all → exec (.cdrLock l) s = .next (setTrk s1 p 2))) ∧
      (s.flag (lanB l + 0x040) 1 = false → exec (.cdrLoss l) s = .next s) ∧
      (s.flag (lanB l + 0x040) 1 = true →
        let s0 := if s.flag (lanB l + 0x040) 3 then slot7Loses s (portOfLane s l) else s
        exec (.cdrLoss l) s = .next
          (lanePortLost (calLaneStop (abortEye (lanEvent
            (((s0.setFlag (lanB l + 0x040) 1 false).setFlag (lanB l + 0x040) 3 false).count (lanB l + 0x080)) l 0) l) l) l)) ∧
      (s.flag (lanB l + 0x040) 2 = false → exec (.txpllLoss l) s = .next s) ∧
      (s.flag (lanB l + 0x040) 2 = true →
        let s2 := (lanePortLost (calLaneStop (abortEye (lanEvent (s.setFlag (lanB l + 0x040) 2 false) l 1) l) l) l).setFlag (lanB l + 0x040) 2 false
        let x := windowHit s2 (0x1000 + l.val)
        (s.flag (clkB + 0x040) 0 = false → exec (.txpllLoss l) s = .next s2) ∧
        (s.flag (clkB + 0x040) 0 = true → exec (.txpllLoss l) s = .next (if retireLim s ≤ x.2 then retireLane x.1 l else x.1)))) ∧
    (∀ (p : Fin 128) (w : BitVec 64) (ppt : Int),
      let ok : Prop := portIs s p 1 ∧ 3 ≤ trkSt s p ∧ trkSt s p ≤ 8 ∧ trkSt s p ≠ 4 ∧ wbits w 7 0 = 0x5A ∧ wbits w 51 50 = 0
      (¬ok → exec (.negWordReceive p w ppt) s = .next s) ∧ (ok → exec (.negWordReceive p w ppt) s = .next (takeNeg s p w (freqNear ppt)))) ∧
    (∀ p : Fin 128,
      let rate := (portRec s p).stepRate
      let hold := decide (trkSt s p = 8)
      let s1 := setTrkRate (setPortRate s p rate hold) p rate
      let s2 := setPortRec s1 p { portRec s1 p with stepRate := 0, stepAt := 0, phase := none }
      let due : Prop := portIs s p 1 ∧ rate ≠ 0 ∧ (trkSt s p = 3 ∨ trkSt s p = 8) ∧ rateStepDue s p
      (¬due → exec (.rateStep p) s = .next s) ∧ (due → exec (.rateStep p) s = .next (if hold then s2 else setTrk s2 p 4))) ∧
    (∀ p : Fin 128,
      let s1 := forEach (lanesOf s p) s fun l t => t.setFlag (lanB l + 0x040) 2 true
      let inTime : Prop := portIs s p 1 ∧ trkSt s p = 4 ∧ s.elapsed ≤ (portRec s p).since + 100000 * tuPerNs
      ((configured s p && mayStart s p) = false → exec (.txpllLock p) s = .next s) ∧
      (configured s p = true → mayStart s p = true →
        (inTime → exec (.txpllLock p) s = .next (setTrk s1 p 5)) ∧ (¬inTime → exec (.txpllLock p) s = .next s1))) ∧
    (∀ p : Fin 128,
      let trained : Prop := !portIs s p 0 ∧ configured s p ∧ trkSt s p = 5 ∧ allLanes s p 1 ∧ allLanes s p 3 ∧
        (portIs s p 2 ∨ s.elapsed ≤ (portRec s p).since + trainLimit s p)
      (¬trained → exec (.trainComplete p) s = .next s) ∧
      (trained → exec (.trainComplete p) s = .next (setTrk (s.wr (trkPeer p + 4) 0) p 6))) ∧
    (∀ p : Fin 128,
      let checked : Prop := !portIs s p 0 ∧ configured s p ∧ trkSt s p = 6 ∧ (if portRate s p = 1 then 16384 else 65536) ≤ (portRec s p).checked
      (¬checked → exec (.verifyComplete p) s = .next s) ∧ (checked → exec (.verifyComplete p) s = .next (flushOutbox (setTrk s p 7)))) ∧
    (∀ p : Fin 128,
      let stuck : Prop := portIs s p 1 ∧ 2 ≤ trkSt s p ∧ trkSt s p ≤ 6 ∧ (portRec s p).since + tuPerSec ≤ s.elapsed
      (¬stuck → exec (.bringupTimeout p) s = .next s) ∧ (stuck → exec (.bringupTimeout p) s = .next (restartTrk s p))) ∧
    (∀ p : Fin 128,
      let rate := s.fld (trkState p) 23 16
      let slow : Prop := portIs s p 1 ∧ (trkSt s p = 5 ∨ trkSt s p = 6) ∧ (portRec s p).leftNeg + 200000000 * tuPerNs ≤ s.elapsed
      (¬slow → exec (.rateFallback p) s = .next s) ∧
      (slow → exec (.rateFallback p) s = .next
        (restartTrk (macEvent (if 2 ≤ rate ∧ rate ≤ 6 then s.setFlag (trkState p) (9 + rate) true else s) p 1) p))) ∧
    (∀ p : Fin 128,
      let slips : Prop := portIs s p 1 ∧ 6 ≤ trkSt s p ∧ trkSt s p ≤ 8 ∧ 5000 ≤ (sbits (s.rd (trkPeer p + 4)) 31 0).natAbs
      (¬slips → exec (.phaseSlip p) s = .next s) ∧ (slips → exec (.phaseSlip p) s = .next (restartTrk (s.count (macB p + 0x164)) p))) ∧
    (let cur := refSource s 7
     let keeps := refEnabled s 7 = true ∧ cur < 128 ∧ upEligible s cur = true
     let m := nowBetter s cur
     let new (q : Option Nat) : State := setUpstream { s with upBetter := [] } q
     (∀ q, ¬keeps → bestUp s = some q → exec .upstreamSelect s = .next (flushOutbox (new (some q)))) ∧
     (¬keeps → bestUp s = none → refEnabled s 7 = true → exec .upstreamSelect s = .next (new none)) ∧
     (bestUp s = none → refEnabled s 7 = false → exec .upstreamSelect s = .next s) ∧
     ∀ q, keeps → bestUp s = some q →
       (q ≠ cur → AMap.getD m q s.elapsed + 2 * tuPerSec ≤ s.elapsed → exec .upstreamSelect s = .next (flushOutbox (new (some q)))) ∧
       (q = cur ∨ s.elapsed < AMap.getD m q s.elapsed + 2 * tuPerSec → exec .upstreamSelect s = .next { s with upBetter := m }))

/-- For each event of the crossbar, the queues and their schedules (R400, R401, R413 to R425, R440, R598): when it acts and the state it then leaves;
at other times it changes nothing (the model's choice, log entry 37). -/
def Obligations.SwitchEventsHaveTheirEffect : Prop :=
  ∀ s : State,
    (∀ e : Fin 9,
      let pick := [0, 1, 2].findSome? fun l => (nextFifo s e l).map fun x => (l, x)
      let free : Prop := switchRuns s ∧ attachOk s e ∧ AMap.getD s.sw.across e.val 0 < s.elapsed + baseInc s (activeDom s)
      (¬free ∨ pick = none → exec (.crossbarGrant e) s = .next s) ∧
      ∀ l r k x f, free → pick = some (l, r, k) → fifoOf s k = x :: f →
        let s1 := popFifo s k
        let s2 : State := { s1 with sw := { s1.sw with
          served := AMap.set s1.sw.served (3 * e.val + l) r, across := AMap.set s1.sw.across e.val (acrossAt s e x.f.bytes.length) } }
        exec (.crossbarGrant e) s = .next (admitAll (perfCount s2 none { ev := 0x06, cls := some x.f.cls } 1) x)) ∧
    (∀ (i : Fin 137) (e : Fin 9) (l : Fin 3),
      let k := fifoKey i e l
      (switchRuns s = false ∨ fifoOf s k = [] → exec (.crossbarTimeoutDrop i e l) s = .next s) ∧
      ∀ x f, switchRuns s = true → fifoOf s k = x :: f →
        (s.elapsed < AMap.getD s.sw.heads k 0 + 2000 * tuPerNs → exec (.crossbarTimeoutDrop i e l) s = .next s) ∧
        (AMap.getD s.sw.heads k 0 + 2000 * tuPerNs ≤ s.elapsed → exec (.crossbarTimeoutDrop i e l) s = .next
          (abortStamped (perfCount (if i.val = 128 then popFifo s k else (popFifo s k).count (quePortCtr i + 0x10)) none
            { ev := 0x07, cls := some x.f.cls } 1) x.done))) ∧
    (∀ p : Fin 137,
      let s1 := forEach (List.range 7) s fun t y => dropGated y p t (queueOf y p t).length
      (switchRuns s = false ∨ p.val = 128 → exec (.frameTransmit p) s = .next s) ∧
      (switchRuns s = true → 129 ≤ p.val → s.pavIsolated (p.val - 129) = true → exec (.frameTransmit p) s = .next s) ∧
      (switchRuns s = true → 129 ≤ p.val → s.pavIsolated (p.val - 129) = false → exec (.frameTransmit p) s = .next (computeTake s p)) ∧
      (switchRuns s = true → p.val < 128 →
        (portUp s p = false ∨ (portSw s p).tx ≠ none → exec (.frameTransmit p) s = .next s) ∧
        (portUp s p = true → (portSw s p).tx = none →
          (pickClass s1 p = none → exec (.frameTransmit p) s = .next s1) ∧
          ∀ t x, pickClass s1 p = some (t, x) → exec (.frameTransmit p) s = .next (startTx s1 p t x)))) ∧
    (∀ p : Fin 128, exec (.gateEntryChange p) s = .next (showGate s p)) ∧
    (∀ p : Fin 128,
      let stops : Prop := s.flag (queSlot p + 0x004) 8 ∧ !s.flag (queSlot p + 0x004) 0 ∧ (portSw s p).tx.isNone
      (¬stops → exec (.schedulerStopped p) s = .next s) ∧ (stops → exec (.schedulerStopped p) s = .next (setActiveSched s p false))) ∧
    (∀ p : Fin 128, exec (.flushComplete p) s = .next (setPortSw s p { portSw s p with flushing := none })) ∧
    (∀ (p : Fin 137) (t : Fin 4),
      let due : Prop := p.val ≠ 128 ∧ !queMoving s p t ∧ (moveUpDue s p t ∨ moveDownDue s p t)
      (¬due → exec (.tierMoveStart p t) s = .next s) ∧
      (due → exec (.tierMoveStart p t) s = .next (plcEvent ((s.setFlag (queAdm p t + 0x0C) 31 true).count (plcB + 0x108)) 4))) ∧
    ∀ (p : Fin 137) (t : Fin 4),
      let isOver : Prop := p.val ≠ 128 ∧ queMoving s p t ∧ ((queueOf s p t).all fun c => c.tier == newTier s p t)
      (¬isOver → exec (.tierMoveDone p t) s = .next s) ∧ (isOver → exec (.tierMoveDone p t) s = .next (endMove s p t))

/-- For each event of learning, ageing, flushes and locks of the tables (R469 to R485, R492, R493): when it acts and the state it then leaves; at
other times it changes nothing (the model's choice, log entry 37). -/
def Obligations.TableEngineEventsHaveTheirEffect : Prop :=
  ∀ s : State,
    (switchRuns s = false ∨ nextLearner s = none → exec .learnCommit s = .next s) ∧
    (∀ r x q, switchRuns s = true → nextLearner s = some r → learnQ s r = x :: q → exec .learnCommit s = .next
      (engineCommits (commitLearn { setLearnQ s r q with tbl := { (setLearnQ s r q).tbl with lastLearn := r } } r x) 7 1)) ∧
    (∀ (vid : BitVec 12) (mac : BitVec 48),
      let isOver := s.tbl.track.any (fun x => x.vid == vid.toNat && x.mac == mac.toNat && x.frozen.isNone && decide (x.ends ≤ s.elapsed))
      (isOver = false → exec (.moveWindowExpiry vid mac) s = .next s) ∧
      (isOver = true → exec (.moveWindowExpiry vid mac) s = .next (dropTrack s vid.toNat mac.toNat))) ∧
    (∀ (vid : BitVec 12) (mac : BitVec 48),
      let due := ∃ x ∈ s.tbl.track, x.vid = vid.toNat ∧ x.mac = mac.toNat ∧ ∃ e, x.frozen = some e ∧ e ≤ s.elapsed
      (¬due → exec (.flapHoldEnd vid mac) s = .next s) ∧
      (due → findKey s false (l2Key vid.toNat mac.toNat) = none → exec (.flapHoldEnd vid mac) s = .next (dropTrack s vid.toNat mac.toNat)) ∧
      ∀ q, due → findKey s false (l2Key vid.toNat mac.toNat) = some q → exec (.flapHoldEnd vid mac) s = .next
        (dropTrack (refreshAt (alterEntry s q fun e => setDw e 3 (putBits (dwAt e 3) 15 15 0)) q) vid.toNat mac.toNat)) ∧
    (∀ r : Fin 8,
      (refQ s r = [] ∨ switchRuns s = false → exec (.refreshCommit r) s = .next s) ∧
      (refQ s r ≠ [] → switchRuns s = true → exec (.refreshCommit r) s = .next (engineCommits (commitRefresh s r) 7 1))) ∧
    (let ends := s.tbl.ageAt + s.tbl.agePer * 10000000 * tuPerNs
     let t : State := { s with tbl := { s.tbl with ageAt := ends, agePer := s.fld (tblB + 0x054) 12 0, ageLim := s.fld (tblB + 0x054) 30 16 } }
     (s.alive = false ∨ s.elapsed < ends → exec .ageTick s = .next s) ∧
     (s.alive = true → ends ≤ s.elapsed → exec .ageTick s = .next (t.wr (tblB + 0x058) (w32 ((tblNow s + 1) % 2 ^ 16))))) ∧
    (∀ (stream : Bool) (i : BitVec 20),
      (switchRuns s = false → exec (.agerVisit stream i) s = .next s) ∧
      (switchRuns s = true → exec (.agerVisit stream i) s = .next (agerVisit s (if stream then stBase + i.toNat else i.toNat)))) ∧
    (s.tbl.dels = [] → exec .ageDeleteCommit s = .next s) ∧
    (∀ d t, s.tbl.dels = d :: t →
      ((delReady s d && switchRuns s) = false → exec .ageDeleteCommit s = .next s) ∧
      (delReady s d = true → switchRuns s = true → exec .ageDeleteCommit s = .next
        (engineCommits (commitDel { s with tbl := { s.tbl with dels := t } } d) 7 1))) ∧
    (∀ p : Fin 128,
      let x := flushOpen s p 0
      let s1 := engineCommits x.1 7 x.2
      (s.tbl.downs.contains p.val = false ∨ switchRuns s = false → exec (.portDownTableFlush p) s = .next s) ∧
      (s.tbl.downs.contains p.val = true → switchRuns s = true →
        (flushPlaces s1 p 0 ≠ [] → exec (.portDownTableFlush p) s = .next s1) ∧
        (flushPlaces s1 p 0 = [] → exec (.portDownTableFlush p) s = .next
          { s1 with tbl := { s1.tbl with downs := s1.tbl.downs.filter (· ≠ p.val) } }))) ∧
    (switchRuns s = false ∨ s.tbl.flushes = [] → exec .tableFlushDone s = .next s) ∧
    (∀ x, switchRuns s = true → s.tbl.flushes = [x] →
      let y := flushOpen { s with tbl := { s.tbl with flushes := [] } } x.port x.vid
      let s1 := engineCommits y.1 6 y.2
      let c := x.count + y.2
      (flushPlaces s1 x.port x.vid = [] →
        exec .tableFlushDone s = .next (tdDone s1 x.ring x.desc 0 (fieldW 19 0 (min c (2 ^ 20 - 1))))) ∧
      (flushPlaces s1 x.port x.vid ≠ [] →
        exec .tableFlushDone s = .next { s1 with tbl := { s1.tbl with flushes := s1.tbl.flushes ++ [{ x with count := c }] } })) ∧
    (switchRuns s = true →
      exec .tableFlushDone s = .next (forEach s.tbl.flushes { s with tbl := { s.tbl with flushes := [] } } fun x t => visitFlush t x)) ∧
    (∀ b : Fin 8, AMap.get s.tbl.lockAt b = none → exec (.lockExpired b) s = .next s) ∧
    ∀ (b : Fin 8) (t : Nat), AMap.get s.tbl.lockAt b = some t →
      let late : Prop := bankLocked s b ∧ s.fld (tblB + 0x06C) 7 0 ≠ 0 ∧ t + s.fld (tblB + 0x06C) 7 0 * tuPerSec ≤ s.elapsed
      (¬late → exec (.lockExpired b) s = .next s) ∧
      (late → exec (.lockExpired b) s = .next (tblEvent (locksChanged (s.setFlag (tblB + 0x064) b false) (s.rd (tblB + 0x064))) 4))

/-- Table-DMA descriptors (R486 to R491, R641 to R643). A ring that cannot be served, a table engine that stands (R36) and a descriptor of another
kind take nothing; a descriptor that fails a check completes with its code and no other effect; the others are served and complete with status 0. -/
def Obligations.TableDmaDescriptorsHaveTheirEffect : Prop :=
  ∀ (s : State) (n : Fin 256) (d data : List Word),
    let u := (takeDesc s n).1
    let i := (takeDesc s n).2
    let st := decide (tdTable d = 1)
    let e := (List.range (entryDws (tdTable d))).map (dwAt data)
    let runs : Prop := canTake s n 3 ∧ switchRuns s
    let ops (o : Nat) (c : Instr) (P : Prop) : Prop :=
      (¬runs ∨ (tdCheck d = 0 ∧ ¬(tdSnap d = false ∧ tdOp d = o)) → exec c s = .next s) ∧
      (runs → tdCheck d ≠ 0 → exec c s = .next (tdDone u n i (tdCheck d) 0)) ∧
      (runs → tdCheck d = 0 → tdSnap d = false → tdOp d = o → P)
    let out (c : Instr) (t : State) : Prop := exec c s = .next t
    ops 1 (.tableRead n d)
      ((tdCount d = 0 → out (.tableRead n d) (tdDone u n i 0 0)) ∧
       (tdCount d ≠ 0 → rangeCode d ≠ 0 → out (.tableRead n d) (tdDone u n i (rangeCode d) 0)) ∧
       (tdCount d ≠ 0 → rangeCode d = 0 → lockCode u d ≠ 0 → out (.tableRead n d) (tdDone u n i (lockCode u d) 0)) ∧
       (tdCount d ≠ 0 → rangeCode d = 0 → lockCode u d = 0 → out (.tableRead n d)
         (tdDone (u.emit (.dma (tdAddr d) ((List.range (tdCount d)).flatMap fun j => readEntry u (tdTable d) (tdIndex d + j)))) n i 0
           (fieldW 19 0 (tdCount d))))) ∧
    ops 2 (.tableWrite n d data)
      (let es := splitEntries (entryDws (tdTable d)) data (tdCount d)
       (tdCount d = 0 → out (.tableWrite n d data) (tdDone u n i 0 0)) ∧
       (tdCount d ≠ 0 → rangeCode d ≠ 0 → out (.tableWrite n d data) (tdDone u n i (rangeCode d) 0)) ∧
       (tdCount d ≠ 0 → rangeCode d = 0 → checkWrite u (tdTable d) (tdIndex d) es ≠ 0 →
         out (.tableWrite n d data) (tdDone u n i (checkWrite u (tdTable d) (tdIndex d) es) 0)) ∧
       (tdCount d ≠ 0 → rangeCode d = 0 → checkWrite u (tdTable d) (tdIndex d) es = 0 → lockCode u d ≠ 0 →
         out (.tableWrite n d data) (tdDone u n i (lockCode u d) 0)) ∧
       (tdCount d ≠ 0 → rangeCode d = 0 → checkWrite u (tdTable d) (tdIndex d) es = 0 → lockCode u d = 0 → out (.tableWrite n d data)
         (tdDone (engineCommits (forEach (List.range (tdCount d)) u fun j x => writeEntry x (tdTable d) (tdIndex d + j) (es.getD j [])) 6
           (tdCount d)) n i 0 (fieldW 19 0 (tdCount d))))) ∧
    ops 3 (.tableInsert n d data)
      ((bit (dwAt e (vdw st)) 31 = false → out (.tableInsert n d data) (tdDone u n i 0x01 0)) ∧
       (bit (dwAt e (vdw st)) 31 = true → checkEntry (tdTable d) e ≠ 0 → out (.tableInsert n d data) (tdDone u n i (checkEntry (tdTable d) e) 0)) ∧
       (bit (dwAt e (vdw st)) 31 = true → checkEntry (tdTable d) e = 0 →
         let r := insertEntry u st e
         out (.tableInsert n d data) (tdDone (engineCommits r.1 6 (if r.2.1 = 0 then 1 else 0)) n i r.2.1 (keyInfo r.2.2.1 r.2.2.2)))) ∧
    ops 4 (.tableDelete n d data)
      (let r := deleteEntry u st (keyOf st e)
       out (.tableDelete n d data) (tdDone (engineCommits r.1 6 (if r.2.1 then 1 else 0)) n i 0 (keyInfo r.2.1 r.2.2))) ∧
    ops 5 (.tableSearch n d data)
      ((findKey u st (keyOf st e) = none → out (.tableSearch n d data) (tdDone u n i 0 (keyInfo false 0))) ∧
       ∀ p, findKey u st (keyOf st e) = some p → out (.tableSearch n d data)
         (tdDone (u.emit (.dma (tdAddr d) ((entryAt u p).getD []))) n i 0 (keyInfo true (if st then p - stBase else p)))) ∧
    ops 6 (.tableFlush n d)
      (out (.tableFlush n d) { u with tbl := { u.tbl with flushes := u.tbl.flushes ++ [⟨bits (dwAt d 4) 7 0, bits (dwAt d 4) 27 16, n, i, 0⟩] } }) ∧
    (let k := bits (dwAt d 2) 1 0
     let reg := if bit (dwAt d 2) 2 then (snapRec u k).reg1 else (snapRec u k).reg0
     (¬runs ∨ (tdCheck d = 0 ∧ tdSnap d = false) → exec (.snapshotRead n d) s = .next s) ∧
     (runs → tdCheck d ≠ 0 → out (.snapshotRead n d) (tdDone u n i (tdCheck d) 0)) ∧
     (runs → tdCheck d = 0 → tdSnap d = true →
       (tdLen d = 0 → out (.snapshotRead n d) (tdDone u n i 0 0)) ∧
       (tdLen d ≠ 0 → snapState u k = 0 → out (.snapshotRead n d) (tdDone u n i 0x01 0)) ∧
       (tdLen d ≠ 0 → snapState u k = 1 ∨ snapState u k = 2 → out (.snapshotRead n d) (tdDone u n i 0x0B 0)) ∧
       (tdLen d ≠ 0 → 3 ≤ snapState u k → 2 ^ 25 < tdCount d + tdLen d → out (.snapshotRead n d) (tdDone u n i 0x06 0)) ∧
       (tdLen d ≠ 0 → 3 ≤ snapState u k → tdCount d + tdLen d ≤ 2 ^ 25 → out (.snapshotRead n d)
         (tdDone (({ u with fresh := u.fresh + tdLen d } : State).emit
           (.dmaBytes (tdAddr d) ((List.range (tdLen d)).map fun j => reg.getD (tdCount d + j) (Config.freeByte (u.fresh + j))))) n i 0
             (fieldW 25 0 (tdLen d))))))

/-- For each event of the cues of this node (R510, R511, R516 to R531): when it acts and the state it then leaves; at other times it changes nothing
(the model's choice, log entry 37). -/
def Obligations.CueEventsHaveTheirEffect : Prop :=
  ∀ s : State,
    (∀ (n : Fin 256) (d : List Word) (img : List Byte),
      let u := (takeDesc s n).1
      let r := descImage s d img
      let queued (t : State) (slot : Option Nat) : State :=
        { t with cue := { t.cue with waiting := t.cue.waiting ++ [⟨n.val, (takeDesc s n).2, r.2, wordsOf r.1, r.1.length, slot⟩] } }
      (canTake s n 4 = false → exec (.cueSubmit n d img) s = .next s) ∧
      (canTake s n 4 = true → r.2 ≠ 0 ∨ freeSlot s = none → exec (.cueSubmit n d img) s = .next (queued u none)) ∧
      ∀ k, canTake s n 4 = true → r.2 = 0 → freeSlot s = some k → exec (.cueSubmit n d img) s = .next (queued (setSlotState u k 1) (some k))) ∧
    (∀ n : Fin 256,
      let w := s.cue.waiting.find? fun x => x.ring == n.val
      (w = none → exec (.cueValidated n) s = .next s) ∧
      ∀ x, w = some x → exec (.cueValidated n) s = .next
        (endValidation { s with cue := { s.cue with waiting := s.cue.waiting.filter (· ≠ x) } } x)) ∧
    exec .cueCommitting s = .next
      (forEach ((stagedCues s).filter fun e => willCommit e && decide (e.2.t ≤ nodeTime s + 1000 * tuPerNs)) s fun e t => setSlotState t e.1 5) ∧
    (let due := byOrder ((stagedCues s).filter fun e => willCommit e && decide (e.2.t ≤ nodeTime s))
     (due = [] → exec .cueCommit s = .next s) ∧
     ∀ k c l, due = (k, c) :: l →
       (commitCode s c = 0 → exec .cueCommit s = .next
         (endPart (forEach (c.acts.filter fun a => !actSafe a.dws) s fun a t => applyAct t k a) k c 0 0 true)) ∧
       (commitCode s c ≠ 0 → exec .cueCommit s = .next (endPart (applySafe s k c) k c 0x0F (commitCode s c) true))) ∧
    (∀ p : Fin 128,
      let now := s.cue.changes.filter fun x => x.port == p.val && decide (x.due ≤ nodeTime s)
      let s1 : State := { s with cue := { s.cue with changes := s.cue.changes.filter fun y => !now.contains y } }
      let s2 := forEach (now.flatMap (·.writes)) s1 fun w t => schedWrite t w
      (now = [] → exec (.scheduleChangeAtB p) s = .next s) ∧
      ∀ x l, now = x :: l → exec (.scheduleChangeAtB p) s = .next
        (showGate (setPortSw s2 p { portSw s2 p with lastUntil := cycleStartFrom s2 p x.due }) p)) ∧
    exec .cleanSwitchPoint s = .next
      { s with cue := { s.cue with csws := s.cue.csws.map fun x => if x.live ∧ x.point ≤ nodeTime s then { x with reached := true } else x } } ∧
    exec .cswForced s = .next
      (forEach (s.cue.csws.filter fun x => x.live && decide (x.point + 2 * framePeriod x.rate ≤ nodeTime s)) s fun x t => forceSwitch t x)

/-- For the cues of the fabric (R536, R537, R541 to R546, R550): a message acts on a trunk port that is UP, if it is of its command's kind; each
deadline acts on the first cue that it concerns and on nothing else. -/
def Obligations.FabricCueEventsHaveTheirEffect : Prop :=
  ∀ s : State,
    (∀ (p : Fin 128) (hdr : List Word) (payload : List Byte),
      let m : CueMsg := ⟨hdr, payload⟩
      let takes (c : Instr) (ty : Nat) : Prop :=
        (trunkUp s p = false ∨ m.mtype ≠ ty → exec c s = .next s) ∧ (trunkUp s p = true → m.mtype = ty → exec c s = .next (takeCueMsg s p m))
      takes (.prepareReceive p hdr payload) 1 ∧ takes (.readyReceive p hdr payload) 2 ∧ takes (.armReceive p hdr payload) 3 ∧
      takes (.abortReceive p hdr payload) 4 ∧ takes (.resultReceive p hdr payload) 5 ∧ takes (.presenceReceive p hdr payload) 6) ∧
    (upPort s = none → exec .presenceSend s = .next s) ∧
    (∀ p, upPort s = some p →
      (isRoot s = true ∨ trunkUp s p = false ∨ s.elapsed < s.cue.presentAt → exec .presenceSend s = .next s) ∧
      (isRoot s = false → trunkUp s p = true → s.cue.presentAt ≤ s.elapsed → exec .presenceSend s = .next
        (sendOn (flushOutbox { s with cue := { s.cue with presentAt := s.elapsed + tuPerSec } }) p
          (cueFrame (cueMsg s 6 0 (bits (trkRootView s) 11 0) 0 0 0 1 0 [] []))))) ∧
    (let late := s.cue.cues.find? fun e => e.2.own && !e.2.armed && !e.2.aborted && !e.2.finished && decide (e.2.t ≤ nodeTime s + e.2.lead)
     (late = none → exec .armDeadline s = .next s) ∧ ∀ k c, late = some (k, c) → exec .armDeadline s = .next (rootAbort s k c)) ∧
    (let left := byOrder ((stagedCues s).filter fun e => e.2.kind == 1 && !e.2.own && !e.2.armed && decide (e.2.t ≤ nodeTime s))
     (left = [] → exec .fabricCueTimeout s = .next s) ∧
     ∀ k c l, left = (k, c) :: l → exec .fabricCueTimeout s = .next (endPart (applySafe s k c) k c 0x0F 0x09 true)) ∧
    (let ended := s.cue.cues.find? fun e => e.2.own && e.2.finished &&
        decide (e.2.t + s.fld (cueB + 0x050) 31 16 * 1000000 * tuPerNs ≤ nodeTime s)
     (ended = none → exec .resultWindowExpiry s = .next s) ∧ ∀ k c, ended = some (k, c) → exec .resultWindowExpiry s = .next (deliverFab s k c))

/-- For each event of the Bandstand (R557 to R567, R583 to R600): when it acts and the state it then leaves; at other times it changes nothing (the
model's choice, log entry 37). -/
def Obligations.BandstandEventsHaveTheirEffect : Prop :=
  ∀ s : State,
    (∀ (rate : Bool) (blog : Fin 6) (runs : List JobRun) (bad : List (BitVec 16)) (work : List CellWork),
      let r := if rate then 1 else 0
      let run := exec (.blockBoundary rate blog runs bad () work) s
      let s1 := runBoundary s r (3 + blog.val) runs (bad.map (·.toNat)) work
      ((cellsRun s && boundaryDue s r (3 + blog.val)) = false → run = .next s) ∧
      ((cellsRun s && boundaryDue s r (3 + blog.val)) = true → run = .next
        (forEach (stuckCells s1) s1 fun c t => retireCompute t.drawn c t.freeCode))) ∧
    (∀ h : BitVec 16,
      (jobOf s h.toNat = none → exec (.jobMoveStart h ()) s = .next s) ∧
      ∀ j, jobOf s h.toNat = some j →
        let stays := cellsRun s = false ∨ j.homeless = true ∨ j.move ≠ none ∨ j.stopping = true ∨ 8 ≤ (movesNow s).length ∨
          ∃ e ∈ movesNow s, e.2.cell = j.cell
        (stays → exec (.jobMoveStart h ()) s = .next s) ∧
        (¬stays → moveTarget s j = none → exec (.jobMoveStart h ()) s = .next s) ∧
        ∀ x, ¬stays → moveTarget s j = some x →
          (j.proc = none → exec (.jobMoveStart h ()) s = .next (settleCell (refreshGroups (setJob s h.toNat x)) j.cell)) ∧
          (j.proc ≠ none → exec (.jobMoveStart h ()) s = .next (refreshGroups (setJob s h.toNat { j with move := some { dst := x.cell } })))) ∧
    (∀ h : BitVec 16,
      (jobOf s h.toNat = none → exec (.jobStateCopy h) s = .next s) ∧
      ∀ j, jobOf s h.toNat = some j →
        (j.move = none → exec (.jobStateCopy h) s = .next s) ∧
        ∀ m, j.move = some m →
          (m.step = 0 → cellsRun s = true → (cellOf s m.dst).ready = true →
            exec (.jobStateCopy h) s = .next (setJob s h.toNat { j with move := some { m with step := 1 } })) ∧
          (m.step ≠ 0 ∨ cellsRun s = false ∨ (cellOf s m.dst).ready = false → exec (.jobStateCopy h) s = .next s)) ∧
    (∀ r : Fin 8,
      let waiting := (inboxOf s r).dropWhile fun f => !usesFrame s r f
      (cellsRun s = false ∨ waiting = [] →
        exec (.audioInPacket r) s = .next s ∧ exec (.e131Packet r) s = .next s ∧ exec (.st20227Packet r) s = .next s) ∧
      ∀ f l, cellsRun s = true → waiting = f :: l →
        let takes (c : Instr) (mine : Prop) : Prop :=
          (mine → exec c s = .next (setInbox (takeFrame s r f) r l)) ∧ (¬mine → exec c s = .next s)
        takes (.audioInPacket r) (streamsFor s f 1 ≠ []) ∧ takes (.e131Packet r) (packetJobs s r f 6 ≠ []) ∧
        takes (.st20227Packet r) (packetJobs s r f 7 ≠ []) ∧
        (udpPayload f.bytes = none → takeFrame s r f = s) ∧
        ∀ y, udpPayload f.bytes = some y →
          let s1 := forEach (streamsFor s f 1 ++ streamsFor s f 3) s fun e t => countPacket t r f e.1
          let s2 := forEach (streamsFor s f 1) s1 fun e t => takeAudio t r e.2 y
          let s3 := forEach (packetJobs s r f 6) s2 fun e t => takeDmx t e.1 y
          takeFrame s r f = forEach (packetJobs s r f 7) s3 fun e t => takeRtp t e.1 y) ∧
    (∀ h : BitVec 16,
      (jobOf s h.toNat = none → exec (.e131SourceTimeout h) s = .next s ∧ exec (.e131Keepalive h) s = .next s) ∧
      ∀ j, jobOf s h.toNat = some j →
        let sends := j.kind = 6 ∧ j.started = true ∧ cellsRun s = true ∧ j.sentAt + j.arg1 * 1000000 * tuPerNs ≤ s.elapsed
        (j.kind = 6 → exec (.e131SourceTimeout h) s = .next (setJob s h.toNat
          (dmxRefresh s { j with srcs := j.srcs.filter fun x => decide (s.elapsed < x.lastAt + 2500000000 * tuPerNs) }))) ∧
        (j.kind ≠ 6 → exec (.e131SourceTimeout h) s = .next s) ∧
        (sends → exec (.e131Keepalive h) s = .next (dmxSend s h.toNat j)) ∧
        (¬sends → exec (.e131Keepalive h) s = .next s)) ∧
    ∀ c : Fin 128,
      let opens := cellsRun s = true ∧ cellServes s c = true ∧ (cellOf s c).ready = false ∧ (s.pstate = 0 ∨ jobsOn s c ≠ [] ∨ jobsTo s c ≠ [])
      (opens → exec (.cellReady c) s = .next (setCell s c { cellOf s c with ready := true })) ∧
      (¬opens → exec (.cellReady c) s = .next s)

/-- Compute descriptors (R570 to R574, R578 to R582, R588 to R591, R649, R650). A ring that cannot be served, and a descriptor of another kind, take
nothing; a descriptor that fails a check completes with its code and no other effect; the others are served. -/
def Obligations.ComputeDescriptorsHaveTheirEffect : Prop :=
  ∀ (s : State) (n : Fin 256) (d rec gains : List Word) (img : List Byte),
    let u := (takeDesc s n).1
    let i := (takeDesc s n).2
    let ops (o : Nat) (r : List Word) (c : Instr) (P : Prop) : Prop :=
      (canTake s n 5 = false ∨ (cdCheck s d r = 0 ∧ cdOp d ≠ o) → exec c s = .next s) ∧
      (canTake s n 5 = true → cdCheck s d r ≠ 0 → exec c s = .next (cdDone u n i (cdCheck s d r) 0)) ∧
      (canTake s n 5 = true → cdCheck s d r = 0 → cdOp d = o → P)
    let out (c : Instr) (t : State) : Prop := exec c s = .next t
    let h := cdHandle d
    ops 1 rec (.createJob n d rec img ())
      (let j := jobOfRec rec img
       let c := Instr.createJob n d rec img ()
       let full := 8192 ≤ u.plc.jobs.length ∨ (j.packet = false ∧ 32768 < tapCount u + j.nout)
       (jobCheck u rec img j ≠ 0 → out c (cdDone u n i (jobCheck u rec img j) 0)) ∧
       (jobCheck u rec img j = 0 → full ∨ bestCell u j allCells = none → out c (cdDone u n i 0x07 0)) ∧
       ∀ x, jobCheck u rec img j = 0 → ¬full → bestCell u j allCells = some x →
         let t1 := judgeLoads (refreshGroups (setJob u (bits (dwAt rec 0) 15 0) x))
         out c (cdDone t1 n i 0 (fieldW 14 8 x.cell ||| fieldW 7 0 (halfPercent (jobCycles t1 x))))) ∧
    ops 2 [] (.deleteJob n d)
      (∀ j, jobOf u h = some j →
         let taps := if j.packet then [] else j.outs
         let t1 := endTapReaders u taps
         (tapsRead u h taps = true → out (.deleteJob n d) (cdDone u n i 0x0B 0)) ∧
         (tapsRead u h taps = false →
           out (.deleteJob n d) (cdDone (if j.proc.isSome then setJob t1 h { j with stopping := true } else removeJob t1 h j) n i 0 0))) ∧
    ops 3 [] (.setParam n d)
      (∀ j, jobOf u h = some j →
         let p := bits (dwAt d 4) 31 24
         (paramCheck j p (dwAt d 5) ≠ 0 → out (.setParam n d) (cdDone u n i (paramCheck j p (dwAt d 5)) 0)) ∧
         (paramCheck j p (dwAt d 5) = 0 → out (.setParam n d)
           (cdDone (judgeLoads (setJob u h
             (changeParam u j p (nextFresh u j) (bits (dwAt d 4) 19 0) (bits (dwAt d 4) 23 22) (dwAt d 5) false))) n i 0 0))) ∧
    ops 4 [] (.loadSet n d gains)
      (∀ j, jobOf u h = some j →
         let c := Instr.loadSet n d gains
         let set := bits (dwAt d 4) 31 28
         let row := bits (dwAt d 4) 15 8
         let rows := bits (dwAt d 4) 7 0
         let gs := (List.range (rows * j.nin)).map (dwAt gains)
         let outside := j.kind ≠ 1 ∨ rows = 0 ∨ 128 < rows ∨ j.nout < row + rows ∨ j.arg0 ≤ set ∨ ∃ g ∈ gs, 16 * f32One < (f32Val g).natAbs
         let base := (set * j.nout + row) * j.nin
         let k : Job := { j with gains := (gs.zip (List.range gs.length)).foldl (fun a e =>
           if f32Val e.1 = 0 then AMap.del a (base + e.2) else AMap.set a (base + e.2) e.1) j.gains }
         (gs.all f32Finite = false → out c (cdDone u n i 0x01 0)) ∧
         (gs.all f32Finite = true → outside → out c (cdDone u n i 0x06 0)) ∧
         let isOver := cellCycles < jobCycles u k ∧ jobCycles u j < jobCycles u k
         (gs.all f32Finite = true → ¬outside → isOver → out c (cdDone u n i 0x07 0)) ∧
         (gs.all f32Finite = true → ¬outside → ¬isOver → out c (cdDone (judgeLoads (setJob u h k)) n i 0 0))) ∧
    ops 5 rec (.createStream n d rec)
      (let x := streamOfRec rec
       (streamCheck u rec x ≠ 0 → out (.createStream n d rec) (cdDone u n i (streamCheck u rec x) 0)) ∧
       (streamCheck u rec x = 0 → out (.createStream n d rec)
         (cdDone (refreshGroup (setStream u (bits (dwAt rec 0) 15 0) { x with since := u.elapsed }) x.grp) n i 0 0))) ∧
    ops 6 [] (.deleteStream n d)
      (∀ x, streamOf u h = some x →
         let taps := if x.skind = 1 then (List.range x.ch).map (x.tapBase + ·) else []
         let t1 := dropTaps (endTapReaders u taps) taps
         let t2 : State := { t1 with plc := { t1.plc with streams := AMap.del t1.plc.streams h } }
         (tapsRead u 0 taps = true → out (.deleteStream n d) (cdDone u n i 0x0B 0)) ∧
         (tapsRead u 0 taps = false →
           out (.deleteStream n d) (cdDone (if x.skind = 1 ∨ x.skind = 3 then refreshGroup t2 x.grp true else t2) n i 0 0))) ∧
    ops 7 [] (.readJob n d)
      (∀ j, jobOf u h = some j → out (.readJob n d)
         (cdDone (u.emit (.dma (cdAddr d) [jqPlace u h, jqStat u h, w32 j.blocks, w32 j.overs, w32 j.late, 0, 0, 0])) n i 0 0))

/-- For each event of the rings, doorbells and completions (R611 to R638, R656 to R664): when it acts and the state it then leaves; at other times it
changes nothing (the model's choice, log entry 37). -/
def Obligations.RingEventsHaveTheirEffect : Prop :=
  ∀ s : State,
    (∀ n : Fin 256,
      let stops := ringActive s n = true ∧ ringEn s n = false ∧ ringDraining s n = false
      (stops → exec (.ringStopped n) s = .next (setActiveRing s n false)) ∧ (¬stops → exec (.ringStopped n) s = .next s)) ∧
    (∀ (be : BitVec 4) (a : BitVec 20) (v : Word), a.toNat % 0x1000 ≠ 0 →
      exec (.ringDoorbell be a v) s = .next s ∧ exec (.cqDoorbell be a v) s = .next s ∧ exec (.cqRearm be a v) s = .next s) ∧
    (∀ (be : BitVec 4) (n : Fin 256) (v : Word),
      let a := BitVec.ofNat 20 (0x1000 * n.val)
      let bell (r : Host.Outcome State Fault Refusal) : Prop :=
        exec (.ringDoorbell be a v) s = r ∧ exec (.cqDoorbell be a v) s = r ∧ exec (.cqRearm be a v) s = r
      let s1 := s.setFld (cqCfg n + 0x0C) 15 0 (bits v 15 0)
      (s.alive = false → bell (.next s)) ∧
      (s.alive = true → doorbellCode s be n v ≠ 0 → bell (.next (refuseDoorbell s n (doorbellCode s be n v) v))) ∧
      (s.alive = true → doorbellCode s be n v = 0 →
        (bit v 31 = true → bit v 30 = true → bell (.next (setCqRec (setArmed s1 n true) n { cqRec s1 n with armedAt := s1.elapsed }))) ∧
        (bit v 31 = true → bit v 30 = false → bell (.next s1)) ∧
        (bit v 31 = false → ringType s n = 6 → bell (.next (s.setFld (ringCfg n + 0x0C) 15 0 (bits v 15 0)))) ∧
        (bit v 31 = false → ringType s n ≠ 6 → bell (.next (s.setFld (ringCfg n + 0x0C) 31 16 (bits v 15 0)))))) ∧
    (∀ (n : Fin 256) (d : List Word) (data : List Byte),
      let u := (takeDesc { s with hif := { s.hif with txLast := n } } n).1
      let i := (takeDesc { s with hif := { s.hif with txLast := n } } n).2
      let f := txFrame u d data
      let s2 := u.nextFrame
      let dest := bits (dwAt d 3) 15 0
      let run := exec (.txDescriptor n d data) s
      let done (t : State) : State := complete t n { status := 0, desc := i, info := w32 (bits (dwAt d 2) 31 16) }
      (nextTx s ≠ some n.val ∨ switchRuns s = false → run = .next s) ∧
      (nextTx s = some n.val → switchRuns s = true → txCode d ≠ 0 → run = .next (complete u n { status := txCode d, desc := i, info := 0 })) ∧
      (nextTx s = some n.val → switchRuns s = true → txCode d = 0 →
        (bit (dwAt d 3) 26 = true → run = .next (forward s2 f (.port dest) false (some (n.val, i)))) ∧
        (bit (dwAt d 3) 26 = false →
          (bits (dwAt d 3) 31 30 = 0 →
            let r := resolveFrame s2 0 (bits (dwAt d 2) 15 4) (parse f.bytes) true (.port dropPort)
            run = .next (done (forward r.1 { f with vact := r.2.vact, newVid := r.2.newVid } r.2.toward false none))) ∧
          (bits (dwAt d 3) 31 30 = 1 → run = .next (done (forward s2 f (.port dest) false none))) ∧
          (2 ≤ bits (dwAt d 3) 31 30 → run = .next (done (forward s2 f (.group dest) false none)))))) ∧
    (∀ descs : List (List Word),
      let run := exec (.rxFrameDelivery descs) s
      (hostPortDown s = true ∨ s.alive = false ∨ nextDelivery s = none → run = .next s) ∧
      ∀ t, hostPortDown s = false → s.alive = true → nextDelivery s = some t →
        (t = 8 → run = .next (deliverSample s descs)) ∧ (t ≠ 8 → run = .next (deliverHost s t descs))) ∧
    (∀ n : Fin 256,
      ((ringRec s n).wait = [] → exec (.completionResume n) s = .next s) ∧
      ∀ x t, (ringRec s n).wait = x :: t →
        (cqFull s (ringCq s n) = true ∨ hostPortDown s = true → exec (.completionResume n) s = .next s) ∧
        (cqFull s (ringCq s n) = false → hostPortDown s = false →
          exec (.completionResume n) s = .next (writeCompletion (setRingRec s n { ringRec s n with wait := t }) n x))) ∧
    (∀ c : Fin 256,
      (cqDue s c = true → s.alive = true → exec (.cqFire c) s = .next
        (cqSignal (setArmed (setCqRec s c { cqRec s c with unann := 0 }) c false) (s.fld (cqCfg c) 15 8))) ∧
      (cqDue s c = false ∨ s.alive = false → exec (.cqFire c) s = .next s)) ∧
    ∀ (n : Fin 256) (fetch : Bool),
      let ty := ringType s n
      let none_ := canTake s n ty = false ∨ ty = 6 ∨ (fetch = false ∧ ty = 2)
      (none_ → exec (.dmaReadError n fetch) s = .next s) ∧
      (¬none_ → exec (.dmaReadError n fetch) s = .next
        (hifEvent ((if fetch then fetchFailed s n else bufferReadFailed s n).wr (hifB + 0x060)
          (fieldW 31 24 n ||| bitW 16 fetch ||| fieldW 15 0 (ringC s n))) 1))

/-- For each event of the host link and of the function's configuration (R639, R662, R665, R688, R728, R804, R805): when it acts and the state it then
leaves; at other times it changes nothing (the model's choice, log entry 37). -/
def Obligations.HostLinkEventsHaveTheirEffect : Prop :=
  ∀ s : State,
    (s.hif.l1Exit = true → s.alive = true → exec .linkL0Reached s = .next (reachL0 s (s.fld (hifB + 0x040) 11 8) (s.fld (hifB + 0x040) 2 0))) ∧
    (s.hif.l1Exit = false ∨ s.alive = false → exec .linkL0Reached s = .next s) ∧
    (∀ d3 bme0 msix0 : Bool,
      (s.alive = true → exec (.hostPortDown d3 bme0 msix0) s = .next (setFunction s (fnD3 s || d3) (fnBme s && !bme0) (fnMsix s && !msix0))) ∧
      (s.alive = false → exec (.hostPortDown d3 bme0 msix0) s = .next s)) ∧
    (s.alive = true → s.hif.flr = false → exec .hostPortUp s = .next (setFunction s false true true)) ∧
    (s.alive = false ∨ s.hif.flr = true → exec .hostPortUp s = .next s) ∧
    (s.alive = true → exec .functionLevelReset s = .next (hifEvent (resetHif s) 4)) ∧
    (s.alive = false → exec .functionLevelReset s = .next s) ∧
    (let low : State := { s with pwr := { s.pwr with perstLow := true } }
     (s.alive = true → exec .perstAssert s = .next (setLink (resetHif low) 4 0 0)) ∧ (s.alive = false → exec .perstAssert s = .next low)) ∧
    (let high : State := { s with pwr := { s.pwr with perstLow := false } }
     (s.pwr.perstLow = false → exec .perstDeassert s = .next s) ∧
     (s.pwr.perstLow = true → s.pstate = 2 ∨ s.pstate = 3 → exec .perstDeassert s = .next (pwrEvent high 6)) ∧
     (s.pwr.perstLow = true → s.pstate ≠ 2 → s.pstate ≠ 3 → exec .perstDeassert s = .next high)) ∧
    (∀ (link : Fin 5) (width speed : BitVec 4),
      let run := exec (.pcieLinkChange link width speed) s
      let may := linkTrains width.toNat speed.toNat && s.pwr.ready && !s.pwr.perstLow
      (s.alive = false ∨ (link.val ≠ 4 ∧ may = false) → run = .next s) ∧
      (s.alive = true →
        (link.val = 4 → run = .next (setLink s 4 0 0)) ∧
        (may = true →
          (link.val = 0 → run = .next (reachL0 s width.toNat speed.toNat)) ∧
          (link.val ≠ 0 → link.val ≠ 4 → run = .next (setLink s link width.toNat speed.toNat))))) ∧
    (let answers := s.alive && s.pwr.ready && !s.pwr.perstLow && linkState s != 4
     (∀ x : CfgReq, (answers = false → exec (.pcieConfigRequest x) s = .next s) ∧
       (answers = true → s.pwr.imaged = false → exec (.pcieConfigRequest x) s = .next (s.emit (.cfg true 0)))) ∧
     (answers = true → s.pwr.imaged = true →
       (∀ off : BitVec 12,
         exec (.pcieConfigRequest (.read off)) s = .next ((cfgRead s off.toNat).2.emit (.cfg false (cfgRead s off.toNat).1))) ∧
       (∀ bme : Bool,
         exec (.pcieConfigRequest (.command bme)) s = .next ((setFunction s (fnD3 s) bme (fnMsix s)).emit (.cfg false 0))) ∧
       (∀ d0 clr : Bool, exec (.pcieConfigRequest (.power d0 clr)) s = .next
         ((setFunction (if clr then { s with hif := { s.hif with pme := false } } else s) (!d0) (fnBme s) (fnMsix s)).emit (.cfg false 0))) ∧
       (∀ en mask : Bool, exec (.pcieConfigRequest (.msix en mask)) s = .next
         ((setFnMask (setFunction s (fnD3 s) (fnBme s) en) mask).emit (.cfg false 0))) ∧
       exec (.pcieConfigRequest .flr) s = .next ((hifEvent (resetHif s) 4).emit (.cfg false 0))))

/-- For each event of a change of power state and of gating (R497, R699, R700, R709 to R720): when it acts and the state it then leaves; at other
times it changes nothing (the model's choice, log entry 37). -/
def Obligations.PowerStateEventsHaveTheirEffect : Prop :=
  ∀ s : State,
    (s.pwr.change = .trim → exec .p1EntryDone s = .next (stateDone (gateIdle (endIn s 1)) false)) ∧
    (s.pwr.change ≠ .trim → exec .p1EntryDone s = .next s) ∧
    (let u := endIn s 0
     let v := forEach (allCells.filter (cellServes u)) { u with pwr := { u.pwr with gated := [] } } fun c t => setCell t c { cellOf t c with ready := true }
     let w := forEach u.pwr.gated v fun r t => reloadReplica t r fun _ => true
     (s.pwr.change = .untrim → exec .p0ReturnDone s = .next (stateDone (startPorts w fun p => u.pwr.gated.contains (p / 16)) false)) ∧
     (s.pwr.change ≠ .untrim → exec .p0ReturnDone s = .next s)) ∧
    (∀ r : Fin 8,
      let may := s.alive = true ∧ s.pstate = 1 ∧ s.pwr.change = .idle ∧ pavIdle s r = true ∧ s.pwr.gated.contains r.val = false
      (may → exec (.pavilionGate r) s = .next (gatePav s r)) ∧ (¬may → exec (.pavilionGate r) s = .next s)) ∧
    (∀ r : Fin 8,
      let u : State := { s with pwr := { s.pwr with gated := s.pwr.gated.filter (· != r.val) } }
      let may := s.pwr.gated.contains r.val = true ∧ pavIdle s r = false
      (may → exec (.pavilionUngateDone r) s = .next (startPorts (reloadReplica u r fun _ => true) fun p => p / 16 == r.val)) ∧
      (¬may → exec (.pavilionUngateDone r) s = .next s)) ∧
    ((∀ x y, s.pwr.change ≠ .hold x y) → exec .p2Commit s = .next s) ∧
    (∀ x toP3, s.pwr.change = .hold x toP3 →
      (holdReached s = true → exec .p2Commit s = .next (darken (setResult (setChange s (.gating toP3) (if toP3 then 3 else 2)) 2 0))) ∧
      (holdReached s = false → exec .p2Commit s = .next s)) ∧
    ((∀ x, s.pwr.change ≠ .gating x) → exec .p2EntryDone s = .next s) ∧
    (∀ toP3, s.pwr.change = .gating toP3 → exec .p2EntryDone s = .next (reachP2 s toP3)) ∧
    ((∀ x, s.pwr.change ≠ .leave x) → exec .p2DepartureDone s = .next s) ∧
    (∀ toP1, s.pwr.change = .leave toP1 → exec .p2DepartureDone s = .next (brighten s (if toP1 then 1 else 0))) ∧
    ((∀ x, s.pwr.change ≠ .linkWait x) → ∀ ready, exec (.p3LinkReady ready) s = .next s) ∧
    (∀ c, s.pwr.change = .linkWait c →
      let due := waited s s.pwr.stepAt (s.fld (pwrB + 0x050) 31 16 * 1000000 * tuPerNs)
      exec (.p3LinkReady true) s = .next (alignLodge s c) ∧
      (due = true → exec (.p3LinkReady false) s = .next (alignLodge s c)) ∧
      (due = false → exec (.p3LinkReady false) s = .next s)) ∧
    (s.pwr.change = .lastSecond → lastEdgeDone s = true → exec .p3SundialLastPps s = .next (lastPps s)) ∧
    (s.pwr.change ≠ .lastSecond ∨ lastEdgeDone s = false → exec .p3SundialLastPps s = .next s) ∧
    (s.pwr.change = .railsOff → exec .p3EntryDone s = .next (rest s)) ∧
    (s.pwr.change ≠ .railsOff → exec .p3EntryDone s = .next s) ∧
    (s.pwr.change = .restart → s.pstate = 3 → s.pwr.railEn = false → exec .p3Restart s = .next (raiseRails (resetBlocks s))) ∧
    (s.pwr.change ≠ .restart ∨ s.pstate ≠ 3 ∨ s.pwr.railEn = true → exec .p3Restart s = .next s)

/-- For each event of the Lodge, its clock and the wake pins and words (R719, R723 to R731, R779, R808, R833): when it acts and the state it then
leaves; at other times it changes nothing (the model's choice, log entry 37). -/
def Obligations.LodgeEventsHaveTheirEffect : Prop :=
  ∀ s : State,
    (let u := reachLodge s (secondFrom (lodgeNow s) * tuPerSec)
     let may := s.pwr.imaged = true ∧ s.held = false ∧ s.pwr.loaded = none ∧ s.pwr.handedBack = false ∧ lodgeNow u % tuPerSec < lodgeInc u
     (may → exec .sundialLodgeLoad s = .next (loadSundial { u with pwr := { u.pwr with loaded := some (lodgeNow u / tuPerSec) } })) ∧
     (¬may → exec .sundialLodgeLoad s = .next s)) ∧
    (s.pwr.loaded = none → exec .p3RestartDone s = .next s) ∧
    (∀ w, s.pwr.loaded = some w →
      let u : State := { s with sun := { s.sun with ppsLodge := false }, pwr := { s.pwr with lodgePps := none, loaded := none, handedBack := true } }
      (nodeTime s < (w + 1) * tuPerSec → exec .p3RestartDone s = .next s) ∧
      ((w + 1) * tuPerSec ≤ nodeTime s →
        (s.pwr.change ≠ .restart → exec .p3RestartDone s = .next u) ∧
        (s.pwr.change = .restart → wakeToP1 u = true → exec .p3RestartDone s = .next (beginChange u .trim 1)) ∧
        (s.pwr.change = .restart → wakeToP1 u = false → exec .p3RestartDone s = .next (stateDone (endIn u 0) false)))) ∧
    (let may := s.alive = true ∧ s.sun.stopped = false ∧ s.sun.hand.carried = true ∧ s.pwr.lapse = false ∧
        ¬(s.pwr.change = .restart ∧ s.pwr.loaded = none) ∧ s.pwr.change ≠ .lastSecond ∧ s.pwr.change ≠ .railsOff
     (may → exec .lodgeSync s = .next (syncLodge s)) ∧ (¬may → exec .lodgeSync s = .next s)) ∧
    (s.pwr.lodgePps = none ∨ s.pwr.lodgeOn = false ∨ s.pwr.lapse = true → exec .lodgePps s = .next s) ∧
    (∀ width adj k0, s.pwr.lodgePps = some (width, adj, k0) → s.pwr.lodgeOn = true → s.pwr.lapse = false →
      let k := nextPps s adj k0
      let n := divRound ((k * tuPerSec : Nat) + adjTu (adj * 2 ^ 40) - lodgeNow s) (lodgeInc s)
      let gap := lodgePeriod s
      let at_ := if s.sun.stopped then max s.elapsed (s.pwr.lodgeAt + ((s.elapsed - s.pwr.lodgeAt) / gap + n.toNat) * gap) else s.elapsed
      let u : State := { s with elapsed := at_, pwr := { s.pwr with lodgePps := some (width, adj, k + 1) } }
      let never := lodgeInc s = 0 ∨ n < 0 ∨ (∃ w, s.pwr.loaded = some w ∧ w < k) ∨ (n ≠ 0 ∧ s.sun.stopped = false)
      (never → exec .lodgePps s = .next s) ∧
      (¬never → fieldOff s 0 = true → exec .lodgePps s = .next u) ∧
      (¬never → fieldOff s 0 = false → exec .lodgePps s = .next
        ((u.emit (.edge (.pps 0) true (lodgeNow u))).emit (.edge (.pps 0) false (lodgeNow u + width))))) ∧
    (let u := setLodgeSet (setLodge s (lodgeNow s)) false
     let dead : State := { u with pwr := { u.pwr with lapse := true }, clk := { u.clk with oscLost := true } }
     (s.pwr.lapse = true → exec .oscinLapse s = .next s) ∧
     (s.pwr.lapse = false → dead.alive = true → exec .oscinLapse s = .next (chipFatal dead 0x01 0)) ∧
     (s.pwr.lapse = false → dead.alive = false → exec .oscinLapse s = .next dead)) ∧
    (let u := setLodge s s.pwr.lodge
     (s.pwr.lapse = true → exec .oscinReturn s = .next { u with pwr := { u.pwr with lapse := false }, clk := { u.clk with oscLost := false } }) ∧
     (s.pwr.lapse = false → exec .oscinReturn s = .next s)) ∧
    (let u := reachLodge s (alarmSec s * tuPerSec)
     let due := s.pwr.lodgeOn = true ∧ alarmOn s = true ∧ alarmSec s * tuPerSec ≤ lodgeNow u
     (due → exec .lodgeAlarm s = .next (pwrEvent (u.setFlag (pwrB + 0x094) 31 false) 5)) ∧ (¬due → exec .lodgeAlarm s = .next s)) ∧
    (∀ pin : Fin 2,
      (s.pwr.lodgeOn = true → exec (.wakePinEdge pin) s = .next (pwrEvent s (3 + pin))) ∧
      (s.pwr.lodgeOn = false → exec (.wakePinEdge pin) s = .next s)) ∧
    (let sent := ∀ p : Nat, p < 128 → portIs s p 1 = true → s.flag (lanB p + 0x040) 2 = true → (portRec s p).wakes = []
     (s.pwr.wakeBusy = true → sent → exec .trunkWakeSendDone s = .next { s with pwr := { s.pwr with wakeBusy := false } }) ∧
     (s.pwr.wakeBusy = false ∨ ¬sent → exec .trunkWakeSendDone s = .next s)) ∧
    ∀ (p : Fin 128) (w : BitVec 64),
      let may := s.alive = true ∧ portIs s p 1 = true ∧ 3 ≤ trkSt s p ∧ trkSt s p ≤ 8 ∧ wakeValid w = true
      (may → exec (.trunkWakeReceive p w) s = .next (takeWake s p w)) ∧ (¬may → exec (.trunkWakeReceive p w) s = .next s)

/-- For each event of the feeds, the hold-up bank and the field outputs (R732 to R741): when it acts and the state it then leaves; at other times it
changes nothing (the model's choice, log entry 37). -/
def Obligations.FeedEventsHaveTheirEffect : Prop :=
  ∀ s : State,
    (∀ (x : Fin 2) (va vb : BitVec 16 × BitVec 16),
      let u0 := takeVolts s va.1 vb.1
      let u := takeVolts u0 va.2 vb.2
      let lost := s.pwr.lodgeOn = true ∧ feedOk s x = true ∧ inRange u0 x = false ∧ inRange u x = false
      let back := s.pwr.lodgeOn = true ∧ feedOk s x = false ∧ inRange u0 x = true ∧ inRange u x = true
      (lost → exec (.feedLost x va vb) s = .next (loseFeed u x)) ∧ (¬lost → exec (.feedLost x va vb) s = .next s) ∧
      (back → exec (.feedReturn x va vb) s = .next (regainFeed u x (inRange u0 (1 - x.val)))) ∧
      (¬back → exec (.feedReturn x va vb) s = .next s)) ∧
    (s.pwr.holdSince = none → exec .feedRevert s = .next s) ∧
    (∀ t, s.pwr.holdSince = some t →
      let f := prefFeed s
      let due := s.flag (pwrB + 0x058) 31 = true ∧ s.pwr.fet = some (1 - f) ∧ feedOk s f = true ∧
        waited s t (s.fld (pwrB + 0x058) 7 0 * 100000000 * tuPerNs) = true
      (due → exec .feedRevert s = .next (pwrEvent (((fetOn s f).emit (.edge (gateBall (1 - f)) false 0)).count (pwrB + 0x100)) 1)) ∧
      (¬due → exec .feedRevert s = .next s)) ∧
    (let u := holdChip (setLodge s (lodgeNow s))
     let dark := s.pwr.lodgeOn = true ∧ s.pwr.fet = none ∧ s.flag (pwrB + 0x040) 19 = true
     (dark → exec .lodgeStop s = .next
       { u with pwr := { u.pwr with lodgeOn := false, lodgePps := none, railEn := false, railGood := false, change := .idle } }) ∧
     (¬dark → exec .lodgeStop s = .next s)) ∧
    (∀ c : BitVec 16,
      let v := fullVolts c.toNat
      let u := (s.wr (pwrB + 0x06C) (w32 c.toNat)).wr (pwrB + 0x068) (fieldW 31 16 (min 65535 (bankEnergy c.toNat v)) ||| fieldW 15 0 v)
      (s.pwr.charging = true →
        exec (.chargeComplete c) s = .next { u.setFlag (pwrB + 0x040) 18 true with pwr := { s.pwr with charging := false, chargeAt := none } }) ∧
      (s.pwr.charging = false → exec (.chargeComplete c) s = .next s)) ∧
    (∀ v : BitVec 16, s.pwr.chargeAt = none → exec (.chargeTimeout v) s = .next s) ∧
    (∀ (v : BitVec 16) (t : Nat), s.pwr.chargeAt = some t →
      let u := s.setFld (pwrB + 0x068) 15 0 v.toNat
      let due := s.pwr.charging = true ∧ v.toNat < 800 ∧ waited s t (5 * tuPerSec) = true
      (due → exec (.chargeTimeout v) s = .next (feedFault { u with pwr := { u.pwr with chargeAt := none } })) ∧
      (¬due → exec (.chargeTimeout v) s = .next s)) ∧
    (∀ b : Fin 12,
      let u := ((cutField s b).setFlag (pwrB + 0x0A0) b true).count (pwrB + 0x104)
      let may := s.pwr.lodgeOn = true ∧ fieldOff s b = false
      (may → exec (.fieldShort b) s = .next { u with pwr := { u.pwr with fieldAt := AMap.set u.pwr.fieldAt b u.elapsed } }) ∧
      (¬may → exec (.fieldShort b) s = .next s)) ∧
    ∀ b : Fin 12,
      let due := s.pwr.lodgeOn = true ∧ fieldOff s b = true ∧ waited s (AMap.getD s.pwr.fieldAt b 0) tuPerSec = true
      (due → exec (.fieldRetry b) s = .next
        { s.setFlag (pwrB + 0x0A0) b false with pwr := { s.pwr with fieldAt := AMap.del s.pwr.fieldAt b } }) ∧
      (¬due → exec (.fieldRetry b) s = .next s)

/-- For the NVM's writes, the monitors' readings and uncorrectable errors (R27, R515, R743, R766, R769 to R783): the state each leaves. A chip in
reset takes no reading and no error. -/
def Obligations.MonitorEventsHaveTheirEffect : Prop :=
  ∀ s : State,
    (∀ fail : Bool, s.nvm.jobs = [] → exec (.nvmWriteDone fail) s = .next s) ∧
    (∀ j l, s.nvm.jobs = j :: l →
      let kept : State := { s with nvm := { s.nvm with jobs := l } }
      let bad : State := { s with nvm := { s.nvm with jobs := l }, fresh := s.fresh + j.data.length }
      let u := (nvmStore bad j.addr ((List.range j.data.length).map fun i => Config.freeByte (s.fresh + i))).setFlag (nvmB + 0x044) 0 (decide (l ≠ []))
      exec (.nvmWriteDone false) s = .next ((nvmStore kept j.addr j.data).setFlag (nvmB + 0x044) 0 (decide (l ≠ []))) ∧
      (j.win = none → exec (.nvmWriteDone true) s = .next (tdcEvent u 3)) ∧
      ∀ o m, j.win = some (o, m) → exec (.nvmWriteDone true) s = .next (latchErr u ⟨.nvm, 0, 0⟩ 0x0A o m)) ∧
    (∀ temps mv : List (BitVec 16),
      (s.alive = true → exec (.sensorRead temps) s = .next (takeTemps s temps) ∧ exec (.supplyRead mv) s = .next (takeSupplies s mv)) ∧
      (s.alive = false → exec (.sensorRead temps) s = .next s ∧ exec (.supplyRead mv) s = .next s)) ∧
    (∀ m : Fin 8,
      let stands (o : Nat) : Prop := AMap.get s.mon.outAt m = some o ∧ o + 100000 * tuPerNs ≤ s.elapsed
      let u := (safeStates ((s.wr (monB + 0x048) (bitW 31 true ||| fieldW 15 8 m ||| fieldW 7 0 0x03)).orReg (monB + 0x040) (bitW 31 true))).setFld
        (chpB + 0x040) 3 0 3
      let low (t : State) : State := t.emit (.edge .fatalN false (nodeTime s))
      (s.alive = false ∨ (∀ o, ¬stands o) → exec (.supplyFault m) s = .next s) ∧
      ∀ o, s.alive = true → stands o →
        (fatalNow s = true → exec (.supplyFault m) s = .next (s.setFlag (monB + 0x048) 30 true)) ∧
        (fatalNow s = false → s.mode = 3 → exec (.supplyFault m) s = .next (low (latchSource u 480))) ∧
        (fatalNow s = false → s.mode ≠ 3 → exec (.supplyFault m) s = .next (low (latchSource (latchSource u 18) 480)))) ∧
    (∀ x : EccWhere, s.alive = false → exec (.eccUncorrectable x) s = .next s) ∧
    (s.alive = true →
      let b := perfCount s none { ev := 0x0B } 1
      (∀ i e l k, exec (.eccUncorrectable (.header i e l k)) s = .next (loseHeader b i e l k)) ∧
      (∀ p t k, exec (.eccUncorrectable (.copy p t k)) s = .next (loseCopy b p t k)) ∧
      (∀ n : Fin 256,
        (canTake b n (ringType b n) = true → exec (.eccUncorrectable (.descriptor n)) s = .next
          (complete (chipError (takeDesc b n).1 .hif) n { status := 0x13, desc := (takeDesc b n).2, info := 0 })) ∧
        (canTake b n (ringType b n) = false → exec (.eccUncorrectable (.descriptor n)) s = .next b)) ∧
      (∀ r i, exec (.eccUncorrectable (.tableEntry r 0 i)) s = .next (badEntry b r i.toNat) ∧
        exec (.eccUncorrectable (.tableEntry r 1 i)) s = .next (badEntry b r (stBase + i.toNat)) ∧
        exec (.eccUncorrectable (.tableEntry r 2 i)) s = .next (badEntry b r (groupPlace (i.toNat % 65536)))) ∧
      (∀ k i, exec (.eccUncorrectable (.cueAction k i)) s = .next (badAct b k i)) ∧
      (∀ d : Fin 2, exec (.eccUncorrectable (.timeState d)) s = .next
        (chipFatal (refreshQc (setCtr b d { ctrOf b d with set := false })) 0x04 0)) ∧
      (∀ c, exec (.eccUncorrectable (.cellProgram c)) s = .next (retireCompute b c 0x13)) ∧
      (∀ r, exec (.eccUncorrectable (.attachment r)) s = .next (isolatePav b r)) ∧
      (∀ k r, exec (.eccUncorrectable (.shared k r)) s = .next (isolateBlock b (pavBlock k) r 0x13)) ∧
      exec (.eccUncorrectable .engine) s = .next (chipFatal b 0x05 0) ∧
      (∀ (p : Fin 137) (t : Fin 8) (bank : Fin 16) (others : List (Fin 137 × Fin 8)), attachOf p = 8 →
        exec (.eccUncorrectable (.queuePtr p t bank others)) s = .next (dropQueue b p t)) ∧
      ∀ (p : Fin 137) (t : Fin 8) (bank : Fin 16) (others : List (Fin 137 × Fin 8)), attachOf p ≠ 8 →
        let y := windowHit (dropQueue b p t) (0x2000 + 16 * attachOf p + bank.val)
        (y.2 < retireLim b → exec (.eccUncorrectable (.queuePtr p t bank others)) s = .next y.1) ∧
        (retireLim b ≤ y.2 → exec (.eccUncorrectable (.queuePtr p t bank others)) s = .next
          (retireBank (forEach (others.filter fun q => attachOf q.1 = attachOf p) y.1 fun q z => dropQueue z q.1 q.2) true (attachOf p) bank)))

/-- For power on, the rails, chip reset and what follows it (R32, R720, R725, R736, R746, R747, R770, R782, R799 to R810, R813, R814): when each event
acts and the state it then leaves; at other times it changes nothing (the model's choice, log entry 37). -/
def Obligations.ResetEventsHaveTheirEffect : Prop :=
  ∀ s : State,
    (∃ t : State, exec .lodgePowerOn s = .next t ∧ t.regs = [] ∧ t.held = true ∧ t.pwr.lodgeOn = false ∧ lodgeNow t = 0 ∧ t.pwr.fet = none ∧
      t.pwr.railEn = false ∧ t.nvm.bytes = s.nvm.bytes ∧ t.nvm.jobs = [] ∧ t.sent = (resetBalls s).sent ∧ t.ports = [] ∧ t.tbl = {} ∧ t.sw = {} ∧
      t.plc = {} ∧ t.cue = {} ∧ t.irq = {} ∧ t.gns = {} ∧ t.tdc = {}) ∧
    (∀ va vb : BitVec 16,
      let u := takeVolts { s with pwr := { s.pwr with lodgeOn := true, lodgeAt := s.elapsed } } va vb
      let w := setFeedOk (setFeedOk u 0 (inRange u 0)) 1 (inRange u 1)
      let f := prefFeed w
      (s.pwr.lodgeOn = true ∨ s.pwr.lapse = true → exec (.lodgeStart va vb) s = .next s) ∧
      (s.pwr.lodgeOn = false → s.pwr.lapse = false →
        (feedOk w f = true → exec (.lodgeStart va vb) s = .next (takeFeed w f)) ∧
        (feedOk w f = false → feedOk w (1 - f) = true → exec (.lodgeStart va vb) s = .next (takeFeed w (1 - f))) ∧
        (feedOk w f = false → feedOk w (1 - f) = false → exec (.lodgeStart va vb) s = .next (feedFault w)))) ∧
    (let may := s.pwr.lodgeOn = true ∧ s.pwr.fet ≠ none ∧ s.held = true ∧ s.pstate ≠ 3
     (may → exec .railEnable s = .next (raiseRails s)) ∧ (¬may → exec .railEnable s = .next s)) ∧
    (s.pwr.railEn = true → s.pwr.railGood = false →
      exec .railGoodRise s = .next { s with pwr := { s.pwr with railGood := true, railWait := false } }) ∧
    (s.pwr.railEn = false ∨ s.pwr.railGood = true → exec .railGoodRise s = .next s) ∧
    (s.pwr.railWait = true → exec .railGoodTimeout s = .next (feedFault ((setChange (dropRails s) .idle 3).setFld (pwrB + 0x040) 31 30 3))) ∧
    (s.pwr.railWait = false → exec .railGoodTimeout s = .next s) ∧
    (s.pwr.railEn = true → s.pwr.railGood = true →
      exec .railGoodFall s = .next (feedFault (endChange (holdChip { s with pwr := { s.pwr with railGood := false } })))) ∧
    (s.pwr.railEn = false ∨ s.pwr.railGood = false → exec .railGoodFall s = .next s) ∧
    (let u : State := { s with pwr := { s.pwr with railLow := false } }
     (s.pwr.railLow = false → exec .railOffHoldEnd s = .next s) ∧
     (s.pwr.railLow = true → s.pwr.railWant = true → exec .railOffHoldEnd s = .next (raiseRails u)) ∧
     (s.pwr.railLow = true → s.pwr.railWant = false → exec .railOffHoldEnd s = .next u)) ∧
    exec (.chipResetPin false) s = .next { s with pwr := { s.pwr with pinLow := false } } ∧
    (let u := holdChip { s with pwr := { s.pwr with pinLow := true }, irq := { s.irq with p3Latched := [] } }
     (s.pstate = 3 → exec (.chipResetPin true) s = .next (endChange (raiseRails u))) ∧
     (s.pstate ≠ 3 → exec (.chipResetPin true) s = .next (endChange u))) ∧
    (∀ fails : List (Fin 5 × Fin 8 × Fin 16),
      (s.held = false → exec (.chipReset fails) s = .next s) ∧
      (s.held = true →
        let u := setPend (resetBlocks s) 450 (s.flag (irqB + 0x170) 2)
        exec (.chipReset fails) s = .next
          { u with pwr := { u.pwr with failed := fails.map fun x => 256 * x.1.val + 16 * x.2.1.val + x.2.2.val } })) ∧
    (let may := s.held = true ∧ s.pwr.lodgeOn = true ∧ s.pwr.railEn = true ∧ s.pwr.railGood = true ∧ s.pwr.pinLow = false ∧ s.pwr.testen = false
     (may → exec .chipResetRelease s = .next (releaseChip s)) ∧ (¬may → exec .chipResetRelease s = .next s)) ∧
    (∀ x : FlashLoad,
      let u := forEach x.reads s fun r t => t.emit (fastRead r.1 r.2.length)
      let may := s.alive = true ∧ s.pwr.loading = true
      (may → exec (.firmwareLoad x) s = .next
        (latchSource ({ u with pwr := { u.pwr with firmware := x.good, loading := false } }.emit (.flashDrive false)) 17)) ∧
      (¬may → exec (.firmwareLoad x) s = .next s)) ∧
    (s.alive = true → exec .gatehouseReady s = .next { s with pwr := { s.pwr with ready := true } }) ∧
    (s.alive = false → exec .gatehouseReady s = .next s) ∧
    (let u : State := { s with pwr := { s.pwr with imaged := true } }
     let may := s.alive && s.pwr.firmware && !s.pwr.imaged && s.mode == 0
     (may = false → exec .configImageApply s = .next s) ∧
     (may = true → imageSlot s = none → exec .configImageApply s = .next (u.setFld (nvmB + 0x040) 1 0 3)) ∧
     ∀ k, may = true → imageSlot s = some k →
       let w : State := { u.setFld (nvmB + 0x040) 1 0 k with pwr := { u.pwr with subsys := nvmWord s (imageAt k + 8) } }
       exec .configImageApply s = .next
         (forEach (List.range (imageEntries s k)) w fun i t => applyEntry t (nvmWord s (imageAt k + 16 + 12 * i)).toNat
           (nvmWord s (imageAt k + 16 + 12 * i + 4)) (nvmWord s (imageAt k + 16 + 12 * i + 8)))) ∧
    exec (.testenHigh false) s = .next { s with pwr := { s.pwr with testen := false } } ∧
    exec (.testenHigh true) s = .next (endChange (holdChip { s with pwr := { s.pwr with testen := true } }))

/-- The test access port (R811, R812): each instruction shifts out or drives what its rule says while the port works, and does nothing otherwise (the
model's choice, log entry 37); EXTEST and HIGHZ act on the balls only of a chip held in reset, and select BYPASS elsewhere. -/
def Obligations.TestPortInstructionsHaveTheirEffect : Prop :=
  ∀ s : State,
    let bypass : State := { s with pwr := { s.pwr with tap := 0 }, sent := .tdo [false] :: s.sent }
    (tapWorks s = false →
      exec .jtagBypass s = .next s ∧ exec .jtagIdcode s = .next s ∧ (∀ pins data, exec (.jtagSamplePreload pins data) s = .next s) ∧
      exec .jtagExtest s = .next s ∧ exec .jtagHighz s = .next s) ∧
    (tapWorks s = true →
      exec .jtagBypass s = .next bypass ∧
      exec .jtagIdcode s = .next { s with pwr := { s.pwr with tap := 1 }, sent := .tdo ((List.range 32).map (bit idCode)) :: s.sent } ∧
      (∀ pins data, exec (.jtagSamplePreload pins data) s = .next
        { s with pwr := { s.pwr with tap := 2, boundary := data }, sent := .tdo pins :: s.sent }) ∧
      (s.held = true →
        exec .jtagExtest s = .next { s with pwr := { s.pwr with tap := 3 }, sent := .drive s.pwr.boundary :: s.sent } ∧
        exec .jtagHighz s = .next { s with pwr := { s.pwr with tap := 4 }, sent := .highz :: s.sent }) ∧
      (s.held = false → exec .jtagExtest s = .next bypass ∧ exec .jtagHighz s = .next bypass))

/-! ## Further rules -/

/-- A claim returns the deliverable source of the highest PRIO, ties going to the lowest number; its pending bit clears, it goes onto the target's
stack and its IRQ_ACTIVE bit sets; every other source keeps both bits, and every other target its stack. With no deliverable source a claim returns 0
and changes nothing (R681). The read of a claim register is this claim for the master it serves; for any other it returns 0 and claims nothing (R684).
-/
def Obligations.AClaimTakesTheBestDeliverableSource : Prop :=
  (∀ (s : State) (t : Nat), s.regsCanonical → AMap.wf s.irq.prioStacks = true →
    ((∀ n : Nat, n < 512 → ¬(deliverable s n = true ∧ srcTarget s n = t)) → claim s t = (0, s)) ∧
    ∀ n : Nat, n < 512 → deliverable s n = true → srcTarget s n = t →
      (∀ k : Nat, k < 512 → k ≠ n → deliverable s k = true → srcTarget s k = t → srcPrio s k < srcPrio s n ∨ (srcPrio s k = srcPrio s n ∧ n < k)) →
      (claim s t).1 = bitW 31 true ||| fieldW 19 16 (srcPrio s n) ||| w32 n ∧
      srcPend (claim s t).2 n = false ∧ srcActive (claim s t).2 n = true ∧ irqStack (claim s t).2 t = n :: irqStack s t ∧
      (∀ k : Nat, k < 512 → k ≠ n → srcPend (claim s t).2 k = srcPend s k ∧ srcActive (claim s t).2 k = srcActive s k) ∧
      ∀ t' : Nat, t' ≠ t → irqStack (claim s t).2 t' = irqStack s t') ∧
  ∀ (s : State) (m : Master) (be : BitVec 4) (t : Fin 260), masterActs s m = true →
    let out (u : State) (v : Word) : Prop := exec (.irqClaim m be t) s = .next (counted { u with busOut := v } m (claimAddr t.val))
    let mine := if t.val < 256 then m.num = 0 else m.num = t.val - 255
    (¬mine → out s 0) ∧
    (mine → bestSource s t.val = none → out s 0) ∧
    (mine → bestSource s t.val ≠ none → out (perfCount (claim s t.val).2 none { ev := 0x0C, master := some m.num } 1) (claim s t.val).1)

/-- An EOI that names the source on top pops it: the stack is what lay below, the source's IRQ_ACTIVE bit clears, and the target's sources are judged
again (R682). Any other EOI, or one on an empty stack, leaves every stack as it is, records the target in IRQ_ORDER_TGT and the top and the number
written in IRQ_ORDER_SRC, counts in IRQ_ORDER_CNT and raises source 16, and E_ORDER latches (R683). -/
def Obligations.AnEoiPopsTheTopOrFaults : Prop :=
  ∀ (s : State) (t n : Nat),
    (∀ rest, irqStack s t = n :: rest →
      let u := setStack (setActive s n false) t rest
      eoi s t n = (rejudge s u ((pendingSources u).filter fun k => srcTarget u k = t), false) ∧
      (AMap.wf s.irq.prioStacks = true → irqStack u t = rest ∧ ∀ t' : Nat, t' ≠ t → irqStack u t' = irqStack s t') ∧
      (s.regsCanonical → n < 512 → srcActive u n = false ∧ ∀ k : Nat, k < 512 → k ≠ n → srcActive u k = srcActive s k)) ∧
    ((irqStack s t).head? ≠ some n →
      let u := ((s.wr (irqB + 0x048) (w32 t)).wr (irqB + 0x04C) (fieldW 25 16 ((irqStack s t).headD 0x3FF) ||| fieldW 9 0 n)).count (irqB + 0x060)
      eoi s t n = (latchSource u 16, true) ∧ u.irq = s.irq) ∧
    ∀ (m : Master) (be : BitVec 4) (k : Fin 260) (v : Word) (x : Reg), taken s m be (claimAddr k.val + 4) v x = true →
      let c := eoi (s.wr x.home (newWord x (s.rd x.home) v)) k.val (bits v 8 0)
      let out (u : State) : Prop := exec (.irqEoi m be k v) s = .next (counted u m (claimAddr k.val + 4))
      (c.2 = false → out c.1) ∧ (c.2 = true → out (latchErr c.1 ⟨.irq, 0, 0⟩ 0x0C x.o m))

/-- Between two ticks a domain moves by its increment and by what its residual gives (R162, R165, R184): what is added to the counter leaves the
residual, so that their sum advances by the increment alone; a slew never passes zero and gives at most SLEW_MAX ns per second; a counter that does
not slew keeps its residual; `carried` says that a new second has begun. -/
def Obligations.ATickMovesACounterByItsIncrementAndSlew : Prop :=
  ∀ (c : TimeCtr) (smax inc : Nat),
    let d := c.advance smax inc
    let given := c.resid - d.resid
    (d.t : Int) = ((c.t : Int) + inc + given) % (timeWrap : Int) ∧
    d.adj = c.adj + given ∧
    d.resid.natAbs ≤ c.resid.natAbs ∧ (0 ≤ c.resid → 0 ≤ d.resid) ∧ (c.resid ≤ 0 → d.resid ≤ 0) ∧
    given.natAbs * 1000000000 ≤ smax * inc + c.acc ∧
    (c.slewing = false → given = 0 ∧ d.acc = c.acc) ∧
    (c.slewing = true → d.resid ≠ 0 → given.natAbs * 1000000000 + d.acc = smax * inc + c.acc) ∧
    d.carried = decide (d.t / tuPerSec ≠ c.t / tuPerSec) ∧ d.set = c.set ∧ d.rem = c.rem

/-- A power request (R701 to R703): TARGET P2 or P3 outside SERVICE is E_MODE; any KEY but 0x5C is E_LOCKED; one that names the present state while no
change is in progress, to a block that is not isolated, changes nothing. A refused request changes nothing but BLK_ERR and what an error raises; the
access is counted (R764). -/
def Obligations.PowerRequestsNeedTheirModeAndKey : Prop :=
  ∀ (s : State) (m : Master) (key : Byte) (x : Reg), masterActs s m = true → regOf (pwrB + 0x048) = some x →
    let out (code : Nat) : State := refused s m (pwrB + 0x048) x code
    let same : State := counted s m (pwrB + 0x048)
    (s.mode ≠ 1 → exec (.powerRequestP2 m 0xF key) s = .next (out 0x10) ∧ exec (.powerRequestP3 m 0xF key) s = .next (out 0x10)) ∧
    (s.mode < 4 → key ≠ 0x5C → exec (.powerRequestP0 m 0xF key) s = .next (out 0x02) ∧ exec (.powerRequestP1 m 0xF key) s = .next (out 0x02)) ∧
    (s.mode = 1 → key ≠ 0x5C → exec (.powerRequestP2 m 0xF key) s = .next (out 0x02) ∧ exec (.powerRequestP3 m 0xF key) s = .next (out 0x02)) ∧
    (s.mode < 4 → noChange s = true → isolatedBad s x = false →
      (s.pstate = 0 → exec (.powerRequestP0 m 0xF 0x5C) s = .next same) ∧ (s.pstate = 1 → exec (.powerRequestP1 m 0xF 0x5C) s = .next same))
end

