-- ==== Sys2Proof/Laws/Maps.lean ====
section
/-!
SUPPORT. Laws/Maps.lean: what the operations of the sparse map do: reading after writing, and that they keep the canonical form.
-/
namespace Sys2Proof.Machine

/-- Every key of a map lies above `k`. -/
def AMap.above {α : Type} (k : Nat) (m : AMap α) : Prop := ∀ e ∈ m, k < e.1

/-- Canonical: keys strictly rising, as a proposition that recursion takes apart. -/
def AMap.rising {α : Type} : AMap α → Prop
  | [] => True
  | (a, _) :: t => AMap.above a t ∧ AMap.rising t

/-- No listed content is the one an absent key stands for. -/
def AMap.clean {α : Type} (d : Nat → α) (m : AMap α) : Prop := ∀ e ∈ m, e.2 ≠ d e.1

theorem AMap.wf_of_rising {α : Type} (m : AMap α) (h : AMap.rising m) : AMap.wf m = true := by
  induction m with
  | nil => rfl
  | cons e t ih =>
    cases t with
    | nil => rfl
    | cons f u =>
      simp only [AMap.wf, Bool.and_eq_true, decide_eq_true_eq]
      exact ⟨h.1 f (List.mem_cons_self ..), ih h.2⟩

theorem AMap.rising_of_wf {α : Type} (m : AMap α) (h : AMap.wf m = true) : AMap.rising m := by
  induction m with
  | nil => trivial
  | cons e t ih =>
    cases t with
    | nil => exact ⟨fun _ hx => (nomatch hx), trivial⟩
    | cons f u =>
      simp only [AMap.wf, Bool.and_eq_true, decide_eq_true_eq] at h
      have hr := ih h.2
      refine ⟨fun x hx => ?_, hr⟩
      rcases List.mem_cons.mp hx with rfl | hu
      · exact h.1
      · exact Nat.lt_trans h.1 (hr.1 x hu)

theorem AMap.mem_set {α : Type} {m : AMap α} {k : Nat} {v : α} {e : Nat × α} (h : e ∈ AMap.set m k v) : e = (k, v) ∨ e ∈ m := by
  induction m with
  | nil => simpa [AMap.set] using h
  | cons x t ih =>
    simp only [AMap.set] at h
    split at h
    · rcases List.mem_cons.mp h with rfl | h
      · exact .inl rfl
      · exact .inr (List.mem_cons_of_mem _ h)
    · split at h
      · rcases List.mem_cons.mp h with rfl | h
        · exact .inl rfl
        · exact .inr h
      · rcases List.mem_cons.mp h with rfl | h
        · exact .inr (List.mem_cons_self ..)
        · rcases ih h with h | h
          · exact .inl h
          · exact .inr (List.mem_cons_of_mem _ h)

theorem AMap.mem_del {α : Type} {m : AMap α} {k : Nat} {e : Nat × α} (h : e ∈ AMap.del m k) : e ∈ m := by
  induction m with
  | nil => simp [AMap.del] at h
  | cons x t ih =>
    simp only [AMap.del] at h
    split at h
    · exact List.mem_cons_of_mem _ h
    · split at h
      · exact h
      · rcases List.mem_cons.mp h with rfl | h
        · exact List.mem_cons_self ..
        · exact List.mem_cons_of_mem _ (ih h)

theorem AMap.rising_set {α : Type} (m : AMap α) (k : Nat) (v : α) (h : AMap.rising m) : AMap.rising (AMap.set m k v) := by
  induction m with
  | nil => exact ⟨fun _ hx => (nomatch hx), trivial⟩
  | cons x t ih =>
    obtain ⟨a, w⟩ := x
    simp only [AMap.set]
    split
    · rename_i e; subst e; exact h
    · split
      · rename_i h1 h2
        refine ⟨fun e he => ?_, h⟩
        rcases List.mem_cons.mp he with rfl | he
        · exact h2
        · exact Nat.lt_trans h2 (h.1 e he)
      · rename_i h1 h2
        refine ⟨fun e he => ?_, ih h.2⟩
        rcases AMap.mem_set he with rfl | he
        · show a < k; omega
        · exact h.1 e he

theorem AMap.rising_del {α : Type} (m : AMap α) (k : Nat) (h : AMap.rising m) : AMap.rising (AMap.del m k) := by
  induction m with
  | nil => trivial
  | cons x t ih =>
    obtain ⟨a, w⟩ := x
    simp only [AMap.del]
    split
    · exact h.2
    · split
      · exact h
      · exact ⟨fun e he => h.1 e (AMap.mem_del he), ih h.2⟩

theorem AMap.rising_filter {α : Type} (m : AMap α) (p : Nat × α → Bool) (h : AMap.rising m) : AMap.rising (m.filter p) := by
  induction m with
  | nil => trivial
  | cons x t ih =>
    rw [List.filter_cons]
    split
    · exact ⟨fun e he => h.1 e (List.mem_filter.mp he).1, ih h.2⟩
    · exact ih h.2

theorem AMap.rising_put {α : Type} [DecidableEq α] (m : AMap α) (k : Nat) (v d : α) (h : AMap.rising m) : AMap.rising (AMap.put m k v d) := by
  unfold AMap.put
  split
  · exact AMap.rising_del m k h
  · exact AMap.rising_set m k v h

/-- A write in which an absent key stands for its default keeps the default unlisted. -/
theorem AMap.clean_put {α : Type} [DecidableEq α] (d : Nat → α) (m : AMap α) (k : Nat) (v : α) (h : AMap.clean d m) :
    AMap.clean d (AMap.put m k v (d k)) := by
  unfold AMap.put
  intro e he
  split at he
  · exact h e (AMap.mem_del he)
  · rename_i hv
    rcases AMap.mem_set he with rfl | he
    · exact hv
    · exact h e he

theorem AMap.clean_filter {α : Type} (d : Nat → α) (m : AMap α) (p : Nat × α → Bool) (h : AMap.clean d m) : AMap.clean d (m.filter p) :=
  fun e he => h e (List.mem_filter.mp he).1

theorem AMap.get_none_of_above {α : Type} (m : AMap α) (k a : Nat) (h : AMap.above a m) (hk : k ≤ a) : AMap.get m k = none := by
  cases m with
  | nil => rfl
  | cons x t =>
    obtain ⟨b, w⟩ := x
    have := h (b, w) (List.mem_cons_self ..)
    simp only [AMap.get]
    rw [if_neg (by omega), if_pos (by omega)]

@[simp] theorem AMap.get_set_self {α : Type} (m : AMap α) (k : Nat) (v : α) : AMap.get (AMap.set m k v) k = some v := by
  induction m with
  | nil => simp [AMap.set, AMap.get]
  | cons x t ih =>
    obtain ⟨a, w⟩ := x
    simp only [AMap.set]
    split
    · simp [AMap.get]
    · split
      · simp [AMap.get]
      · rename_i h1 h2; simp [AMap.get, h1, h2, ih]

theorem AMap.get_set_ne {α : Type} (m : AMap α) (k j : Nat) (v : α) (h : j ≠ k) : AMap.get (AMap.set m k v) j = AMap.get m j := by
  induction m with
  | nil => simp [AMap.set, AMap.get, h]
  | cons x t ih =>
    obtain ⟨a, w⟩ := x
    simp only [AMap.set]
    split
    · rename_i e; subst e; simp [AMap.get, h]
    · split
      · rename_i h1 h2
        by_cases hj : j < k
        · have : j < a := by omega
          have hne : j ≠ a := by omega
          simp [AMap.get, h, hj, this, hne]
        · simp [AMap.get, h, hj]
      · simp only [AMap.get, ih]

theorem AMap.get_del_self {α : Type} (m : AMap α) (k : Nat) (h : AMap.rising m) : AMap.get (AMap.del m k) k = none := by
  induction m with
  | nil => rfl
  | cons x t ih =>
    obtain ⟨a, w⟩ := x
    simp only [AMap.del]
    split
    · rename_i e; subst e; exact AMap.get_none_of_above t k k h.1 (Nat.le_refl _)
    · split
      · rename_i h1 h2; simp [AMap.get, h1, h2]
      · rename_i h1 h2; simp [AMap.get, h1, h2, ih h.2]

theorem AMap.get_del_ne {α : Type} (m : AMap α) (k j : Nat) (hr : AMap.rising m) (h : j ≠ k) : AMap.get (AMap.del m k) j = AMap.get m j := by
  induction m with
  | nil => rfl
  | cons x t ih =>
    obtain ⟨a, w⟩ := x
    simp only [AMap.del]
    split
    · rename_i e; subst e
      by_cases hj : j < k
      · rw [AMap.get_none_of_above t j k hr.1 (by omega)]
        simp [AMap.get, h, hj]
      · simp [AMap.get, h, hj]
    · split
      · rfl
      · simp only [AMap.get, ih hr.2]

theorem AMap.getD_put_self {α : Type} [DecidableEq α] (m : AMap α) (k : Nat) (v d : α) (h : AMap.rising m) :
    AMap.getD (AMap.put m k v d) k d = v := by
  unfold AMap.getD AMap.put
  split
  · rename_i e; rw [AMap.get_del_self m k h, e]; rfl
  · rw [AMap.get_set_self]; rfl

theorem AMap.getD_put_ne {α : Type} [DecidableEq α] (m : AMap α) (k j : Nat) (v d d' : α) (hr : AMap.rising m) (h : j ≠ k) :
    AMap.getD (AMap.put m k v d) j d' = AMap.getD m j d' := by
  unfold AMap.getD AMap.put
  split
  · rw [AMap.get_del_ne m k j hr h]
  · rw [AMap.get_set_ne m k j v h]

end Sys2Proof.Machine
end

