-- ==== Sys2Proof/Laws/Operands.lean ====
section
/-!
SUPPORT. Laws/Operands.lean: reading a field of a word after one has been written.
-/
namespace Sys2Proof.Machine

theorem bit_eq_getLsbD (v : Word) (i : Nat) : bit v i = v.getLsbD i := by
  simp only [bit, BitVec.getLsbD, Nat.testBit, Nat.one_and_eq_mod_two]
  rw [Bool.eq_iff_iff]
  simp only [beq_iff_eq, bne_iff_ne, ne_eq]
  omega

theorem testBit_bits (v : Word) (hi lo j : Nat) : (bits v hi lo).testBit j = (decide (j < hi + 1 - lo) && v.getLsbD (lo + j)) := by
  simp only [bits, Nat.testBit_mod_two_pow, Nat.testBit_shiftRight, BitVec.getLsbD]

theorem getLsbD_maskOf (hi lo i : Nat) : (maskOf hi lo).getLsbD i = (decide (i < 32) && (decide (lo ≤ i) && decide (i < hi + 1))) := by
  simp only [maskOf, BitVec.getLsbD_ofNat, Nat.testBit_shiftLeft, Nat.testBit_two_pow_sub_one]
  by_cases h : lo ≤ i
  · have : (i - lo < hi + 1 - lo) ↔ i < hi + 1 := by omega
    simp [h, this]
  · simp [h]

theorem getLsbD_putBits (v : Word) (hi lo x i : Nat) :
    (putBits v hi lo x).getLsbD i = if i < 32 ∧ lo ≤ i ∧ i ≤ hi then x.testBit (i - lo) else v.getLsbD i := by
  simp only [putBits, BitVec.getLsbD_or, BitVec.getLsbD_and, BitVec.getLsbD_not, getLsbD_maskOf, BitVec.getLsbD_ofNat, Nat.testBit_shiftLeft]
  by_cases h : i < 32
  · by_cases h1 : lo ≤ i <;> by_cases h2 : i ≤ hi <;> simp [h, h1, h2, Nat.lt_succ_iff]
  · have := BitVec.getLsbD_of_ge v i (by omega)
    simp [h, this]

/-- A field reads as what was written to it, cut to its width. -/
theorem bits_putBits_self (v : Word) (hi lo x : Nat) (h : hi < 32) : bits (putBits v hi lo x) hi lo = x % 2 ^ (hi + 1 - lo) := by
  apply Nat.eq_of_testBit_eq
  intro j
  rw [testBit_bits, getLsbD_putBits, Nat.testBit_mod_two_pow]
  by_cases hj : j < hi + 1 - lo
  · rw [if_pos (by omega)]; simp [hj]
  · simp [hj]

/-- A field reads as before after another has been written. -/
theorem bits_putBits_ne (v : Word) (hi lo x hi' lo' : Nat) (h : hi' < lo ∨ hi < lo') : bits (putBits v hi lo x) hi' lo' = bits v hi' lo' := by
  apply Nat.eq_of_testBit_eq
  intro j
  rw [testBit_bits, testBit_bits, getLsbD_putBits]
  by_cases hj : j < hi' + 1 - lo'
  · rw [if_neg (by omega)]
  · simp [hj]

/-- A bit reads as written. -/
theorem bit_putBits_self (v : Word) (i x : Nat) (h : i < 32) : bit (putBits v i i x) i = (x % 2 == 1) := by
  rw [bit_eq_getLsbD, getLsbD_putBits, if_pos (by omega)]
  simp [Nat.testBit_zero]
  rfl

/-- A bit outside the written field reads as before. -/
theorem bit_putBits_ne (v : Word) (hi lo x i : Nat) (h : i < lo ∨ hi < i) : bit (putBits v hi lo x) i = bit v i := by
  rw [bit_eq_getLsbD, bit_eq_getLsbD, getLsbD_putBits, if_neg (by omega)]

end Sys2Proof.Machine
end

