-- ==== Sys2Proof/Laws/State.lean ====
section
/-!
SUPPORT. Laws/State.lean: what each named update of the state leaves alone, field by field, and what the register file reads as after a write.
-/
namespace Sys2Proof.Machine

@[simp] theorem State_wr_pending (s : State) (a : Nat) (v : Word) : (s.wr a v).pending = s.pending := rfl
@[simp] theorem State_wr_dw (s : State) (a : Nat) (v : Word) : (s.wr a v).dw = s.dw := rfl
@[simp] theorem State_wr_keys (s : State) (a : Nat) (v : Word) : (s.wr a v).keys = s.keys := rfl
@[simp] theorem State_wr_latched (s : State) (a : Nat) (v : Word) : (s.wr a v).latched = s.latched := rfl
@[simp] theorem State_wr_busOut (s : State) (a : Nat) (v : Word) : (s.wr a v).busOut = s.busOut := rfl
@[simp] theorem State_wr_busMore (s : State) (a : Nat) (v : Word) : (s.wr a v).busMore = s.busMore := rfl
@[simp] theorem State_wr_fresh (s : State) (a : Nat) (v : Word) : (s.wr a v).fresh = s.fresh := rfl
@[simp] theorem State_wr_sent (s : State) (a : Nat) (v : Word) : (s.wr a v).sent = s.sent := rfl
@[simp] theorem State_wr_elapsed (s : State) (a : Nat) (v : Word) : (s.wr a v).elapsed = s.elapsed := rfl
@[simp] theorem State_wr_held (s : State) (a : Nat) (v : Word) : (s.wr a v).held = s.held := rfl
@[simp] theorem State_wr_wakeNLow (s : State) (a : Nat) (v : Word) : (s.wr a v).wakeNLow = s.wakeNLow := rfl
@[simp] theorem State_wr_irq (s : State) (a : Nat) (v : Word) : (s.wr a v).irq = s.irq := rfl
@[simp] theorem State_wr_pwr (s : State) (a : Nat) (v : Word) : (s.wr a v).pwr = s.pwr := rfl
@[simp] theorem State_wr_hif (s : State) (a : Nat) (v : Word) : (s.wr a v).hif = s.hif := rfl
@[simp] theorem State_wr_clk (s : State) (a : Nat) (v : Word) : (s.wr a v).clk = s.clk := rfl
@[simp] theorem State_wr_sun (s : State) (a : Nat) (v : Word) : (s.wr a v).sun = s.sun := rfl
@[simp] theorem State_wr_mon (s : State) (a : Nat) (v : Word) : (s.wr a v).mon = s.mon := rfl
@[simp] theorem State_wr_tdc (s : State) (a : Nat) (v : Word) : (s.wr a v).tdc = s.tdc := rfl
@[simp] theorem State_wr_gns (s : State) (a : Nat) (v : Word) : (s.wr a v).gns = s.gns := rfl
@[simp] theorem State_wr_tbl (s : State) (a : Nat) (v : Word) : (s.wr a v).tbl = s.tbl := rfl
@[simp] theorem State_wr_sw (s : State) (a : Nat) (v : Word) : (s.wr a v).sw = s.sw := rfl
@[simp] theorem State_wr_plc (s : State) (a : Nat) (v : Word) : (s.wr a v).plc = s.plc := rfl
@[simp] theorem State_wr_cue (s : State) (a : Nat) (v : Word) : (s.wr a v).cue = s.cue := rfl
@[simp] theorem State_wr_nvm (s : State) (a : Nat) (v : Word) : (s.wr a v).nvm = s.nvm := rfl
@[simp] theorem State_wr_ports (s : State) (a : Nat) (v : Word) : (s.wr a v).ports = s.ports := rfl
@[simp] theorem State_wr_lanes (s : State) (a : Nat) (v : Word) : (s.wr a v).lanes = s.lanes := rfl
@[simp] theorem State_wr_upBetter (s : State) (a : Nat) (v : Word) : (s.wr a v).upBetter = s.upBetter := rfl

@[simp] theorem State_setFld_pending (s : State) (a hi lo x : Nat) : (s.setFld a hi lo x).pending = s.pending := State_wr_pending _ _ _
@[simp] theorem State_setFld_dw (s : State) (a hi lo x : Nat) : (s.setFld a hi lo x).dw = s.dw := State_wr_dw _ _ _
@[simp] theorem State_setFld_keys (s : State) (a hi lo x : Nat) : (s.setFld a hi lo x).keys = s.keys := State_wr_keys _ _ _
@[simp] theorem State_setFld_latched (s : State) (a hi lo x : Nat) : (s.setFld a hi lo x).latched = s.latched := State_wr_latched _ _ _
@[simp] theorem State_setFld_busOut (s : State) (a hi lo x : Nat) : (s.setFld a hi lo x).busOut = s.busOut := State_wr_busOut _ _ _
@[simp] theorem State_setFld_busMore (s : State) (a hi lo x : Nat) : (s.setFld a hi lo x).busMore = s.busMore := State_wr_busMore _ _ _
@[simp] theorem State_setFld_fresh (s : State) (a hi lo x : Nat) : (s.setFld a hi lo x).fresh = s.fresh := State_wr_fresh _ _ _
@[simp] theorem State_setFld_sent (s : State) (a hi lo x : Nat) : (s.setFld a hi lo x).sent = s.sent := State_wr_sent _ _ _
@[simp] theorem State_setFld_elapsed (s : State) (a hi lo x : Nat) : (s.setFld a hi lo x).elapsed = s.elapsed := State_wr_elapsed _ _ _
@[simp] theorem State_setFld_held (s : State) (a hi lo x : Nat) : (s.setFld a hi lo x).held = s.held := State_wr_held _ _ _
@[simp] theorem State_setFld_wakeNLow (s : State) (a hi lo x : Nat) : (s.setFld a hi lo x).wakeNLow = s.wakeNLow := State_wr_wakeNLow _ _ _
@[simp] theorem State_setFld_irq (s : State) (a hi lo x : Nat) : (s.setFld a hi lo x).irq = s.irq := State_wr_irq _ _ _
@[simp] theorem State_setFld_pwr (s : State) (a hi lo x : Nat) : (s.setFld a hi lo x).pwr = s.pwr := State_wr_pwr _ _ _
@[simp] theorem State_setFld_hif (s : State) (a hi lo x : Nat) : (s.setFld a hi lo x).hif = s.hif := State_wr_hif _ _ _
@[simp] theorem State_setFld_clk (s : State) (a hi lo x : Nat) : (s.setFld a hi lo x).clk = s.clk := State_wr_clk _ _ _
@[simp] theorem State_setFld_sun (s : State) (a hi lo x : Nat) : (s.setFld a hi lo x).sun = s.sun := State_wr_sun _ _ _
@[simp] theorem State_setFld_mon (s : State) (a hi lo x : Nat) : (s.setFld a hi lo x).mon = s.mon := State_wr_mon _ _ _
@[simp] theorem State_setFld_tdc (s : State) (a hi lo x : Nat) : (s.setFld a hi lo x).tdc = s.tdc := State_wr_tdc _ _ _
@[simp] theorem State_setFld_gns (s : State) (a hi lo x : Nat) : (s.setFld a hi lo x).gns = s.gns := State_wr_gns _ _ _
@[simp] theorem State_setFld_tbl (s : State) (a hi lo x : Nat) : (s.setFld a hi lo x).tbl = s.tbl := State_wr_tbl _ _ _
@[simp] theorem State_setFld_sw (s : State) (a hi lo x : Nat) : (s.setFld a hi lo x).sw = s.sw := State_wr_sw _ _ _
@[simp] theorem State_setFld_plc (s : State) (a hi lo x : Nat) : (s.setFld a hi lo x).plc = s.plc := State_wr_plc _ _ _
@[simp] theorem State_setFld_cue (s : State) (a hi lo x : Nat) : (s.setFld a hi lo x).cue = s.cue := State_wr_cue _ _ _
@[simp] theorem State_setFld_nvm (s : State) (a hi lo x : Nat) : (s.setFld a hi lo x).nvm = s.nvm := State_wr_nvm _ _ _
@[simp] theorem State_setFld_ports (s : State) (a hi lo x : Nat) : (s.setFld a hi lo x).ports = s.ports := State_wr_ports _ _ _
@[simp] theorem State_setFld_lanes (s : State) (a hi lo x : Nat) : (s.setFld a hi lo x).lanes = s.lanes := State_wr_lanes _ _ _
@[simp] theorem State_setFld_upBetter (s : State) (a hi lo x : Nat) : (s.setFld a hi lo x).upBetter = s.upBetter := State_wr_upBetter _ _ _

@[simp] theorem State_setFlag_pending (s : State) (a i : Nat) (b : Bool) : (s.setFlag a i b).pending = s.pending := State_setFld_pending _ _ _ _ _
@[simp] theorem State_setFlag_dw (s : State) (a i : Nat) (b : Bool) : (s.setFlag a i b).dw = s.dw := State_setFld_dw _ _ _ _ _
@[simp] theorem State_setFlag_keys (s : State) (a i : Nat) (b : Bool) : (s.setFlag a i b).keys = s.keys := State_setFld_keys _ _ _ _ _
@[simp] theorem State_setFlag_latched (s : State) (a i : Nat) (b : Bool) : (s.setFlag a i b).latched = s.latched := State_setFld_latched _ _ _ _ _
@[simp] theorem State_setFlag_busOut (s : State) (a i : Nat) (b : Bool) : (s.setFlag a i b).busOut = s.busOut := State_setFld_busOut _ _ _ _ _
@[simp] theorem State_setFlag_busMore (s : State) (a i : Nat) (b : Bool) : (s.setFlag a i b).busMore = s.busMore := State_setFld_busMore _ _ _ _ _
@[simp] theorem State_setFlag_fresh (s : State) (a i : Nat) (b : Bool) : (s.setFlag a i b).fresh = s.fresh := State_setFld_fresh _ _ _ _ _
@[simp] theorem State_setFlag_sent (s : State) (a i : Nat) (b : Bool) : (s.setFlag a i b).sent = s.sent := State_setFld_sent _ _ _ _ _
@[simp] theorem State_setFlag_elapsed (s : State) (a i : Nat) (b : Bool) : (s.setFlag a i b).elapsed = s.elapsed := State_setFld_elapsed _ _ _ _ _
@[simp] theorem State_setFlag_held (s : State) (a i : Nat) (b : Bool) : (s.setFlag a i b).held = s.held := State_setFld_held _ _ _ _ _
@[simp] theorem State_setFlag_wakeNLow (s : State) (a i : Nat) (b : Bool) : (s.setFlag a i b).wakeNLow = s.wakeNLow := State_setFld_wakeNLow _ _ _ _ _
@[simp] theorem State_setFlag_irq (s : State) (a i : Nat) (b : Bool) : (s.setFlag a i b).irq = s.irq := State_setFld_irq _ _ _ _ _
@[simp] theorem State_setFlag_pwr (s : State) (a i : Nat) (b : Bool) : (s.setFlag a i b).pwr = s.pwr := State_setFld_pwr _ _ _ _ _
@[simp] theorem State_setFlag_hif (s : State) (a i : Nat) (b : Bool) : (s.setFlag a i b).hif = s.hif := State_setFld_hif _ _ _ _ _
@[simp] theorem State_setFlag_clk (s : State) (a i : Nat) (b : Bool) : (s.setFlag a i b).clk = s.clk := State_setFld_clk _ _ _ _ _
@[simp] theorem State_setFlag_sun (s : State) (a i : Nat) (b : Bool) : (s.setFlag a i b).sun = s.sun := State_setFld_sun _ _ _ _ _
@[simp] theorem State_setFlag_mon (s : State) (a i : Nat) (b : Bool) : (s.setFlag a i b).mon = s.mon := State_setFld_mon _ _ _ _ _
@[simp] theorem State_setFlag_tdc (s : State) (a i : Nat) (b : Bool) : (s.setFlag a i b).tdc = s.tdc := State_setFld_tdc _ _ _ _ _
@[simp] theorem State_setFlag_gns (s : State) (a i : Nat) (b : Bool) : (s.setFlag a i b).gns = s.gns := State_setFld_gns _ _ _ _ _
@[simp] theorem State_setFlag_tbl (s : State) (a i : Nat) (b : Bool) : (s.setFlag a i b).tbl = s.tbl := State_setFld_tbl _ _ _ _ _
@[simp] theorem State_setFlag_sw (s : State) (a i : Nat) (b : Bool) : (s.setFlag a i b).sw = s.sw := State_setFld_sw _ _ _ _ _
@[simp] theorem State_setFlag_plc (s : State) (a i : Nat) (b : Bool) : (s.setFlag a i b).plc = s.plc := State_setFld_plc _ _ _ _ _
@[simp] theorem State_setFlag_cue (s : State) (a i : Nat) (b : Bool) : (s.setFlag a i b).cue = s.cue := State_setFld_cue _ _ _ _ _
@[simp] theorem State_setFlag_nvm (s : State) (a i : Nat) (b : Bool) : (s.setFlag a i b).nvm = s.nvm := State_setFld_nvm _ _ _ _ _
@[simp] theorem State_setFlag_ports (s : State) (a i : Nat) (b : Bool) : (s.setFlag a i b).ports = s.ports := State_setFld_ports _ _ _ _ _
@[simp] theorem State_setFlag_lanes (s : State) (a i : Nat) (b : Bool) : (s.setFlag a i b).lanes = s.lanes := State_setFld_lanes _ _ _ _ _
@[simp] theorem State_setFlag_upBetter (s : State) (a i : Nat) (b : Bool) : (s.setFlag a i b).upBetter = s.upBetter := State_setFld_upBetter _ _ _ _ _

@[simp] theorem State_orReg_pending (s : State) (a : Nat) (v : Word) : (s.orReg a v).pending = s.pending := State_wr_pending _ _ _
@[simp] theorem State_orReg_dw (s : State) (a : Nat) (v : Word) : (s.orReg a v).dw = s.dw := State_wr_dw _ _ _
@[simp] theorem State_orReg_keys (s : State) (a : Nat) (v : Word) : (s.orReg a v).keys = s.keys := State_wr_keys _ _ _
@[simp] theorem State_orReg_latched (s : State) (a : Nat) (v : Word) : (s.orReg a v).latched = s.latched := State_wr_latched _ _ _
@[simp] theorem State_orReg_busOut (s : State) (a : Nat) (v : Word) : (s.orReg a v).busOut = s.busOut := State_wr_busOut _ _ _
@[simp] theorem State_orReg_busMore (s : State) (a : Nat) (v : Word) : (s.orReg a v).busMore = s.busMore := State_wr_busMore _ _ _
@[simp] theorem State_orReg_fresh (s : State) (a : Nat) (v : Word) : (s.orReg a v).fresh = s.fresh := State_wr_fresh _ _ _
@[simp] theorem State_orReg_sent (s : State) (a : Nat) (v : Word) : (s.orReg a v).sent = s.sent := State_wr_sent _ _ _
@[simp] theorem State_orReg_elapsed (s : State) (a : Nat) (v : Word) : (s.orReg a v).elapsed = s.elapsed := State_wr_elapsed _ _ _
@[simp] theorem State_orReg_held (s : State) (a : Nat) (v : Word) : (s.orReg a v).held = s.held := State_wr_held _ _ _
@[simp] theorem State_orReg_wakeNLow (s : State) (a : Nat) (v : Word) : (s.orReg a v).wakeNLow = s.wakeNLow := State_wr_wakeNLow _ _ _
@[simp] theorem State_orReg_irq (s : State) (a : Nat) (v : Word) : (s.orReg a v).irq = s.irq := State_wr_irq _ _ _
@[simp] theorem State_orReg_pwr (s : State) (a : Nat) (v : Word) : (s.orReg a v).pwr = s.pwr := State_wr_pwr _ _ _
@[simp] theorem State_orReg_hif (s : State) (a : Nat) (v : Word) : (s.orReg a v).hif = s.hif := State_wr_hif _ _ _
@[simp] theorem State_orReg_clk (s : State) (a : Nat) (v : Word) : (s.orReg a v).clk = s.clk := State_wr_clk _ _ _
@[simp] theorem State_orReg_sun (s : State) (a : Nat) (v : Word) : (s.orReg a v).sun = s.sun := State_wr_sun _ _ _
@[simp] theorem State_orReg_mon (s : State) (a : Nat) (v : Word) : (s.orReg a v).mon = s.mon := State_wr_mon _ _ _
@[simp] theorem State_orReg_tdc (s : State) (a : Nat) (v : Word) : (s.orReg a v).tdc = s.tdc := State_wr_tdc _ _ _
@[simp] theorem State_orReg_gns (s : State) (a : Nat) (v : Word) : (s.orReg a v).gns = s.gns := State_wr_gns _ _ _
@[simp] theorem State_orReg_tbl (s : State) (a : Nat) (v : Word) : (s.orReg a v).tbl = s.tbl := State_wr_tbl _ _ _
@[simp] theorem State_orReg_sw (s : State) (a : Nat) (v : Word) : (s.orReg a v).sw = s.sw := State_wr_sw _ _ _
@[simp] theorem State_orReg_plc (s : State) (a : Nat) (v : Word) : (s.orReg a v).plc = s.plc := State_wr_plc _ _ _
@[simp] theorem State_orReg_cue (s : State) (a : Nat) (v : Word) : (s.orReg a v).cue = s.cue := State_wr_cue _ _ _
@[simp] theorem State_orReg_nvm (s : State) (a : Nat) (v : Word) : (s.orReg a v).nvm = s.nvm := State_wr_nvm _ _ _
@[simp] theorem State_orReg_ports (s : State) (a : Nat) (v : Word) : (s.orReg a v).ports = s.ports := State_wr_ports _ _ _
@[simp] theorem State_orReg_lanes (s : State) (a : Nat) (v : Word) : (s.orReg a v).lanes = s.lanes := State_wr_lanes _ _ _
@[simp] theorem State_orReg_upBetter (s : State) (a : Nat) (v : Word) : (s.orReg a v).upBetter = s.upBetter := State_wr_upBetter _ _ _

@[simp] theorem State_clrReg_pending (s : State) (a : Nat) (v : Word) : (s.clrReg a v).pending = s.pending := State_wr_pending _ _ _
@[simp] theorem State_clrReg_dw (s : State) (a : Nat) (v : Word) : (s.clrReg a v).dw = s.dw := State_wr_dw _ _ _
@[simp] theorem State_clrReg_keys (s : State) (a : Nat) (v : Word) : (s.clrReg a v).keys = s.keys := State_wr_keys _ _ _
@[simp] theorem State_clrReg_latched (s : State) (a : Nat) (v : Word) : (s.clrReg a v).latched = s.latched := State_wr_latched _ _ _
@[simp] theorem State_clrReg_busOut (s : State) (a : Nat) (v : Word) : (s.clrReg a v).busOut = s.busOut := State_wr_busOut _ _ _
@[simp] theorem State_clrReg_busMore (s : State) (a : Nat) (v : Word) : (s.clrReg a v).busMore = s.busMore := State_wr_busMore _ _ _
@[simp] theorem State_clrReg_fresh (s : State) (a : Nat) (v : Word) : (s.clrReg a v).fresh = s.fresh := State_wr_fresh _ _ _
@[simp] theorem State_clrReg_sent (s : State) (a : Nat) (v : Word) : (s.clrReg a v).sent = s.sent := State_wr_sent _ _ _
@[simp] theorem State_clrReg_elapsed (s : State) (a : Nat) (v : Word) : (s.clrReg a v).elapsed = s.elapsed := State_wr_elapsed _ _ _
@[simp] theorem State_clrReg_held (s : State) (a : Nat) (v : Word) : (s.clrReg a v).held = s.held := State_wr_held _ _ _
@[simp] theorem State_clrReg_wakeNLow (s : State) (a : Nat) (v : Word) : (s.clrReg a v).wakeNLow = s.wakeNLow := State_wr_wakeNLow _ _ _
@[simp] theorem State_clrReg_irq (s : State) (a : Nat) (v : Word) : (s.clrReg a v).irq = s.irq := State_wr_irq _ _ _
@[simp] theorem State_clrReg_pwr (s : State) (a : Nat) (v : Word) : (s.clrReg a v).pwr = s.pwr := State_wr_pwr _ _ _
@[simp] theorem State_clrReg_hif (s : State) (a : Nat) (v : Word) : (s.clrReg a v).hif = s.hif := State_wr_hif _ _ _
@[simp] theorem State_clrReg_clk (s : State) (a : Nat) (v : Word) : (s.clrReg a v).clk = s.clk := State_wr_clk _ _ _
@[simp] theorem State_clrReg_sun (s : State) (a : Nat) (v : Word) : (s.clrReg a v).sun = s.sun := State_wr_sun _ _ _
@[simp] theorem State_clrReg_mon (s : State) (a : Nat) (v : Word) : (s.clrReg a v).mon = s.mon := State_wr_mon _ _ _
@[simp] theorem State_clrReg_tdc (s : State) (a : Nat) (v : Word) : (s.clrReg a v).tdc = s.tdc := State_wr_tdc _ _ _
@[simp] theorem State_clrReg_gns (s : State) (a : Nat) (v : Word) : (s.clrReg a v).gns = s.gns := State_wr_gns _ _ _
@[simp] theorem State_clrReg_tbl (s : State) (a : Nat) (v : Word) : (s.clrReg a v).tbl = s.tbl := State_wr_tbl _ _ _
@[simp] theorem State_clrReg_sw (s : State) (a : Nat) (v : Word) : (s.clrReg a v).sw = s.sw := State_wr_sw _ _ _
@[simp] theorem State_clrReg_plc (s : State) (a : Nat) (v : Word) : (s.clrReg a v).plc = s.plc := State_wr_plc _ _ _
@[simp] theorem State_clrReg_cue (s : State) (a : Nat) (v : Word) : (s.clrReg a v).cue = s.cue := State_wr_cue _ _ _
@[simp] theorem State_clrReg_nvm (s : State) (a : Nat) (v : Word) : (s.clrReg a v).nvm = s.nvm := State_wr_nvm _ _ _
@[simp] theorem State_clrReg_ports (s : State) (a : Nat) (v : Word) : (s.clrReg a v).ports = s.ports := State_wr_ports _ _ _
@[simp] theorem State_clrReg_lanes (s : State) (a : Nat) (v : Word) : (s.clrReg a v).lanes = s.lanes := State_wr_lanes _ _ _
@[simp] theorem State_clrReg_upBetter (s : State) (a : Nat) (v : Word) : (s.clrReg a v).upBetter = s.upBetter := State_wr_upBetter _ _ _

@[simp] theorem State_count_pending (s : State) (a n : Nat) : (s.count a n).pending = s.pending := State_wr_pending _ _ _
@[simp] theorem State_count_dw (s : State) (a n : Nat) : (s.count a n).dw = s.dw := State_wr_dw _ _ _
@[simp] theorem State_count_keys (s : State) (a n : Nat) : (s.count a n).keys = s.keys := State_wr_keys _ _ _
@[simp] theorem State_count_latched (s : State) (a n : Nat) : (s.count a n).latched = s.latched := State_wr_latched _ _ _
@[simp] theorem State_count_busOut (s : State) (a n : Nat) : (s.count a n).busOut = s.busOut := State_wr_busOut _ _ _
@[simp] theorem State_count_busMore (s : State) (a n : Nat) : (s.count a n).busMore = s.busMore := State_wr_busMore _ _ _
@[simp] theorem State_count_fresh (s : State) (a n : Nat) : (s.count a n).fresh = s.fresh := State_wr_fresh _ _ _
@[simp] theorem State_count_sent (s : State) (a n : Nat) : (s.count a n).sent = s.sent := State_wr_sent _ _ _
@[simp] theorem State_count_elapsed (s : State) (a n : Nat) : (s.count a n).elapsed = s.elapsed := State_wr_elapsed _ _ _
@[simp] theorem State_count_held (s : State) (a n : Nat) : (s.count a n).held = s.held := State_wr_held _ _ _
@[simp] theorem State_count_wakeNLow (s : State) (a n : Nat) : (s.count a n).wakeNLow = s.wakeNLow := State_wr_wakeNLow _ _ _
@[simp] theorem State_count_irq (s : State) (a n : Nat) : (s.count a n).irq = s.irq := State_wr_irq _ _ _
@[simp] theorem State_count_pwr (s : State) (a n : Nat) : (s.count a n).pwr = s.pwr := State_wr_pwr _ _ _
@[simp] theorem State_count_hif (s : State) (a n : Nat) : (s.count a n).hif = s.hif := State_wr_hif _ _ _
@[simp] theorem State_count_clk (s : State) (a n : Nat) : (s.count a n).clk = s.clk := State_wr_clk _ _ _
@[simp] theorem State_count_sun (s : State) (a n : Nat) : (s.count a n).sun = s.sun := State_wr_sun _ _ _
@[simp] theorem State_count_mon (s : State) (a n : Nat) : (s.count a n).mon = s.mon := State_wr_mon _ _ _
@[simp] theorem State_count_tdc (s : State) (a n : Nat) : (s.count a n).tdc = s.tdc := State_wr_tdc _ _ _
@[simp] theorem State_count_gns (s : State) (a n : Nat) : (s.count a n).gns = s.gns := State_wr_gns _ _ _
@[simp] theorem State_count_tbl (s : State) (a n : Nat) : (s.count a n).tbl = s.tbl := State_wr_tbl _ _ _
@[simp] theorem State_count_sw (s : State) (a n : Nat) : (s.count a n).sw = s.sw := State_wr_sw _ _ _
@[simp] theorem State_count_plc (s : State) (a n : Nat) : (s.count a n).plc = s.plc := State_wr_plc _ _ _
@[simp] theorem State_count_cue (s : State) (a n : Nat) : (s.count a n).cue = s.cue := State_wr_cue _ _ _
@[simp] theorem State_count_nvm (s : State) (a n : Nat) : (s.count a n).nvm = s.nvm := State_wr_nvm _ _ _
@[simp] theorem State_count_ports (s : State) (a n : Nat) : (s.count a n).ports = s.ports := State_wr_ports _ _ _
@[simp] theorem State_count_lanes (s : State) (a n : Nat) : (s.count a n).lanes = s.lanes := State_wr_lanes _ _ _
@[simp] theorem State_count_upBetter (s : State) (a n : Nat) : (s.count a n).upBetter = s.upBetter := State_wr_upBetter _ _ _

@[simp] theorem State_wr64_pending (s : State) (a n : Nat) : (s.wr64 a n).pending = s.pending := (State_wr_pending _ _ _).trans (State_wr_pending _ _ _)
@[simp] theorem State_wr64_dw (s : State) (a n : Nat) : (s.wr64 a n).dw = s.dw := (State_wr_dw _ _ _).trans (State_wr_dw _ _ _)
@[simp] theorem State_wr64_keys (s : State) (a n : Nat) : (s.wr64 a n).keys = s.keys := (State_wr_keys _ _ _).trans (State_wr_keys _ _ _)
@[simp] theorem State_wr64_latched (s : State) (a n : Nat) : (s.wr64 a n).latched = s.latched := (State_wr_latched _ _ _).trans (State_wr_latched _ _ _)
@[simp] theorem State_wr64_busOut (s : State) (a n : Nat) : (s.wr64 a n).busOut = s.busOut := (State_wr_busOut _ _ _).trans (State_wr_busOut _ _ _)
@[simp] theorem State_wr64_busMore (s : State) (a n : Nat) : (s.wr64 a n).busMore = s.busMore := (State_wr_busMore _ _ _).trans (State_wr_busMore _ _ _)
@[simp] theorem State_wr64_fresh (s : State) (a n : Nat) : (s.wr64 a n).fresh = s.fresh := (State_wr_fresh _ _ _).trans (State_wr_fresh _ _ _)
@[simp] theorem State_wr64_sent (s : State) (a n : Nat) : (s.wr64 a n).sent = s.sent := (State_wr_sent _ _ _).trans (State_wr_sent _ _ _)
@[simp] theorem State_wr64_elapsed (s : State) (a n : Nat) : (s.wr64 a n).elapsed = s.elapsed := (State_wr_elapsed _ _ _).trans (State_wr_elapsed _ _ _)
@[simp] theorem State_wr64_held (s : State) (a n : Nat) : (s.wr64 a n).held = s.held := (State_wr_held _ _ _).trans (State_wr_held _ _ _)
@[simp] theorem State_wr64_wakeNLow (s : State) (a n : Nat) : (s.wr64 a n).wakeNLow = s.wakeNLow := (State_wr_wakeNLow _ _ _).trans (State_wr_wakeNLow _ _ _)
@[simp] theorem State_wr64_irq (s : State) (a n : Nat) : (s.wr64 a n).irq = s.irq := (State_wr_irq _ _ _).trans (State_wr_irq _ _ _)
@[simp] theorem State_wr64_pwr (s : State) (a n : Nat) : (s.wr64 a n).pwr = s.pwr := (State_wr_pwr _ _ _).trans (State_wr_pwr _ _ _)
@[simp] theorem State_wr64_hif (s : State) (a n : Nat) : (s.wr64 a n).hif = s.hif := (State_wr_hif _ _ _).trans (State_wr_hif _ _ _)
@[simp] theorem State_wr64_clk (s : State) (a n : Nat) : (s.wr64 a n).clk = s.clk := (State_wr_clk _ _ _).trans (State_wr_clk _ _ _)
@[simp] theorem State_wr64_sun (s : State) (a n : Nat) : (s.wr64 a n).sun = s.sun := (State_wr_sun _ _ _).trans (State_wr_sun _ _ _)
@[simp] theorem State_wr64_mon (s : State) (a n : Nat) : (s.wr64 a n).mon = s.mon := (State_wr_mon _ _ _).trans (State_wr_mon _ _ _)
@[simp] theorem State_wr64_tdc (s : State) (a n : Nat) : (s.wr64 a n).tdc = s.tdc := (State_wr_tdc _ _ _).trans (State_wr_tdc _ _ _)
@[simp] theorem State_wr64_gns (s : State) (a n : Nat) : (s.wr64 a n).gns = s.gns := (State_wr_gns _ _ _).trans (State_wr_gns _ _ _)
@[simp] theorem State_wr64_tbl (s : State) (a n : Nat) : (s.wr64 a n).tbl = s.tbl := (State_wr_tbl _ _ _).trans (State_wr_tbl _ _ _)
@[simp] theorem State_wr64_sw (s : State) (a n : Nat) : (s.wr64 a n).sw = s.sw := (State_wr_sw _ _ _).trans (State_wr_sw _ _ _)
@[simp] theorem State_wr64_plc (s : State) (a n : Nat) : (s.wr64 a n).plc = s.plc := (State_wr_plc _ _ _).trans (State_wr_plc _ _ _)
@[simp] theorem State_wr64_cue (s : State) (a n : Nat) : (s.wr64 a n).cue = s.cue := (State_wr_cue _ _ _).trans (State_wr_cue _ _ _)
@[simp] theorem State_wr64_nvm (s : State) (a n : Nat) : (s.wr64 a n).nvm = s.nvm := (State_wr_nvm _ _ _).trans (State_wr_nvm _ _ _)
@[simp] theorem State_wr64_ports (s : State) (a n : Nat) : (s.wr64 a n).ports = s.ports := (State_wr_ports _ _ _).trans (State_wr_ports _ _ _)
@[simp] theorem State_wr64_lanes (s : State) (a n : Nat) : (s.wr64 a n).lanes = s.lanes := (State_wr_lanes _ _ _).trans (State_wr_lanes _ _ _)
@[simp] theorem State_wr64_upBetter (s : State) (a n : Nat) : (s.wr64 a n).upBetter = s.upBetter := (State_wr_upBetter _ _ _).trans (State_wr_upBetter _ _ _)

@[simp] theorem State_count64_pending (s : State) (a n : Nat) : (s.count64 a n).pending = s.pending := State_wr64_pending _ _ _
@[simp] theorem State_count64_dw (s : State) (a n : Nat) : (s.count64 a n).dw = s.dw := State_wr64_dw _ _ _
@[simp] theorem State_count64_keys (s : State) (a n : Nat) : (s.count64 a n).keys = s.keys := State_wr64_keys _ _ _
@[simp] theorem State_count64_latched (s : State) (a n : Nat) : (s.count64 a n).latched = s.latched := State_wr64_latched _ _ _
@[simp] theorem State_count64_busOut (s : State) (a n : Nat) : (s.count64 a n).busOut = s.busOut := State_wr64_busOut _ _ _
@[simp] theorem State_count64_busMore (s : State) (a n : Nat) : (s.count64 a n).busMore = s.busMore := State_wr64_busMore _ _ _
@[simp] theorem State_count64_fresh (s : State) (a n : Nat) : (s.count64 a n).fresh = s.fresh := State_wr64_fresh _ _ _
@[simp] theorem State_count64_sent (s : State) (a n : Nat) : (s.count64 a n).sent = s.sent := State_wr64_sent _ _ _
@[simp] theorem State_count64_elapsed (s : State) (a n : Nat) : (s.count64 a n).elapsed = s.elapsed := State_wr64_elapsed _ _ _
@[simp] theorem State_count64_held (s : State) (a n : Nat) : (s.count64 a n).held = s.held := State_wr64_held _ _ _
@[simp] theorem State_count64_wakeNLow (s : State) (a n : Nat) : (s.count64 a n).wakeNLow = s.wakeNLow := State_wr64_wakeNLow _ _ _
@[simp] theorem State_count64_irq (s : State) (a n : Nat) : (s.count64 a n).irq = s.irq := State_wr64_irq _ _ _
@[simp] theorem State_count64_pwr (s : State) (a n : Nat) : (s.count64 a n).pwr = s.pwr := State_wr64_pwr _ _ _
@[simp] theorem State_count64_hif (s : State) (a n : Nat) : (s.count64 a n).hif = s.hif := State_wr64_hif _ _ _
@[simp] theorem State_count64_clk (s : State) (a n : Nat) : (s.count64 a n).clk = s.clk := State_wr64_clk _ _ _
@[simp] theorem State_count64_sun (s : State) (a n : Nat) : (s.count64 a n).sun = s.sun := State_wr64_sun _ _ _
@[simp] theorem State_count64_mon (s : State) (a n : Nat) : (s.count64 a n).mon = s.mon := State_wr64_mon _ _ _
@[simp] theorem State_count64_tdc (s : State) (a n : Nat) : (s.count64 a n).tdc = s.tdc := State_wr64_tdc _ _ _
@[simp] theorem State_count64_gns (s : State) (a n : Nat) : (s.count64 a n).gns = s.gns := State_wr64_gns _ _ _
@[simp] theorem State_count64_tbl (s : State) (a n : Nat) : (s.count64 a n).tbl = s.tbl := State_wr64_tbl _ _ _
@[simp] theorem State_count64_sw (s : State) (a n : Nat) : (s.count64 a n).sw = s.sw := State_wr64_sw _ _ _
@[simp] theorem State_count64_plc (s : State) (a n : Nat) : (s.count64 a n).plc = s.plc := State_wr64_plc _ _ _
@[simp] theorem State_count64_cue (s : State) (a n : Nat) : (s.count64 a n).cue = s.cue := State_wr64_cue _ _ _
@[simp] theorem State_count64_nvm (s : State) (a n : Nat) : (s.count64 a n).nvm = s.nvm := State_wr64_nvm _ _ _
@[simp] theorem State_count64_ports (s : State) (a n : Nat) : (s.count64 a n).ports = s.ports := State_wr64_ports _ _ _
@[simp] theorem State_count64_lanes (s : State) (a n : Nat) : (s.count64 a n).lanes = s.lanes := State_wr64_lanes _ _ _
@[simp] theorem State_count64_upBetter (s : State) (a n : Nat) : (s.count64 a n).upBetter = s.upBetter := State_wr64_upBetter _ _ _

@[simp] theorem State_emit_pending (s : State) (o : Output) : (s.emit o).pending = s.pending := rfl
@[simp] theorem State_emit_regs (s : State) (o : Output) : (s.emit o).regs = s.regs := rfl
@[simp] theorem State_emit_dw (s : State) (o : Output) : (s.emit o).dw = s.dw := rfl
@[simp] theorem State_emit_keys (s : State) (o : Output) : (s.emit o).keys = s.keys := rfl
@[simp] theorem State_emit_latched (s : State) (o : Output) : (s.emit o).latched = s.latched := rfl
@[simp] theorem State_emit_busOut (s : State) (o : Output) : (s.emit o).busOut = s.busOut := rfl
@[simp] theorem State_emit_busMore (s : State) (o : Output) : (s.emit o).busMore = s.busMore := rfl
@[simp] theorem State_emit_fresh (s : State) (o : Output) : (s.emit o).fresh = s.fresh := rfl
@[simp] theorem State_emit_elapsed (s : State) (o : Output) : (s.emit o).elapsed = s.elapsed := rfl
@[simp] theorem State_emit_held (s : State) (o : Output) : (s.emit o).held = s.held := rfl
@[simp] theorem State_emit_wakeNLow (s : State) (o : Output) : (s.emit o).wakeNLow = s.wakeNLow := rfl
@[simp] theorem State_emit_irq (s : State) (o : Output) : (s.emit o).irq = s.irq := rfl
@[simp] theorem State_emit_pwr (s : State) (o : Output) : (s.emit o).pwr = s.pwr := rfl
@[simp] theorem State_emit_hif (s : State) (o : Output) : (s.emit o).hif = s.hif := rfl
@[simp] theorem State_emit_clk (s : State) (o : Output) : (s.emit o).clk = s.clk := rfl
@[simp] theorem State_emit_sun (s : State) (o : Output) : (s.emit o).sun = s.sun := rfl
@[simp] theorem State_emit_mon (s : State) (o : Output) : (s.emit o).mon = s.mon := rfl
@[simp] theorem State_emit_tdc (s : State) (o : Output) : (s.emit o).tdc = s.tdc := rfl
@[simp] theorem State_emit_gns (s : State) (o : Output) : (s.emit o).gns = s.gns := rfl
@[simp] theorem State_emit_tbl (s : State) (o : Output) : (s.emit o).tbl = s.tbl := rfl
@[simp] theorem State_emit_sw (s : State) (o : Output) : (s.emit o).sw = s.sw := rfl
@[simp] theorem State_emit_plc (s : State) (o : Output) : (s.emit o).plc = s.plc := rfl
@[simp] theorem State_emit_cue (s : State) (o : Output) : (s.emit o).cue = s.cue := rfl
@[simp] theorem State_emit_nvm (s : State) (o : Output) : (s.emit o).nvm = s.nvm := rfl
@[simp] theorem State_emit_ports (s : State) (o : Output) : (s.emit o).ports = s.ports := rfl
@[simp] theorem State_emit_lanes (s : State) (o : Output) : (s.emit o).lanes = s.lanes := rfl
@[simp] theorem State_emit_upBetter (s : State) (o : Output) : (s.emit o).upBetter = s.upBetter := rfl

@[simp] theorem State_drawn_pending (s : State) : (s.drawn).pending = s.pending := rfl
@[simp] theorem State_drawn_regs (s : State) : (s.drawn).regs = s.regs := rfl
@[simp] theorem State_drawn_dw (s : State) : (s.drawn).dw = s.dw := rfl
@[simp] theorem State_drawn_keys (s : State) : (s.drawn).keys = s.keys := rfl
@[simp] theorem State_drawn_latched (s : State) : (s.drawn).latched = s.latched := rfl
@[simp] theorem State_drawn_busOut (s : State) : (s.drawn).busOut = s.busOut := rfl
@[simp] theorem State_drawn_busMore (s : State) : (s.drawn).busMore = s.busMore := rfl
@[simp] theorem State_drawn_sent (s : State) : (s.drawn).sent = s.sent := rfl
@[simp] theorem State_drawn_elapsed (s : State) : (s.drawn).elapsed = s.elapsed := rfl
@[simp] theorem State_drawn_held (s : State) : (s.drawn).held = s.held := rfl
@[simp] theorem State_drawn_wakeNLow (s : State) : (s.drawn).wakeNLow = s.wakeNLow := rfl
@[simp] theorem State_drawn_irq (s : State) : (s.drawn).irq = s.irq := rfl
@[simp] theorem State_drawn_pwr (s : State) : (s.drawn).pwr = s.pwr := rfl
@[simp] theorem State_drawn_hif (s : State) : (s.drawn).hif = s.hif := rfl
@[simp] theorem State_drawn_clk (s : State) : (s.drawn).clk = s.clk := rfl
@[simp] theorem State_drawn_sun (s : State) : (s.drawn).sun = s.sun := rfl
@[simp] theorem State_drawn_mon (s : State) : (s.drawn).mon = s.mon := rfl
@[simp] theorem State_drawn_tdc (s : State) : (s.drawn).tdc = s.tdc := rfl
@[simp] theorem State_drawn_gns (s : State) : (s.drawn).gns = s.gns := rfl
@[simp] theorem State_drawn_tbl (s : State) : (s.drawn).tbl = s.tbl := rfl
@[simp] theorem State_drawn_sw (s : State) : (s.drawn).sw = s.sw := rfl
@[simp] theorem State_drawn_plc (s : State) : (s.drawn).plc = s.plc := rfl
@[simp] theorem State_drawn_cue (s : State) : (s.drawn).cue = s.cue := rfl
@[simp] theorem State_drawn_nvm (s : State) : (s.drawn).nvm = s.nvm := rfl
@[simp] theorem State_drawn_ports (s : State) : (s.drawn).ports = s.ports := rfl
@[simp] theorem State_drawn_lanes (s : State) : (s.drawn).lanes = s.lanes := rfl
@[simp] theorem State_drawn_upBetter (s : State) : (s.drawn).upBetter = s.upBetter := rfl

@[simp] theorem setPortRec_pending (s : State) (p : Nat) (x : PortSt) : (setPortRec s p x).pending = s.pending := rfl
@[simp] theorem setPortRec_regs (s : State) (p : Nat) (x : PortSt) : (setPortRec s p x).regs = s.regs := rfl
@[simp] theorem setPortRec_dw (s : State) (p : Nat) (x : PortSt) : (setPortRec s p x).dw = s.dw := rfl
@[simp] theorem setPortRec_keys (s : State) (p : Nat) (x : PortSt) : (setPortRec s p x).keys = s.keys := rfl
@[simp] theorem setPortRec_latched (s : State) (p : Nat) (x : PortSt) : (setPortRec s p x).latched = s.latched := rfl
@[simp] theorem setPortRec_busOut (s : State) (p : Nat) (x : PortSt) : (setPortRec s p x).busOut = s.busOut := rfl
@[simp] theorem setPortRec_busMore (s : State) (p : Nat) (x : PortSt) : (setPortRec s p x).busMore = s.busMore := rfl
@[simp] theorem setPortRec_fresh (s : State) (p : Nat) (x : PortSt) : (setPortRec s p x).fresh = s.fresh := rfl
@[simp] theorem setPortRec_sent (s : State) (p : Nat) (x : PortSt) : (setPortRec s p x).sent = s.sent := rfl
@[simp] theorem setPortRec_elapsed (s : State) (p : Nat) (x : PortSt) : (setPortRec s p x).elapsed = s.elapsed := rfl
@[simp] theorem setPortRec_held (s : State) (p : Nat) (x : PortSt) : (setPortRec s p x).held = s.held := rfl
@[simp] theorem setPortRec_wakeNLow (s : State) (p : Nat) (x : PortSt) : (setPortRec s p x).wakeNLow = s.wakeNLow := rfl
@[simp] theorem setPortRec_irq (s : State) (p : Nat) (x : PortSt) : (setPortRec s p x).irq = s.irq := rfl
@[simp] theorem setPortRec_pwr (s : State) (p : Nat) (x : PortSt) : (setPortRec s p x).pwr = s.pwr := rfl
@[simp] theorem setPortRec_hif (s : State) (p : Nat) (x : PortSt) : (setPortRec s p x).hif = s.hif := rfl
@[simp] theorem setPortRec_clk (s : State) (p : Nat) (x : PortSt) : (setPortRec s p x).clk = s.clk := rfl
@[simp] theorem setPortRec_sun (s : State) (p : Nat) (x : PortSt) : (setPortRec s p x).sun = s.sun := rfl
@[simp] theorem setPortRec_mon (s : State) (p : Nat) (x : PortSt) : (setPortRec s p x).mon = s.mon := rfl
@[simp] theorem setPortRec_tdc (s : State) (p : Nat) (x : PortSt) : (setPortRec s p x).tdc = s.tdc := rfl
@[simp] theorem setPortRec_gns (s : State) (p : Nat) (x : PortSt) : (setPortRec s p x).gns = s.gns := rfl
@[simp] theorem setPortRec_tbl (s : State) (p : Nat) (x : PortSt) : (setPortRec s p x).tbl = s.tbl := rfl
@[simp] theorem setPortRec_sw (s : State) (p : Nat) (x : PortSt) : (setPortRec s p x).sw = s.sw := rfl
@[simp] theorem setPortRec_plc (s : State) (p : Nat) (x : PortSt) : (setPortRec s p x).plc = s.plc := rfl
@[simp] theorem setPortRec_cue (s : State) (p : Nat) (x : PortSt) : (setPortRec s p x).cue = s.cue := rfl
@[simp] theorem setPortRec_nvm (s : State) (p : Nat) (x : PortSt) : (setPortRec s p x).nvm = s.nvm := rfl
@[simp] theorem setPortRec_lanes (s : State) (p : Nat) (x : PortSt) : (setPortRec s p x).lanes = s.lanes := rfl
@[simp] theorem setPortRec_upBetter (s : State) (p : Nat) (x : PortSt) : (setPortRec s p x).upBetter = s.upBetter := rfl

@[simp] theorem setLaneRec_pending (s : State) (l : Nat) (x : LaneSt) : (setLaneRec s l x).pending = s.pending := rfl
@[simp] theorem setLaneRec_regs (s : State) (l : Nat) (x : LaneSt) : (setLaneRec s l x).regs = s.regs := rfl
@[simp] theorem setLaneRec_dw (s : State) (l : Nat) (x : LaneSt) : (setLaneRec s l x).dw = s.dw := rfl
@[simp] theorem setLaneRec_keys (s : State) (l : Nat) (x : LaneSt) : (setLaneRec s l x).keys = s.keys := rfl
@[simp] theorem setLaneRec_latched (s : State) (l : Nat) (x : LaneSt) : (setLaneRec s l x).latched = s.latched := rfl
@[simp] theorem setLaneRec_busOut (s : State) (l : Nat) (x : LaneSt) : (setLaneRec s l x).busOut = s.busOut := rfl
@[simp] theorem setLaneRec_busMore (s : State) (l : Nat) (x : LaneSt) : (setLaneRec s l x).busMore = s.busMore := rfl
@[simp] theorem setLaneRec_fresh (s : State) (l : Nat) (x : LaneSt) : (setLaneRec s l x).fresh = s.fresh := rfl
@[simp] theorem setLaneRec_sent (s : State) (l : Nat) (x : LaneSt) : (setLaneRec s l x).sent = s.sent := rfl
@[simp] theorem setLaneRec_elapsed (s : State) (l : Nat) (x : LaneSt) : (setLaneRec s l x).elapsed = s.elapsed := rfl
@[simp] theorem setLaneRec_held (s : State) (l : Nat) (x : LaneSt) : (setLaneRec s l x).held = s.held := rfl
@[simp] theorem setLaneRec_wakeNLow (s : State) (l : Nat) (x : LaneSt) : (setLaneRec s l x).wakeNLow = s.wakeNLow := rfl
@[simp] theorem setLaneRec_irq (s : State) (l : Nat) (x : LaneSt) : (setLaneRec s l x).irq = s.irq := rfl
@[simp] theorem setLaneRec_pwr (s : State) (l : Nat) (x : LaneSt) : (setLaneRec s l x).pwr = s.pwr := rfl
@[simp] theorem setLaneRec_hif (s : State) (l : Nat) (x : LaneSt) : (setLaneRec s l x).hif = s.hif := rfl
@[simp] theorem setLaneRec_clk (s : State) (l : Nat) (x : LaneSt) : (setLaneRec s l x).clk = s.clk := rfl
@[simp] theorem setLaneRec_sun (s : State) (l : Nat) (x : LaneSt) : (setLaneRec s l x).sun = s.sun := rfl
@[simp] theorem setLaneRec_mon (s : State) (l : Nat) (x : LaneSt) : (setLaneRec s l x).mon = s.mon := rfl
@[simp] theorem setLaneRec_tdc (s : State) (l : Nat) (x : LaneSt) : (setLaneRec s l x).tdc = s.tdc := rfl
@[simp] theorem setLaneRec_gns (s : State) (l : Nat) (x : LaneSt) : (setLaneRec s l x).gns = s.gns := rfl
@[simp] theorem setLaneRec_tbl (s : State) (l : Nat) (x : LaneSt) : (setLaneRec s l x).tbl = s.tbl := rfl
@[simp] theorem setLaneRec_sw (s : State) (l : Nat) (x : LaneSt) : (setLaneRec s l x).sw = s.sw := rfl
@[simp] theorem setLaneRec_plc (s : State) (l : Nat) (x : LaneSt) : (setLaneRec s l x).plc = s.plc := rfl
@[simp] theorem setLaneRec_cue (s : State) (l : Nat) (x : LaneSt) : (setLaneRec s l x).cue = s.cue := rfl
@[simp] theorem setLaneRec_nvm (s : State) (l : Nat) (x : LaneSt) : (setLaneRec s l x).nvm = s.nvm := rfl
@[simp] theorem setLaneRec_ports (s : State) (l : Nat) (x : LaneSt) : (setLaneRec s l x).ports = s.ports := rfl
@[simp] theorem setLaneRec_upBetter (s : State) (l : Nat) (x : LaneSt) : (setLaneRec s l x).upBetter = s.upBetter := rfl

@[simp] theorem State_emit_sent (s : State) (o : Output) : (s.emit o).sent = o :: s.sent := rfl
@[simp] theorem State_drawn_fresh (s : State) : s.drawn.fresh = s.fresh + 1 := rfl
@[simp] theorem State_emit_rd (s : State) (o : Output) (a : Nat) : (s.emit o).rd a = s.rd a := rfl
@[simp] theorem State_drawn_rd (s : State) (a : Nat) : s.drawn.rd a = s.rd a := rfl

/-- A write keeps the register file's canonical form. -/
theorem regsCanonical_wr {s : State} (h : s.regsCanonical) (a : Nat) (v : Word) : (s.wr a v).regsCanonical :=
  ⟨AMap.wf_of_rising _ (AMap.rising_put _ _ _ _ (AMap.rising_of_wf _ h.1)), AMap.clean_put resetOf _ _ _ h.2⟩

/-- A register reads as written. -/
theorem rd_wr_self {s : State} (h : s.regsCanonical) (a : Nat) (v : Word) : (s.wr a v).rd a = v :=
  AMap.getD_put_self _ _ _ _ (AMap.rising_of_wf _ h.1)

/-- Every other register reads as before. -/
theorem rd_wr_ne {s : State} (h : s.regsCanonical) {a b : Nat} (v : Word) (hb : b ≠ a) : (s.wr a v).rd b = s.rd b :=
  AMap.getD_put_ne _ _ _ _ _ _ (AMap.rising_of_wf _ h.1) hb

/-- A field reads as written, cut to its width. -/
theorem fld_setFld_self {s : State} (h : s.regsCanonical) (a hi lo x : Nat) (hh : hi < 32) : (s.setFld a hi lo x).fld a hi lo = x % 2 ^ (hi + 1 - lo) := by
  rw [State.fld, State.setFld, rd_wr_self h, bits_putBits_self _ _ _ _ hh]

/-- A bit reads as written. -/
theorem flag_setFlag_self {s : State} (h : s.regsCanonical) (a i : Nat) (b : Bool) (hi : i < 32) : (s.setFlag a i b).flag a i = b := by
  rw [State.flag, State.setFlag, State.setFld, rd_wr_self h, bit_putBits_self _ _ _ hi]
  cases b <;> rfl

/-- A bit of the same register outside the written one reads as before. -/
theorem flag_setFlag_ne {s : State} (h : s.regsCanonical) (a i j : Nat) (b : Bool) (hj : j ≠ i) : (s.setFlag a i b).flag a j = s.flag a j := by
  rw [State.flag, State.setFlag, State.setFld, rd_wr_self h, bit_putBits_ne _ _ _ _ _ (by omega)]
  rfl

/-- A field, or a bit, of another register reads as before. -/
theorem fld_wr_ne {s : State} (h : s.regsCanonical) {a b : Nat} (v : Word) (hi lo : Nat) (hb : b ≠ a) : (s.wr a v).fld b hi lo = s.fld b hi lo := by
  rw [State.fld, State.fld, rd_wr_ne h v hb]

theorem flag_wr_ne {s : State} (h : s.regsCanonical) {a b : Nat} (v : Word) (i : Nat) (hb : b ≠ a) : (s.wr a v).flag b i = s.flag b i := by
  rw [State.flag, State.flag, rd_wr_ne h v hb]

theorem join_halves (n : Nat) (h : n < 2 ^ 64) : join (hiHalf n) (loHalf n) = n := by
  simp only [join, hiHalf, loHalf, BitVec.toNat_ofNat, Nat.shiftRight_eq_div_pow]
  omega

/-- A register pair reads as written. -/
theorem rd64_wr64_self {s : State} (h : s.regsCanonical) (a n : Nat) (hn : n < 2 ^ 64) : (s.wr64 a n).rd64 a = n := by
  rw [State.rd64, State.wr64, rd_wr_self (regsCanonical_wr h _ _), rd_wr_ne (regsCanonical_wr h _ _) _ (by omega), rd_wr_self h, join_halves n hn]

/-- Every register outside the pair reads as before. -/
theorem rd_wr64_ne {s : State} (h : s.regsCanonical) {a b : Nat} (n : Nat) (h0 : b ≠ a) (h4 : b ≠ a + 4) : (s.wr64 a n).rd b = s.rd b := by
  rw [State.wr64, rd_wr_ne (regsCanonical_wr h _ _) _ h4, rd_wr_ne h _ h0]

end Sys2Proof.Machine
end

