-- ==== Sys2Proof/Laws/Bus.lean ====
section
/-!
SUPPORT. Laws/Bus.lean: what a register access comes to once its address is decoded.
-/
namespace Sys2Proof.Machine

theorem regOf_resolve {a : Nat} {x : Reg} (h : regOf a = some x) : resolve a = some (x.b, x.o) ∧ regAt x.b x.o = some ⟨x.row, x.i, x.j⟩ := by
  unfold regOf at h
  cases hr : resolve a with
  | none => simp [hr] at h
  | some p =>
    obtain ⟨b, o⟩ := p
    simp only [hr, Option.map_eq_some_iff] at h
    obtain ⟨f, hf, rfl⟩ := h
    exact ⟨rfl, hf⟩

/-- A full-width access to a register, by a master that acts, is a write of that register, and then it is counted. -/
theorem busWrite_full {s : State} {m : Master} {a : Nat} {v : Word} {x : Reg} {p : Bool} (hm : masterActs s m = true) (h4 : a % 4 = 0)
    (h : regOf a = some x) : busWrite s m 0xF a v p = counted (writeReg s m x v p (ownAddr a)) m a := by
  obtain ⟨h1, h2⟩ := regOf_resolve h
  simp [busWrite, writeAt, hm, h1, h4, h2]

/-- A plain write that passes every check stores its word and has its chapter's effect. -/
theorem busWrite_taken {s : State} {m : Master} {a : Nat} {v : Word} {x : Reg} (hm : masterActs s m = true) (h4 : a % 4 = 0) (h : regOf a = some x)
    (hc : x.row.cls = .rw ∨ x.row.cls = .w1c ∨ x.row.cls = .set ∨ x.row.cls = .clr) (hw : writeCode s m x v false = 0) :
    busWrite s m 0xF a v false = counted (useKey (storeWrite s m x v) m x) m a := by
  rw [busWrite_full hm h4 h]
  unfold writeReg
  obtain hp | hp | hp | hp := hc <;> simp [hp, hw]

/-- One that fails a check latches its code and stores nothing. -/
theorem busWrite_refused {s : State} {m : Master} {a : Nat} {v : Word} {x : Reg} {p : Bool} {c : Nat} (hm : masterActs s m = true) (h4 : a % 4 = 0)
    (h : regOf a = some x) (hc : x.row.cls = .rw ∨ x.row.cls = .w1c ∨ x.row.cls = .set ∨ x.row.cls = .clr)
    (hw : writeCode s m x v p = c) (h0 : c ≠ 0) :
    busWrite s m 0xF a v p = counted (refuse (useKey s m x) m x.b c x.o (ownAddr a)) m a := by
  rw [busWrite_full hm h4 h]
  unfold writeReg
  obtain hp | hp | hp | hp := hc <;> simp [hp, hw, h0]

/-- A read of a register returns its view, has its effect, and then is counted. -/
theorem busRead_reg {s : State} {m : Master} {be : BitVec 4} {a : Nat} {x : Reg} (hm : masterActs s m = true) (h : regOf a = some x) :
    busRead s m be a false = counted { readEffect s m x with busOut := readView s m x } m a := by
  obtain ⟨h1, h2⟩ := regOf_resolve h
  simp [busRead, readAt, hm, h1, h2]

/-- A master that does not act changes nothing by an access. -/
theorem busWrite_still {s : State} {m : Master} {be : BitVec 4} {a : Nat} {v : Word} {p : Bool} (hm : masterActs s m = false) :
    busWrite s m be a v p = s := by
  simp [busWrite, hm]

/-- See `busWrite_still`. -/
theorem busRead_still {s : State} {m : Master} {be : BitVec 4} {a : Nat} {p : Bool} (hm : masterActs s m = false) : busRead s m be a p = s := by
  simp [busRead, hm]

end Sys2Proof.Machine
end

