-- ==== Sys2Proof/Laws/Kept.lean ====
section
/-!
SUPPORT. Laws/Kept.lean: what no operation of the model does. `Kept s t` says that t is reached from s without touching the queue of commands, that
the register file and the NVM keep their canonical form, that what has left the machine stays as it left, and that neither the time nor the count of
free values runs back. The other files of Laws/Kept* say it of every operation, by the file of the model that defines it.
-/
namespace Sys2Proof.Machine

/-- The register file's canonical form: offsets strictly rising, no register listed at its reset value. -/
def RegsOk (m : AMap Word) : Prop := AMap.rising m ∧ AMap.clean resetOf m

/-- The NVM's canonical form: addresses strictly rising, no byte listed that is 0. -/
def BytesOk (m : AMap Byte) : Prop := AMap.rising m ∧ AMap.clean (fun _ => 0) m

/-- See the file's header. -/
structure Kept (s t : State) : Prop where
  queue : t.pending = s.pending
  regs : RegsOk s.regs → RegsOk t.regs
  bytes : t.nvm.bytes = s.nvm.bytes
  sent : s.sent <:+ t.sent
  fresh : s.fresh ≤ t.fresh
  time : s.elapsed ≤ t.elapsed
  held : s.held = true → t.held = true

theorem Kept.refl (s : State) : Kept s s := ⟨rfl, id, rfl, List.suffix_refl _, Nat.le_refl _, Nat.le_refl _, id⟩

theorem Kept.trans {s t u : State} (h : Kept s t) (k : Kept t u) : Kept s u :=
  ⟨k.queue.trans h.queue, fun x => k.regs (h.regs x), k.bytes.trans h.bytes, h.sent.trans k.sent, Nat.le_trans h.fresh k.fresh,
    Nat.le_trans h.time k.time, fun x => k.held (h.held x)⟩

theorem Kept.ite {s t u : State} {c : Prop} [Decidable c] (h : Kept s t) (k : Kept s u) : Kept s (if c then t else u) := by
  split
  · exact h
  · exact k

/-- A meaning keeps all this in every next state it answers. -/
def KeptR (s : State) (r : Host.Outcome State Fault Refusal) : Prop := ∀ t, r = .next t → Kept s t

theorem KeptR.next {s t : State} (h : Kept s t) : KeptR s (.next t) := fun u e => by
  cases e; exact h

theorem KeptR.ite {s : State} {r q : Host.Outcome State Fault Refusal} {c : Prop} [Decidable c] (h : KeptR s r) (k : KeptR s q) :
    KeptR s (if c then r else q) := by
  split
  · exact h
  · exact k

/-- A record update that leaves alone what `Kept` speaks of, or lets time and the free values go on. -/
theorem Kept.upd {s u : State} {fresh elapsed : Nat} {dw : AMap DwPair} {keys : List Nat} {latched : AMap Word} {busOut : Word}
    {wakeNLow : Bool} {irq : IrqSt} {pwr : PwrSt} {hif : HifSt} {clk : ClkSt} {sun : SunSt} {mon : MonSt} {tdc : TdcSt}
    {gns : GnsSt} {tbl : TblSt} {sw : SwSt} {plc : PlcSt} {cue : CueSt} {ports : AMap PortSt} {lanes : AMap LaneSt}
    {upBetter : AMap Nat} {busMore : List Word} (h : Kept s u) (h5 : u.fresh ≤ fresh) (h6 : u.elapsed ≤ elapsed) :
    Kept s { u with
      fresh := fresh, elapsed := elapsed, dw := dw, keys := keys, latched := latched, busOut := busOut, wakeNLow := wakeNLow, irq := irq, pwr := pwr,
      hif := hif, clk := clk, sun := sun, mon := mon, tdc := tdc, gns := gns, tbl := tbl, sw := sw, plc := plc, cue := cue, ports := ports, lanes := lanes,
      upBetter := upBetter, busMore := busMore } :=
  ⟨h.queue, h.regs, h.bytes, h.sent, Nat.le_trans h.fresh h5, Nat.le_trans h.time h6, h.held⟩

/-- The same where the NVM's pending requests change too. -/
theorem Kept.updNvm {s u : State} {fresh elapsed : Nat} {jobs : List NvmJob} {lastSlot : AMap Nat} {dw : AMap DwPair} {keys : List Nat} {latched : AMap Word} {busOut : Word}
    {wakeNLow : Bool} {irq : IrqSt} {pwr : PwrSt} {hif : HifSt} {clk : ClkSt} {sun : SunSt} {mon : MonSt} {tdc : TdcSt}
    {gns : GnsSt} {tbl : TblSt} {sw : SwSt} {plc : PlcSt} {cue : CueSt} {ports : AMap PortSt} {lanes : AMap LaneSt}
    {upBetter : AMap Nat} {busMore : List Word} (h : Kept s u) (h5 : u.fresh ≤ fresh) (h6 : u.elapsed ≤ elapsed) :
    Kept s { u with
      fresh := fresh, elapsed := elapsed, nvm := { u.nvm with jobs := jobs, lastSlot := lastSlot }, dw := dw, keys := keys, latched := latched, busOut := busOut, wakeNLow := wakeNLow, irq := irq, pwr := pwr,
      hif := hif, clk := clk, sun := sun, mon := mon, tdc := tdc, gns := gns, tbl := tbl, sw := sw, plc := plc, cue := cue, ports := ports, lanes := lanes,
      upBetter := upBetter, busMore := busMore } :=
  ⟨h.queue, h.regs, h.bytes, h.sent, Nat.le_trans h.fresh h5, Nat.le_trans h.time h6, h.held⟩

theorem Kept.ite1 {α : Type} {s : State} {x y : State × α} {c : Prop} [Decidable c] (h : Kept s x.1) (k : Kept s y.1) :
    Kept s (if c then x else y).1 := by
  split
  · exact h
  · exact k

theorem kept_forEach {s t : State} {α : Type} (l : List α) (g : α → State → State) (hg : ∀ a u, Kept s u → Kept s (g a u)) (h : Kept s t) :
    Kept s (forEach l t g) := by
  unfold forEach
  induction l generalizing t with
  | nil => exact h
  | cons a l ih => exact ih (hg a t h)

theorem kept_foldl {s t : State} {α : Type} (l : List α) (g : State → α → State) (hg : ∀ u a, Kept s u → Kept s (g u a)) (h : Kept s t) :
    Kept s (l.foldl g t) := by
  induction l generalizing t with
  | nil => exact h
  | cons a l ih => exact ih (hg t a h)

theorem kept_State_wr {s₀ s : State} (h : Kept s₀ s) (a : Nat) (v : Word) : Kept s₀ (s.wr a v) :=
  ⟨h.queue, fun x => ⟨AMap.rising_put _ _ _ _ (h.regs x).1, AMap.clean_put resetOf _ _ _ (h.regs x).2⟩, h.bytes, h.sent, h.fresh, h.time, h.held⟩

theorem kept_State_emit {s₀ s : State} (h : Kept s₀ s) (o : Output) : Kept s₀ (s.emit o) :=
  ⟨h.queue, h.regs, h.bytes, List.IsSuffix.trans h.sent (List.suffix_cons _ _), h.fresh, h.time, h.held⟩

theorem kept_State_drawn {s₀ s : State} (h : Kept s₀ s) : Kept s₀ s.drawn :=
  ⟨h.queue, h.regs, h.bytes, h.sent, Nat.le_succ_of_le h.fresh, h.time, h.held⟩

theorem kept_foldl1 {α β : Type} {s₀ : State} (f : State × α → β → State × α) (l : List β) {x : State × α} (h : Kept s₀ x.1)
    (hf : ∀ y b, Kept s₀ y.1 → Kept s₀ (f y b).1) : Kept s₀ (l.foldl f x).1 := by
  induction l generalizing x with
  | nil => exact h
  | cons b l ih => exact ih (hf _ _ h)

end Sys2Proof.Machine
end

