-- ==== Sys2Proof/Laws/KeptTime.lean ====
section
/-!
SUPPORT. Laws/KeptTime.lean: `Kept` of the operations and commands of interrupts, references, the Sundial, intervals, GNSS and trunk time.
-/
namespace Sys2Proof.Machine

theorem kept_State_clrReg {s₀ s : State} (h : Kept s₀ s) (a : Nat) (v : Word) : Kept s₀ (State.clrReg s a v) := by
  unfold State.clrReg
  repeat' first | with_reducible assumption | with_reducible apply kept_State_wr

theorem kept_State_count {s₀ s : State} (h : Kept s₀ s) (a : Nat) (n : optParam Nat 1) : Kept s₀ (State.count s a n) := by
  unfold State.count
  repeat' first | with_reducible assumption | with_reducible apply kept_State_wr

theorem kept_State_wr64 {s₀ s : State} (h : Kept s₀ s) (a : Nat) (n : Nat) : Kept s₀ (State.wr64 s a n) := by
  unfold State.wr64
  repeat' first | with_reducible assumption | with_reducible apply kept_State_wr

theorem kept_State_count64 {s₀ s : State} (h : Kept s₀ s) (a : Nat) (n : Nat) : Kept s₀ (State.count64 s a n) := by
  unfold State.count64
  repeat' first | with_reducible assumption | with_reducible apply kept_State_wr64

theorem kept_State_orReg {s₀ s : State} (h : Kept s₀ s) (a : Nat) (v : Word) : Kept s₀ (State.orReg s a v) := by
  unfold State.orReg
  repeat' first | with_reducible assumption | with_reducible apply kept_State_wr

theorem kept_State_setFld {s₀ s : State} (h : Kept s₀ s) (a : Nat) (hi : Nat) (lo : Nat) (x : Nat) : Kept s₀ (State.setFld s a hi lo x) := by
  unfold State.setFld
  repeat' first | with_reducible assumption | with_reducible apply kept_State_wr

theorem kept_State_setFlag {s₀ s : State} (h : Kept s₀ s) (a : Nat) (i : Nat) (b : Bool) : Kept s₀ (State.setFlag s a i b) := by
  unfold State.setFlag
  repeat' first | with_reducible assumption | with_reducible apply kept_State_setFld

theorem kept_setLaneRec {s₀ s : State} (h : Kept s₀ s) (l : Nat) (x : LaneSt) : Kept s₀ (setLaneRec s l x) := by
  unfold setLaneRec
  repeat' first | with_reducible assumption | with_reducible exact Nat.le_refl _ | with_reducible apply Kept.upd

theorem kept_setPortRec {s₀ s : State} (h : Kept s₀ s) (p : Nat) (x : PortSt) : Kept s₀ (setPortRec s p x) := by
  unfold setPortRec
  repeat' first | with_reducible assumption | with_reducible exact Nat.le_refl _ | with_reducible apply Kept.upd

theorem kept_setResult {s₀ s : State} (h : Kept s₀ s) (result : Nat) (src : Nat) : Kept s₀ (setResult s result src) := by
  unfold setResult
  repeat' first | with_reducible assumption | with_reducible apply kept_State_wr

theorem kept_setChange {s₀ s : State} (h : Kept s₀ s) (c : Change) (t : Nat) : Kept s₀ (setChange s c t) := by
  unfold setChange
  repeat' first
    | with_reducible assumption | with_reducible apply kept_State_setFld | with_reducible exact Nat.le_refl _ | with_reducible apply Kept.upd

theorem kept_setPend {s₀ s : State} (h : Kept s₀ s) (n : Nat) (b : Bool) : Kept s₀ (setPend s n b) := by
  unfold setPend
  repeat' first | with_reducible assumption | with_reducible apply kept_State_setFlag

theorem kept_lodgeClaim {s₀ s : State} (h : Kept s₀ s) (n : Nat) : Kept s₀ (lodgeClaim s n) := by
  unfold lodgeClaim
  repeat' first | with_reducible assumption | with_reducible apply kept_State_wr | with_reducible apply kept_setPend

theorem kept_msixEmit {s₀ s : State} (h : Kept s₀ s) (v : Nat) : Kept s₀ (msixEmit s v) := by
  unfold msixEmit
  repeat' first | with_reducible assumption | with_reducible apply kept_State_setFlag | with_reducible apply kept_State_emit | split

theorem kept_holdVec {s₀ s : State} (h : Kept s₀ s) (v : Nat) : Kept s₀ (holdVec s v) := by
  unfold holdVec
  repeat' first | with_reducible assumption | with_reducible exact Nat.le_refl _ | split | with_reducible apply Kept.upd

theorem kept_wakeHost {s₀ s : State} (h : Kept s₀ s) : Kept s₀ (wakeHost s) := by
  unfold wakeHost
  repeat' first
    | with_reducible assumption | with_reducible apply kept_State_emit | with_reducible exact Nat.le_refl _ | split | with_reducible apply Kept.upd

theorem kept_irqSignal {s₀ s : State} (h : Kept s₀ s) (v : Nat) : Kept s₀ (irqSignal s v) := by
  unfold irqSignal
  repeat' first
    | with_reducible assumption | with_reducible apply kept_msixEmit | with_reducible apply kept_holdVec | with_reducible apply kept_wakeHost
    | split

theorem kept_notifyAll {s₀ s : State} (h : Kept s₀ s) (ns : List Nat) : Kept s₀ (notifyAll s ns) := by
  unfold notifyAll
  repeat' first
    | with_reducible assumption | with_reducible apply kept_forEach | with_reducible apply kept_lodgeClaim | with_reducible apply kept_irqSignal
    | intro _ _ _

theorem kept_rejudge {s₀ : State} {before : State} {s : State} (h : Kept s₀ s) (_hbefore : Kept s₀ before) (ns : List Nat) :
    Kept s₀ (rejudge before s ns) := by
  unfold rejudge
  repeat' first | with_reducible assumption | with_reducible apply kept_notifyAll

theorem kept_latchPend {s₀ s : State} (h : Kept s₀ s) (n : Nat) : Kept s₀ (latchPend s n) := by
  unfold latchPend
  repeat' first
    | with_reducible assumption | with_reducible apply kept_rejudge | with_reducible apply kept_setPend | with_reducible exact Nat.le_refl _ | split
    | with_reducible apply Kept.upd

theorem kept_setWakeLast {s₀ s : State} (h : Kept s₀ s) (n : Nat) : Kept s₀ (setWakeLast s n) := by
  unfold setWakeLast
  repeat' first | with_reducible assumption | with_reducible apply kept_State_wr

theorem kept_startWake {s₀ s : State} (h : Kept s₀ s) (n : Nat) : Kept s₀ (startWake s n) := by
  unfold startWake
  repeat' first
    | with_reducible assumption | with_reducible apply kept_setWakeLast | with_reducible apply kept_State_count
    | with_reducible apply kept_setResult | with_reducible apply kept_setChange | with_reducible exact Nat.le_refl _ | split
    | with_reducible apply Kept.upd

theorem kept_stateDone {s₀ s : State} (h : Kept s₀ s) (mayWake : Bool) : Kept s₀ (stateDone s mayWake) := by
  unfold stateDone
  try dsimp only
  repeat' first
    | with_reducible assumption | with_reducible apply kept_latchPend | with_reducible apply kept_State_orReg | with_reducible apply kept_startWake
    | split

theorem kept_abortEntry {s₀ s : State} (h : Kept s₀ s) (result : Nat) (src : Nat) : Kept s₀ (abortEntry s result src) := by
  unfold abortEntry
  repeat' first
    | with_reducible assumption | with_reducible apply kept_setResult | with_reducible apply kept_setChange | with_reducible apply kept_stateDone
    | with_reducible apply kept_State_count | with_reducible exact Nat.le_refl _ | with_reducible apply Kept.upd

theorem kept_setStack {s₀ s : State} (h : Kept s₀ s) (t : Nat) (l : List Nat) : Kept s₀ (setStack s t l) := by
  unfold setStack
  repeat' first | with_reducible assumption | with_reducible exact Nat.le_refl _ | with_reducible apply Kept.upd

theorem kept_setActive {s₀ s : State} (h : Kept s₀ s) (n : Nat) (b : Bool) : Kept s₀ (setActive s n b) := by
  unfold setActive
  repeat' first | with_reducible assumption | with_reducible apply kept_State_setFlag

theorem kept_claim {s₀ s : State} (h : Kept s₀ s) (t : Nat) : Kept s₀ (claim s t).2 := by
  unfold claim
  repeat' first
    | with_reducible assumption | with_reducible apply kept_setStack | with_reducible apply kept_setActive | with_reducible apply kept_setPend
    | split

theorem kept_clearStacks {s₀ s : State} (h : Kept s₀ s) (ts : List Nat) : Kept s₀ (clearStacks s ts) := by
  unfold clearStacks
  repeat' first
    | with_reducible assumption | with_reducible apply kept_forEach | with_reducible apply kept_setStack | with_reducible apply kept_setActive
    | with_reducible apply kept_rejudge | intro _ _ _

theorem kept_wakeJudge {s₀ s : State} (h : Kept s₀ s) (n : Nat) : Kept s₀ (wakeJudge s n) := by
  unfold wakeJudge
  repeat' first
    | with_reducible assumption | with_reducible apply kept_startWake | with_reducible apply kept_abortEntry | with_reducible apply kept_setWakeLast
    | with_reducible exact Nat.le_refl _ | split | with_reducible apply Kept.upd

theorem kept_latchSource {s₀ s : State} (h : Kept s₀ s) (n : Nat) : Kept s₀ (latchSource s n) := by
  unfold latchSource
  repeat' first | with_reducible assumption | with_reducible apply kept_wakeJudge | with_reducible apply kept_latchPend | split

theorem kept_raise {s₀ s : State} (h : Kept s₀ s) (reg : Nat) (b : Nat) (n : Nat) : Kept s₀ (raise s reg b n) := by
  unfold raise
  repeat' first | with_reducible assumption | with_reducible apply kept_latchSource | with_reducible apply kept_State_orReg

theorem kept_clkEvent {s₀ s : State} (h : Kept s₀ s) (b : Nat) : Kept s₀ (clkEvent s b) := by
  unfold clkEvent
  repeat' first | with_reducible assumption | with_reducible apply kept_raise

theorem kept_cqSignal {s₀ s : State} (h : Kept s₀ s) (v : Nat) : Kept s₀ (cqSignal s v) := by
  unfold cqSignal
  repeat' first
    | with_reducible assumption | with_reducible apply kept_msixEmit | with_reducible apply kept_holdVec | with_reducible apply kept_wakeHost
    | split

theorem kept_cueEvent {s₀ s : State} (h : Kept s₀ s) (b : Nat) : Kept s₀ (cueEvent s b) := by
  unfold cueEvent
  repeat' first | with_reducible assumption | with_reducible apply kept_raise

theorem kept_orderFault {s₀ s : State} (h : Kept s₀ s) (t : Nat) (n : Nat) : Kept s₀ (orderFault s t n) := by
  unfold orderFault
  repeat' first
    | with_reducible assumption | with_reducible apply kept_State_wr | with_reducible apply kept_latchSource | with_reducible apply kept_State_count

theorem kept_eoi {s₀ s : State} (h : Kept s₀ s) (t : Nat) (n : Nat) : Kept s₀ (eoi s t n).1 := by
  unfold eoi
  repeat' first
    | with_reducible assumption | with_reducible apply kept_setStack | with_reducible apply kept_setActive | with_reducible apply kept_rejudge
    | with_reducible apply kept_orderFault | split

theorem kept_gnsEvent {s₀ s : State} (h : Kept s₀ s) (b : Nat) : Kept s₀ (gnsEvent s b) := by
  unfold gnsEvent
  repeat' first | with_reducible assumption | with_reducible apply kept_raise

theorem kept_hifEvent {s₀ s : State} (h : Kept s₀ s) (b : Nat) : Kept s₀ (hifEvent s b) := by
  unfold hifEvent
  repeat' first | with_reducible assumption | with_reducible apply kept_raise

theorem kept_latchErr {s₀ s : State} (h : Kept s₀ s) (b : Block) (code : Nat) (off : Nat) (m : Master) : Kept s₀ (latchErr s b code off m) := by
  unfold latchErr
  repeat' first | with_reducible assumption | with_reducible apply kept_State_wr | with_reducible apply kept_latchSource | split

theorem kept_monEvent {s₀ s : State} (h : Kept s₀ s) (b : Nat) : Kept s₀ (monEvent s b) := by
  unfold monEvent
  repeat' first | with_reducible assumption | with_reducible apply kept_raise

theorem kept_pavEvent {s₀ s : State} (h : Kept s₀ s) (r : Nat) (j : Nat) (reg : Nat) (b : Nat) : Kept s₀ (pavEvent s r j reg b) := by
  unfold pavEvent
  repeat' first | with_reducible assumption | with_reducible apply kept_raise

theorem kept_plcEvent {s₀ s : State} (h : Kept s₀ s) (b : Nat) : Kept s₀ (plcEvent s b) := by
  unfold plcEvent
  repeat' first | with_reducible assumption | with_reducible apply kept_raise

theorem kept_pwrEvent {s₀ s : State} (h : Kept s₀ s) (b : Nat) : Kept s₀ (pwrEvent s b) := by
  unfold pwrEvent
  repeat' first | with_reducible assumption | with_reducible apply kept_raise

theorem kept_resignalAll {s₀ s : State} (h : Kept s₀ s) : Kept s₀ (resignalAll s) := by
  unfold resignalAll
  repeat' first | with_reducible assumption | with_reducible apply kept_forEach | with_reducible apply kept_irqSignal | intro _ _ _

theorem kept_sunEvent {s₀ s : State} (h : Kept s₀ s) (b : Nat) : Kept s₀ (sunEvent s b) := by
  unfold sunEvent
  repeat' first | with_reducible assumption | with_reducible apply kept_raise

theorem kept_tblEvent {s₀ s : State} (h : Kept s₀ s) (b : Nat) : Kept s₀ (tblEvent s b) := by
  unfold tblEvent
  repeat' first | with_reducible assumption | with_reducible apply kept_raise

theorem kept_tdcEvent {s₀ s : State} (h : Kept s₀ s) (b : Nat) : Kept s₀ (tdcEvent s b) := by
  unfold tdcEvent
  repeat' first | with_reducible assumption | with_reducible apply kept_raise

theorem kept_setCtr {s₀ s : State} (h : Kept s₀ s) (d : Nat) (c : TimeCtr) : Kept s₀ (setCtr s d c) := by
  unfold setCtr
  repeat' first | with_reducible assumption | with_reducible exact Nat.le_refl _ | split | with_reducible apply Kept.upd

theorem kept_handOffset {s₀ s : State} (h : Kept s₀ s) (d : Nat) (ofs : Int) : Kept s₀ (handOffset s d ofs) := by
  unfold handOffset
  repeat' first | with_reducible assumption | with_reducible apply kept_setCtr

theorem kept_judgeOos {s₀ s : State} (h : Kept s₀ s) (d : Nat) : Kept s₀ (judgeOos s d) := by
  unfold judgeOos
  repeat' first
    | with_reducible assumption | with_reducible apply kept_sunEvent | with_reducible exact Nat.le_refl _ | split | with_reducible apply Kept.upd

theorem kept_loadBypInc {s₀ s : State} (h : Kept s₀ s) : Kept s₀ (loadBypInc s) := by
  unfold loadBypInc
  repeat' first | with_reducible assumption | with_reducible exact Nat.le_refl _ | with_reducible apply Kept.upd

theorem kept_loadUtc {s₀ s : State} (h : Kept s₀ s) (v : Word) : Kept s₀ (loadUtc s v) := by
  unfold loadUtc
  repeat' first
    | with_reducible assumption | with_reducible apply kept_State_wr | with_reducible exact Nat.le_refl _ | split | with_reducible apply Kept.upd

theorem kept_markSet {s₀ s : State} (h : Kept s₀ s) (d : Nat) : Kept s₀ (markSet s d) := by
  unfold markSet
  repeat' first | with_reducible assumption | with_reducible apply kept_setCtr

theorem kept_refreshQc {s₀ s : State} (h : Kept s₀ s) : Kept s₀ (refreshQc s) := by
  unfold refreshQc
  try dsimp only
  repeat' first
    | with_reducible assumption | with_reducible apply kept_judgeOos | with_reducible apply kept_sunEvent | with_reducible apply kept_State_wr
    | split

theorem kept_histAlarm {s₀ s : State} (h : Kept s₀ s) (r : Option Nat) (u : Nat) : Kept s₀ (histAlarm s r u) := by
  unfold histAlarm
  repeat' first | with_reducible assumption | with_reducible apply kept_pavEvent | with_reducible apply kept_monEvent | split

theorem kept_histPlace {s₀ s : State} (h : Kept s₀ s) (r : Option Nat) (u : Nat) (x : Int) : Kept s₀ (histPlace s r u x) := by
  unfold histPlace
  try dsimp only
  repeat' first
    | with_reducible assumption | with_reducible apply kept_histAlarm | with_reducible exact Nat.le_refl _ | split | with_reducible apply Kept.upd

theorem kept_histSample {s₀ s : State} (h : Kept s₀ s) (r : Option Nat) (src : Nat) (sel : Nat) (cls : Nat) (x : Int) :
    Kept s₀ (histSample s r src sel cls x) := by
  unfold histSample
  try dsimp only
  repeat' first | with_reducible assumption | with_reducible apply kept_forEach | with_reducible apply kept_histPlace | intro _ _ _ | split

theorem kept_perfAdd {s₀ s : State} (h : Kept s₀ s) (r : Option Nat) (a : Nat) (k : Nat) : Kept s₀ (perfAdd s r a k) := by
  unfold perfAdd
  try dsimp only
  repeat' first
    | with_reducible assumption | with_reducible apply kept_State_wr64 | with_reducible apply kept_pavEvent | with_reducible apply kept_monEvent
    | split

theorem kept_perfCount {s₀ s : State} (h : Kept s₀ s) (r : Option Nat) (e : PerfEv) (k : Nat) : Kept s₀ (perfCount s r e k) := by
  unfold perfCount
  try dsimp only
  repeat' first | with_reducible assumption | with_reducible apply kept_forEach | with_reducible apply kept_perfAdd | intro _ _ _ | split

theorem kept_windowHit {s₀ s : State} (h : Kept s₀ s) (key : Nat) : Kept s₀ (windowHit s key).1 := by
  unfold windowHit
  repeat' first | with_reducible assumption | with_reducible exact Nat.le_refl _ | with_reducible apply Kept.upd

theorem kept_State_wrSigned {s₀ s : State} (h : Kept s₀ s) (a : Nat) (x : Int) : Kept s₀ (State.wrSigned s a x) := by
  unfold State.wrSigned
  repeat' first | with_reducible assumption | with_reducible apply kept_State_wr | with_reducible apply kept_State_drawn | split

theorem kept_setSlotRec {s₀ s : State} (h : Kept s₀ s) (n : Nat) (r : RefSlot) : Kept s₀ (setSlotRec s n r) := by
  unfold setSlotRec
  repeat' first | with_reducible assumption | with_reducible exact Nat.le_refl _ | with_reducible apply Kept.upd

theorem kept_ageSlot {s₀ s : State} (h : Kept s₀ s) (n : Nat) : Kept s₀ (ageSlot s n) := by
  unfold ageSlot
  try dsimp only
  repeat' first | with_reducible assumption | with_reducible apply kept_setSlotRec | with_reducible apply kept_State_setFld | split

theorem kept_mirrorLoops {s₀ s : State} (h : Kept s₀ s) : Kept s₀ (mirrorLoops s) := by
  unfold mirrorLoops
  try dsimp only
  repeat' first
    | with_reducible assumption | with_reducible apply kept_forEach | with_reducible apply kept_State_wr | with_reducible apply kept_clkEvent
    | intro _ _ _ | split

theorem kept_refreshLoop {s₀ s : State} (h : Kept s₀ s) (d : Nat) : Kept s₀ (refreshLoop s d) := by
  unfold refreshLoop
  repeat' first | with_reducible assumption | with_reducible apply kept_State_wr | split

theorem kept_setLoopRec {s₀ s : State} (h : Kept s₀ s) (d : Nat) (r : DpllSt) : Kept s₀ (setLoopRec s d r) := by
  unfold setLoopRec
  repeat' first | with_reducible assumption | with_reducible exact Nat.le_refl _ | with_reducible apply Kept.upd

theorem kept_setCq {s₀ s : State} (h : Kept s₀ s) (q : Nat) : Kept s₀ (setCq s q) := by
  unfold setCq
  repeat' first
    | with_reducible assumption | with_reducible apply kept_State_setFld | with_reducible exact Nat.le_refl _ | with_reducible apply Kept.upd

theorem kept_setLoop {s₀ s : State} (h : Kept s₀ s) (d : Nat) (st : Nat) (valid : Bool) (slot : Nat) (disp : Bool) :
    Kept s₀ (setLoop s d st valid slot disp) := by
  unfold setLoop
  try dsimp only
  repeat' first
    | with_reducible assumption | with_reducible apply kept_State_wr | with_reducible apply kept_setCq | with_reducible apply kept_clkEvent | split

theorem kept_handOver {s₀ s : State} (h : Kept s₀ s) (n : Nat) (dm : Nat) : Kept s₀ (handOver s n dm) := by
  unfold handOver
  repeat' first
    | with_reducible assumption | with_reducible apply kept_setLoopRec | with_reducible apply kept_handOffset | with_reducible apply kept_markSet
    | split

theorem kept_followStarts {s₀ s : State} (h : Kept s₀ s) : Kept s₀ (followStarts s) := by
  unfold followStarts
  repeat' first | with_reducible assumption | with_reducible apply kept_handOver | split

theorem kept_showModel {s₀ s : State} (h : Kept s₀ s) (y : Int) (t : Option Int) : Kept s₀ (showModel s y t) := by
  unfold showModel
  repeat' first | with_reducible assumption | with_reducible apply kept_State_wr | with_reducible apply kept_State_wrSigned

theorem kept_enterHoldover {s₀ s : State} (h : Kept s₀ s) (d : Nat) (disp : Bool) : Kept s₀ (enterHoldover s d disp) := by
  unfold enterHoldover
  repeat' first
    | with_reducible assumption | with_reducible apply kept_setLoopRec | with_reducible apply kept_State_wr | with_reducible apply kept_showModel
    | with_reducible apply kept_setLoop | split

theorem kept_enterFreerun {s₀ s : State} (h : Kept s₀ s) (d : Nat) (disp : Bool) : Kept s₀ (enterFreerun s d disp) := by
  unfold enterFreerun
  repeat' first
    | with_reducible assumption | with_reducible apply kept_setLoopRec | with_reducible apply kept_setLoop | with_reducible apply kept_State_wr

theorem kept_leaveFollow {s₀ s : State} (h : Kept s₀ s) (d : Nat) : Kept s₀ (leaveFollow s d) := by
  unfold leaveFollow
  try dsimp only
  repeat' first
    | with_reducible assumption | with_reducible apply kept_setLoopRec | with_reducible apply kept_enterHoldover
    | with_reducible apply kept_enterFreerun | split

theorem kept_setDispute {s₀ s : State} (h : Kept s₀ s) (d : Nat) (b : Bool) : Kept s₀ (setDispute s d b) := by
  unfold setDispute
  repeat' first | with_reducible assumption | with_reducible apply kept_setLoop | split

theorem kept_fallBack {s₀ s : State} (h : Kept s₀ s) (d : Nat) (disp : Bool) : Kept s₀ (fallBack s d disp) := by
  unfold fallBack
  repeat' first
    | with_reducible assumption | with_reducible apply kept_setLoop | with_reducible apply kept_enterHoldover
    | with_reducible apply kept_enterFreerun | split

theorem kept_applyMode {s₀ s : State} (h : Kept s₀ s) (d : Nat) (oldMode : Nat) : Kept s₀ (applyMode s d oldMode) := by
  unfold applyMode
  repeat' first
    | with_reducible assumption | with_reducible apply Kept.ite | with_reducible apply kept_mirrorLoops | with_reducible apply kept_refreshLoop
    | with_reducible apply kept_setLoopRec | with_reducible apply kept_setLoop | with_reducible apply kept_State_wr
    | with_reducible apply kept_followStarts | with_reducible apply kept_leaveFollow | with_reducible apply kept_setDispute
    | with_reducible apply kept_fallBack | with_reducible apply kept_enterFreerun

theorem kept_becomeLocked {s₀ s : State} (h : Kept s₀ s) (d : Nat) : Kept s₀ (becomeLocked s d) := by
  unfold becomeLocked
  repeat' first | with_reducible assumption | with_reducible apply kept_setLoopRec | with_reducible apply kept_setLoop

theorem kept_rebaseTrim {s₀ s : State} (h : Kept s₀ s) (old : Int) (new : Int) : Kept s₀ (rebaseTrim s old new) := by
  unfold rebaseTrim
  try dsimp only
  repeat' first
    | with_reducible assumption | with_reducible apply kept_State_wr | with_reducible apply kept_forEach | with_reducible apply kept_setSlotRec
    | with_reducible apply kept_setLoopRec | intro _ _ _ | split

theorem kept_binSecond {s₀ s : State} (h : Kept s₀ s) (d : Nat) (y : Int) (temps : AMap Int) : Kept s₀ (binSecond s d y temps) := by
  unfold binSecond
  repeat' first
    | with_reducible assumption | with_reducible apply Kept.ite | with_reducible apply kept_setLoopRec | with_reducible apply kept_showModel
    | with_reducible apply kept_rebaseTrim | with_reducible apply kept_State_wrSigned | with_reducible apply kept_refreshLoop

theorem kept_dropPhase {s₀ s : State} (h : Kept s₀ s) (n : Nat) : Kept s₀ (dropPhase s n) := by
  unfold dropPhase
  repeat' first | with_reducible assumption | with_reducible apply kept_forEach | with_reducible apply kept_setLoopRec | intro _ _ _ | split

theorem kept_fitSlope {s₀ s : State} (h : Kept s₀ s) (n : Nat) : Kept s₀ (fitSlope s n) := by
  unfold fitSlope
  try dsimp only
  repeat' first
    | with_reducible assumption | with_reducible apply kept_setSlotRec | with_reducible apply kept_State_setFlag
    | with_reducible apply kept_State_wr | with_reducible apply kept_clkEvent | with_reducible apply kept_State_orReg | split

theorem kept_noteFailure {s₀ s : State} (h : Kept s₀ s) (n : Nat) : Kept s₀ (noteFailure s n) := by
  unfold noteFailure
  repeat' first | with_reducible assumption | with_reducible apply kept_forEach | with_reducible apply kept_setLoopRec | intro _ _ _ | split

theorem kept_judgeSlot {s₀ s : State} (h : Kept s₀ s) (n : Nat) : Kept s₀ (judgeSlot s n) := by
  unfold judgeSlot
  repeat' first
    | with_reducible assumption | with_reducible apply Kept.ite | with_reducible apply kept_setSlotRec | with_reducible apply kept_State_wr
    | with_reducible apply kept_clkEvent | with_reducible apply kept_noteFailure | with_reducible apply kept_State_orReg

theorem kept_gainActivity {s₀ s : State} (h : Kept s₀ s) (n : Nat) : Kept s₀ (gainActivity s n) := by
  unfold gainActivity
  repeat' first
    | with_reducible assumption | with_reducible apply Kept.ite | with_reducible apply kept_judgeSlot | with_reducible apply kept_State_setFlag

theorem kept_handIfPending {s₀ s : State} (h : Kept s₀ s) (n : Nat) (dm : Nat) : Kept s₀ (handIfPending s n dm) := by
  unfold handIfPending
  repeat' first | with_reducible assumption | with_reducible apply kept_setLoopRec | with_reducible apply kept_handOffset | split

theorem kept_keepOffset {s₀ s : State} (h : Kept s₀ s) (n : Nat) (dm : Nat) (x : Int) : Kept s₀ (keepOffset s n dm x) := by
  unfold keepOffset
  repeat' first | with_reducible assumption | with_reducible apply kept_setSlotRec

theorem kept_loseActivity {s₀ s : State} (h : Kept s₀ s) (n : Nat) : Kept s₀ (loseActivity s n) := by
  unfold loseActivity
  repeat' first
    | with_reducible assumption | with_reducible apply Kept.ite | with_reducible apply kept_State_orReg | with_reducible apply kept_State_setFlag
    | with_reducible apply kept_dropPhase | with_reducible apply kept_judgeSlot

theorem kept_measureLoop {s₀ s : State} (h : Kept s₀ s) (d : Nat) (m : LoopMeas) : Kept s₀ (measureLoop s d m) := by
  unfold measureLoop
  try dsimp only
  repeat' first
    | with_reducible assumption | with_reducible apply kept_State_wrSigned | with_reducible apply kept_State_wr
    | with_reducible apply kept_setLoopRec | split

theorem kept_noteTemps {s₀ s : State} (h : Kept s₀ s) : Kept s₀ (noteTemps s) := by
  unfold noteTemps
  repeat' first
    | with_reducible assumption | with_reducible apply kept_forEach | with_reducible apply kept_setLoopRec | with_reducible exact Nat.le_refl _
    | intro _ _ _ | split | with_reducible apply Kept.upd

theorem kept_setClkOut {s₀ s : State} (h : Kept s₀ s) (k : Nat) (x : ClkOut) : Kept s₀ (setClkOut s k x) := by
  unfold setClkOut
  repeat' first | with_reducible assumption | with_reducible exact Nat.le_refl _ | with_reducible apply Kept.upd

theorem kept_outDelayWritten {s₀ s : State} (h : Kept s₀ s) (k : Nat) (cue : Bool) : Kept s₀ (outDelayWritten s k cue) := by
  unfold outDelayWritten
  repeat' first | with_reducible assumption | with_reducible apply kept_setClkOut | with_reducible apply kept_State_setFlag | split

theorem kept_outEnWritten {s₀ s : State} (h : Kept s₀ s) (cue : Bool) : Kept s₀ (outEnWritten s cue) := by
  unfold outEnWritten
  try dsimp only
  repeat' first | with_reducible assumption | with_reducible apply kept_forEach | with_reducible apply kept_setClkOut | intro _ _ _ | split

theorem kept_refreshLoops {s₀ s : State} (h : Kept s₀ s) : Kept s₀ (refreshLoops s) := by
  unfold refreshLoops
  repeat' first
    | with_reducible assumption | with_reducible apply kept_mirrorLoops | with_reducible apply kept_forEach | with_reducible apply kept_refreshLoop
    | intro _ _ _

theorem kept_selectSlot {s₀ s : State} (h : Kept s₀ s) (d : Nat) (n : Nat) (ofs : Int) : Kept s₀ (selectSlot s d n ofs) := by
  unfold selectSlot
  repeat' first
    | with_reducible assumption | with_reducible apply kept_State_wrSigned | with_reducible apply kept_setLoopRec
    | with_reducible apply kept_State_orReg | with_reducible apply kept_forEach | with_reducible apply kept_handOver
    | with_reducible apply kept_setLoop | with_reducible apply kept_clkEvent | intro _ _ _ | split

theorem kept_selectOn {s₀ s : State} (h : Kept s₀ s) (d : Nat) (offs : List Int) : Kept s₀ (selectOn s d offs).1 := by
  unfold selectOn
  try dsimp only
  repeat' first
    | with_reducible assumption | with_reducible apply kept_setDispute | with_reducible apply kept_fallBack | with_reducible apply kept_selectSlot
    | with_reducible apply kept_clkEvent | with_reducible apply kept_forEach | with_reducible apply kept_State_orReg | intro _ _ _ | split

theorem kept_setDisputants {s₀ s : State} (h : Kept s₀ s) (l : List Nat) : Kept s₀ (setDisputants s l) := by
  unfold setDisputants
  repeat' first | with_reducible assumption | with_reducible apply kept_forEach | with_reducible apply kept_State_setFlag | intro _ _ _ | split

theorem kept_switchClkOuts {s₀ s : State} (h : Kept s₀ s) : Kept s₀ (switchClkOuts s) := by
  unfold switchClkOuts
  repeat' first
    | with_reducible assumption | with_reducible apply kept_forEach | with_reducible apply kept_State_setFlag | with_reducible apply kept_setClkOut
    | intro _ _ _ | split

theorem kept_tickClkOut {s₀ s : State} (h : Kept s₀ s) (k : Nat) (before : Nat) (inc : Nat) : Kept s₀ (tickClkOut s k before inc) := by
  unfold tickClkOut
  repeat' first
    | with_reducible assumption | with_reducible apply kept_setClkOut | with_reducible apply kept_State_setFlag | with_reducible apply kept_forEach
    | with_reducible apply kept_State_emit | intro _ _ _ | split

theorem kept_tickClkOuts {s₀ s : State} (h : Kept s₀ s) (before : Nat) (inc : Nat) : Kept s₀ (tickClkOuts s before inc) := by
  unfold tickClkOuts
  repeat' first | with_reducible assumption | with_reducible apply kept_forEach | with_reducible apply kept_tickClkOut | intro _ _ _

theorem kept_arrivalOffsets {s₀ s : State} (h : Kept s₀ s) (n : Nat) (x : Arrival) : Kept s₀ (arrivalOffsets s n x) := by
  unfold arrivalOffsets
  repeat' first | with_reducible assumption | with_reducible apply kept_keepOffset | split

theorem kept_arrive {s₀ s : State} (h : Kept s₀ s) (n : Nat) (x : Arrival) : Kept s₀ (arrive s n x) := by
  unfold arrive
  repeat' first
    | with_reducible assumption | with_reducible apply kept_gainActivity | with_reducible apply kept_arrivalOffsets
    | with_reducible apply kept_handIfPending | with_reducible apply kept_loseActivity | split

theorem kept_execBypassIncScale {s₀ s : State} (h : Kept s₀ s) : KeptR s₀ (execBypassIncScale s) := by
  unfold execBypassIncScale
  repeat' first
    | with_reducible assumption | with_reducible apply KeptR.ite | with_reducible apply KeptR.next | with_reducible apply kept_loadBypInc

theorem kept_execDelayWalkDone {s₀ s : State} (h : Kept s₀ s) (k : Fin 8) : KeptR s₀ (execDelayWalkDone k s) := by
  unfold execDelayWalkDone
  repeat' first
    | with_reducible assumption | with_reducible apply KeptR.ite | with_reducible apply KeptR.next | with_reducible apply kept_State_setFlag

theorem kept_execDpllLocked {s₀ s : State} (h : Kept s₀ s) (d : Fin 4) : KeptR s₀ (execDpllLocked d s) := by
  unfold execDpllLocked
  repeat' first
    | with_reducible assumption | with_reducible apply KeptR.ite | with_reducible apply KeptR.next | with_reducible apply kept_mirrorLoops
    | with_reducible apply kept_becomeLocked

theorem kept_execFoffUpdate {s₀ s : State} (h : Kept s₀ s) (n : Fin 8) (raw : Option Int) : KeptR s₀ (execFoffUpdate n raw s) := by
  unfold execFoffUpdate
  repeat' first
    | with_reducible assumption | with_reducible apply KeptR.ite | with_reducible apply KeptR.next | with_reducible apply kept_setSlotRec
    | with_reducible apply kept_State_wr | with_reducible apply kept_fitSlope | with_reducible apply kept_judgeSlot | split

theorem kept_execHoldoverBin {s₀ s : State} (h : Kept s₀ s) (y0 : Int) (y2 : Int) (y3 : Int) : KeptR s₀ (execHoldoverBin y0 y2 y3 s) := by
  unfold execHoldoverBin
  repeat' first
    | with_reducible assumption | with_reducible apply KeptR.ite | with_reducible apply KeptR.next | with_reducible apply kept_binSecond
    | with_reducible apply kept_mirrorLoops | with_reducible exact Nat.le_refl _ | with_reducible apply Kept.upd

theorem kept_execHoldoverSecond {s₀ s : State} (h : Kept s₀ s) (d : Fin 4) : KeptR s₀ (execHoldoverSecond d s) := by
  unfold execHoldoverSecond
  repeat' first
    | with_reducible assumption | with_reducible apply KeptR.ite | with_reducible apply KeptR.next | with_reducible apply kept_setLoopRec
    | with_reducible apply kept_State_wrSigned | with_reducible apply kept_State_wr | with_reducible apply kept_refreshQc
    | with_reducible apply kept_mirrorLoops | split

theorem kept_execRefActivityLost {s₀ s : State} (h : Kept s₀ s) (n : Fin 8) : KeptR s₀ (execRefActivityLost n s) := by
  unfold execRefActivityLost
  repeat' first
    | with_reducible assumption | with_reducible apply KeptR.ite | with_reducible apply KeptR.next | with_reducible apply kept_loseActivity | split

theorem kept_execRefPulseArrival {s₀ s : State} (h : Kept s₀ s) (n : Fin 8) (x : Arrival) : KeptR s₀ (execRefPulseArrival n x s) := by
  unfold execRefPulseArrival
  repeat' first | with_reducible assumption | with_reducible apply KeptR.ite | with_reducible apply KeptR.next | with_reducible apply kept_arrive

theorem kept_execSelectionTick {s₀ s : State} (h : Kept s₀ s) (meas : List LoopMeas) : KeptR s₀ (execSelectionTick meas s) := by
  unfold execSelectionTick
  repeat' first
    | with_reducible assumption | with_reducible apply KeptR.ite | with_reducible apply KeptR.next | with_reducible apply kept_forEach
    | with_reducible apply kept_ageSlot | with_reducible apply kept_measureLoop | with_reducible apply kept_selectOn
    | with_reducible apply kept_mirrorLoops | with_reducible apply kept_setDisputants | intro _ _ _

theorem kept_execSlotQualified {s₀ s : State} (h : Kept s₀ s) (n : Fin 8) : KeptR s₀ (execSlotQualified n s) := by
  unfold execSlotQualified
  repeat' first
    | with_reducible assumption | with_reducible apply KeptR.ite | with_reducible apply KeptR.next | with_reducible apply kept_State_wr
    | with_reducible apply kept_setSlotRec | with_reducible apply kept_clkEvent | with_reducible apply kept_State_orReg

theorem kept_setOutRec {s₀ s : State} (h : Kept s₀ s) (k : Nat) (o : TimeOut) : Kept s₀ (setOutRec s k o) := by
  unfold setOutRec
  repeat' first | with_reducible assumption | with_reducible exact Nat.le_refl _ | with_reducible apply Kept.upd

theorem kept_driveOut {s₀ s : State} (h : Kept s₀ s) (k : Nat) (high : Bool) (p : Nat) : Kept s₀ (driveOut s k high p) := by
  unfold driveOut
  repeat' first | with_reducible assumption | with_reducible apply kept_State_emit | with_reducible apply kept_setOutRec

theorem kept_cutOuts {s₀ s : State} (h : Kept s₀ s) : Kept s₀ (cutOuts s) := by
  unfold cutOuts
  repeat' first
    | with_reducible assumption | with_reducible apply kept_forEach | with_reducible apply kept_driveOut | with_reducible apply kept_setOutRec
    | with_reducible apply kept_State_emit | with_reducible exact Nat.le_refl _ | intro _ _ _ | split | with_reducible apply Kept.upd

theorem kept_endPps {s₀ s : State} (h : Kept s₀ s) (k : Nat) (before : Nat) (now : Nat) : Kept s₀ (endPps s k before now) := by
  unfold endPps
  try dsimp only
  repeat' first | with_reducible assumption | with_reducible apply kept_driveOut | split

theorem kept_endPulses {s₀ s : State} (h : Kept s₀ s) : Kept s₀ (endPulses s) := by
  unfold endPulses
  repeat' first
    | with_reducible assumption | with_reducible apply kept_forEach | with_reducible apply kept_State_emit | with_reducible exact Nat.le_refl _
    | intro _ _ _ | with_reducible apply Kept.upd

theorem kept_judgeBetter {s₀ s : State} (h : Kept s₀ s) : Kept s₀ (judgeBetter s) := by
  unfold judgeBetter
  repeat' first | with_reducible assumption | with_reducible exact Nat.le_refl _ | split | with_reducible apply Kept.upd

theorem kept_raisePps {s₀ s : State} (h : Kept s₀ s) (k : Nat) (p : Nat) (now : Nat) : Kept s₀ (raisePps s k p now) := by
  unfold raisePps
  repeat' first | with_reducible assumption | with_reducible apply kept_driveOut | with_reducible apply kept_setOutRec

theorem kept_startOut {s₀ s : State} (h : Kept s₀ s) (k : Nat) (o : TimeOut) (t : Nat) : Kept s₀ (startOut s k o t) := by
  unfold startOut
  repeat' first | with_reducible assumption | with_reducible apply kept_setOutRec

theorem kept_startPeriod {s₀ s : State} (h : Kept s₀ s) (k : Nat) (i : Int) (x : Int) (p : Nat) (before : Nat) :
    Kept s₀ (startPeriod s k i x p before) := by
  unfold startPeriod
  try dsimp only
  repeat' first
    | with_reducible assumption | with_reducible apply kept_setOutRec | with_reducible apply kept_startOut | with_reducible apply kept_State_emit
    | with_reducible apply kept_driveOut | split

theorem kept_outBoundary {s₀ s : State} (h : Kept s₀ s) (k : Nat) (i : Int) (x : Int) (p : Nat) (before : Nat) (now : Nat) :
    Kept s₀ (outBoundary s k i x p before now) := by
  unfold outBoundary
  repeat' first
    | with_reducible assumption | with_reducible apply kept_raisePps | with_reducible apply kept_startPeriod | with_reducible apply kept_driveOut
    | split

theorem kept_outCfgWritten {s₀ : State} {b : State} {s : State} (h : Kept s₀ s) (_hb : Kept s₀ b) (k : Nat) : Kept s₀ (outCfgWritten b s k) := by
  unfold outCfgWritten
  try dsimp only
  repeat' first | with_reducible assumption | with_reducible apply kept_setOutRec | with_reducible apply kept_startOut | split

theorem kept_payOwed {s₀ s : State} (h : Kept s₀ s) (k : Nat) (before : Nat) (now : Nat) : Kept s₀ (payOwed s k before now) := by
  unfold payOwed
  try dsimp only
  repeat' first | with_reducible assumption | with_reducible apply kept_setOutRec | with_reducible apply kept_raisePps | split

theorem kept_settleOuts {s₀ s : State} (h : Kept s₀ s) : Kept s₀ (settleOuts s) := by
  unfold settleOuts
  repeat' first | with_reducible assumption | with_reducible apply kept_forEach | with_reducible apply kept_setOutRec | intro _ _ _

theorem kept_stepOuts {s₀ s : State} (h : Kept s₀ s) : Kept s₀ (stepOuts s) := by
  unfold stepOuts
  try dsimp only
  repeat' first
    | with_reducible assumption | with_reducible apply kept_forEach | with_reducible apply kept_setOutRec | with_reducible apply kept_driveOut
    | intro _ _ _ | split

theorem kept_tickCounters {s₀ s : State} (h : Kept s₀ s) : Kept s₀ (tickCounters s) := by
  unfold tickCounters
  repeat' first
    | with_reducible assumption | with_reducible apply Kept.ite | with_reducible apply Kept.ite1 | with_reducible apply kept_foldl
    | with_reducible exact Nat.le_refl _ | with_reducible exact Nat.le_add_right _ _ | exact Nat.le_max_left _ _ | (intro _ _ _; dsimp only)
    | intro _ _ _ | with_reducible apply Kept.upd

theorem kept_walkOut {s₀ s : State} (h : Kept s₀ s) (k : Nat) (inc : Nat) : Kept s₀ (walkOut s k inc) := by
  unfold walkOut
  try dsimp only
  repeat' first | with_reducible assumption | with_reducible apply kept_setOutRec | split

theorem kept_tickOut {s₀ s : State} (h : Kept s₀ s) (k : Nat) (before : Nat) (now : Nat) (inc : Nat) (slewed : Bool) :
    Kept s₀ (tickOut s k before now inc slewed) := by
  unfold tickOut
  try dsimp only
  repeat' first
    | with_reducible assumption | with_reducible apply kept_payOwed | with_reducible apply kept_endPps | with_reducible apply kept_outBoundary
    | with_reducible apply kept_setOutRec | with_reducible apply kept_walkOut | split

theorem kept_tickSundial {s₀ s : State} (h : Kept s₀ s) : Kept s₀ (tickSundial s) := by
  unfold tickSundial
  repeat' first
    | with_reducible assumption | with_reducible apply Kept.ite | with_reducible apply Kept.ite1 | with_reducible apply kept_foldl
    | with_reducible apply kept_tickCounters | with_reducible apply kept_forEach | with_reducible apply kept_tickOut
    | with_reducible apply kept_judgeBetter | with_reducible apply kept_refreshQc | with_reducible apply kept_endPulses
    | with_reducible exact Nat.le_refl _ | with_reducible exact Nat.le_add_right _ _ | exact Nat.le_max_left _ _ | (intro _ _ _; dsimp only)
    | intro _ _ _ | with_reducible apply Kept.upd

theorem kept_captureAll {s₀ s : State} (h : Kept s₀ s) : Kept s₀ (captureAll s) := by
  unfold captureAll
  repeat' first | with_reducible assumption | with_reducible apply kept_forEach | with_reducible apply kept_State_wr | intro _ _ _

theorem kept_switchDomain {s₀ s : State} (h : Kept s₀ s) (node : Nat) : Kept s₀ (switchDomain s node) := by
  unfold switchDomain
  repeat' first
    | with_reducible assumption | with_reducible apply kept_sunEvent | with_reducible exact Nat.le_refl _ | with_reducible apply Kept.upd

theorem kept_execAutoDomainSwitch {s₀ s : State} (h : Kept s₀ s) : KeptR s₀ (execAutoDomainSwitch s) := by
  unfold execAutoDomainSwitch
  repeat' first
    | with_reducible assumption | with_reducible apply KeptR.ite | with_reducible apply KeptR.next | with_reducible apply kept_switchDomain
    | with_reducible apply kept_State_setFld | split

theorem kept_execLeapSecond {s₀ s : State} (h : Kept s₀ s) : KeptR s₀ (execLeapSecond s) := by
  unfold execLeapSecond
  repeat' first
    | with_reducible assumption | with_reducible apply KeptR.ite | with_reducible apply KeptR.next | with_reducible apply kept_sunEvent
    | with_reducible apply kept_State_wr | with_reducible exact Nat.le_refl _ | split | with_reducible apply Kept.upd

theorem kept_execSlewDone {s₀ s : State} (h : Kept s₀ s) (d : Fin 3) : KeptR s₀ (execSlewDone d s) := by
  unfold execSlewDone
  repeat' first
    | with_reducible assumption | with_reducible apply KeptR.ite | with_reducible apply KeptR.next | with_reducible apply kept_sunEvent
    | with_reducible apply kept_setCtr

theorem kept_execTimeSetDone {s₀ s : State} (h : Kept s₀ s) : KeptR s₀ (execTimeSetDone s) := by
  unfold execTimeSetDone
  repeat' first
    | with_reducible assumption | with_reducible apply KeptR.ite | with_reducible apply KeptR.next | with_reducible apply kept_sunEvent
    | with_reducible apply kept_markSet | with_reducible apply kept_State_setFlag | with_reducible exact Nat.le_refl _ | split
    | with_reducible apply Kept.upd

theorem kept_stepCounter {s₀ s : State} (h : Kept s₀ s) (d : Nat) : Kept s₀ (stepCounter s d) := by
  unfold stepCounter
  repeat' first
    | with_reducible assumption | with_reducible apply kept_setCtr | with_reducible apply kept_sunEvent | with_reducible exact Nat.le_refl _ | split
    | with_reducible apply Kept.upd

theorem kept_takeSet {s₀ s : State} (h : Kept s₀ s) (d : Nat) (t : Nat) (slew : Bool) : Kept s₀ (takeSet s d t slew) := by
  unfold takeSet
  repeat' first
    | with_reducible assumption | with_reducible apply kept_setCtr | with_reducible apply kept_State_setFlag | with_reducible exact Nat.le_refl _
    | with_reducible apply Kept.upd

theorem kept_setCqRec {s₀ s : State} (h : Kept s₀ s) (c : Nat) (r : CqSt) : Kept s₀ (setCqRec s c r) := by
  unfold setCqRec
  repeat' first | with_reducible assumption | with_reducible exact Nat.le_refl _ | with_reducible apply Kept.upd

theorem kept_announceLater {s₀ s : State} (h : Kept s₀ s) (c : Nat) (k : Nat) : Kept s₀ (announceLater s c k) := by
  unfold announceLater
  repeat' first | with_reducible assumption | with_reducible apply kept_setCqRec

theorem kept_setRingRec {s₀ s : State} (h : Kept s₀ s) (n : Nat) (r : RingSt) : Kept s₀ (setRingRec s n r) := by
  unfold setRingRec
  repeat' first | with_reducible assumption | with_reducible exact Nat.le_refl _ | with_reducible apply Kept.upd

theorem kept_writeCompletion {s₀ s : State} (h : Kept s₀ s) (n : Nat) (x : Completion) : Kept s₀ (writeCompletion s n x) := by
  unfold writeCompletion
  repeat' first
    | with_reducible assumption | with_reducible apply Kept.ite | with_reducible apply kept_State_emit | with_reducible apply kept_setCqRec
    | with_reducible apply kept_announceLater | with_reducible apply kept_State_setFld | with_reducible apply kept_State_count
    | with_reducible apply kept_hifEvent

theorem kept_complete {s₀ s : State} (h : Kept s₀ s) (n : Nat) (x : Completion) : Kept s₀ (complete s n x) := by
  unfold complete
  repeat' first
    | with_reducible assumption | with_reducible apply Kept.ite | with_reducible apply kept_setRingRec | with_reducible apply kept_writeCompletion

theorem kept_eventWrite {s₀ s : State} (h : Kept s₀ s) (n : Nat) (ty : Nat) (src : Nat) (parts : List (List Word)) :
    Kept s₀ (eventWrite s n ty src parts).1 := by
  unfold eventWrite
  try dsimp only
  repeat' first
    | with_reducible assumption | with_reducible apply kept_foldl | with_reducible apply kept_State_count | with_reducible apply kept_State_emit
    | with_reducible apply kept_setRingRec | with_reducible apply kept_State_setFld | with_reducible apply kept_announceLater | intro _ _ _ | split

theorem kept_setActiveRing {s₀ s : State} (h : Kept s₀ s) (n : Nat) (b : Bool) : Kept s₀ (setActiveRing s n b) := by
  unfold setActiveRing
  repeat' first | with_reducible assumption | with_reducible apply kept_State_setFlag

theorem kept_setArmed {s₀ s : State} (h : Kept s₀ s) (c : Nat) (b : Bool) : Kept s₀ (setArmed s c b) := by
  unfold setArmed
  repeat' first | with_reducible assumption | with_reducible apply kept_State_setFlag

theorem kept_takeDesc {s₀ s : State} (h : Kept s₀ s) (n : Nat) : Kept s₀ (takeDesc s n).1 := by
  unfold takeDesc
  repeat' first | with_reducible assumption | with_reducible apply kept_setRingRec | with_reducible apply kept_State_setFld

theorem nvmStore_eq (s : State) (a : Nat) (l : List Byte) : ∃ m, nvmStore s a l = { s with nvm := { s.nvm with bytes := m } } ∧
    (BytesOk s.nvm.bytes → BytesOk m) := by
  induction l generalizing s a with
  | nil => exact ⟨s.nvm.bytes, rfl, id⟩
  | cons b t ih =>
    obtain ⟨m, hm, hk⟩ := ih { s with nvm := { s.nvm with bytes := AMap.put s.nvm.bytes a b 0 } } (a + 1)
    exact ⟨m, hm, fun x => hk ⟨AMap.rising_put _ _ _ _ x.1, AMap.clean_put (fun _ => 0) _ _ _ x.2⟩⟩

/-- NVM_WRITE_DONE is the one operation that stores bytes of the NVM; of everything else it keeps what every operation keeps. -/

theorem finishNvm_kept (s : State) (fail : Bool) : ∃ m, (BytesOk s.nvm.bytes → BytesOk m) ∧
    Kept { s with nvm := { s.nvm with bytes := m } } (finishNvm s fail) := by
  unfold finishNvm
  split
  · exact ⟨s.nvm.bytes, id, Kept.refl _⟩
  · rename_i j l _
    extract_lets nv data s1 s2
    obtain ⟨m, hm, hk⟩ := nvmStore_eq
      { s with nvm := { s.nvm with jobs := l }, fresh := if fail then s.fresh + j.data.length else s.fresh } j.addr data
    refine ⟨m, hk, ?_⟩
    have h1 : Kept { s with nvm := { s.nvm with bytes := m } } s1 := by
      show Kept _ (nvmStore _ j.addr data)
      rw [hm]
      refine ⟨rfl, id, rfl, List.suffix_refl _, ?_, Nat.le_refl _, id⟩
      show s.fresh ≤ if fail = true then s.fresh + j.data.length else s.fresh
      split
      · exact Nat.le_add_right _ _
      · exact Nat.le_refl _
    clear_value s1
    have h2 : Kept { s with nvm := { s.nvm with bytes := m } } s2 := kept_State_setFlag h1 _ _ _
    clear_value s2
    with_reducible apply Kept.ite
    · exact h2
    · split
      · exact kept_latchErr h2 _ _ _ _
      · exact kept_tdcEvent h2 _

theorem kept_startNvm {s₀ s : State} (h : Kept s₀ s) (j : NvmJob) : Kept s₀ (startNvm s j) := by
  unfold startNvm
  repeat' first
    | with_reducible assumption | with_reducible apply kept_State_setFlag | with_reducible exact Nat.le_refl _ | with_reducible apply Kept.updNvm

theorem kept_nvmWinApply {s₀ s : State} (h : Kept s₀ s) (o : Nat) (m : Master) (v : Word) : Kept s₀ (nvmWinApply s o m v) := by
  unfold nvmWinApply
  repeat' first | with_reducible assumption | with_reducible apply kept_startNvm

theorem kept_storeRecord {s₀ s : State} (h : Kept s₀ s) (kind : Nat) (item : Nat) (rate : Nat) (secs : Nat) (temp : Int) (v0 : Word) (v1 : Word) :
    Kept s₀ (storeRecord s kind item rate secs temp v0 v1) := by
  unfold storeRecord
  repeat' first
    | with_reducible assumption | with_reducible apply kept_startNvm | with_reducible exact Nat.le_refl _ | split | with_reducible apply Kept.updNvm

theorem kept_setTdcCh {s₀ s : State} (h : Kept s₀ s) (n : Nat) (c : TdcCh) : Kept s₀ (setTdcCh s n c) := by
  unfold setTdcCh
  repeat' first | with_reducible assumption | with_reducible exact Nat.le_refl _ | with_reducible apply Kept.upd

theorem kept_armNow {s₀ s : State} (h : Kept s₀ s) (n : Nat) : Kept s₀ (armNow s n) := by
  unfold armNow
  repeat' first | with_reducible assumption | with_reducible apply kept_setTdcCh | with_reducible apply kept_State_setFlag

theorem kept_armOnCompare {s₀ s : State} (h : Kept s₀ s) (c : Nat) : Kept s₀ (armOnCompare s c) := by
  unfold armOnCompare
  repeat' first | with_reducible assumption | with_reducible apply kept_forEach | with_reducible apply kept_armNow | intro _ _ _ | split

theorem kept_calDisagree {s₀ s : State} (h : Kept s₀ s) (kind : Nat) (item : Nat) (diff : Nat) : Kept s₀ (calDisagree s kind item diff) := by
  unfold calDisagree
  repeat' first
    | with_reducible assumption | with_reducible apply kept_tdcEvent | with_reducible apply kept_State_count | with_reducible apply kept_State_wr

theorem kept_disarmAt {s₀ s : State} (h : Kept s₀ s) (n : Nat) (e : Nat) : Kept s₀ (disarmAt s n e) := by
  unfold disarmAt
  repeat' first | with_reducible assumption | with_reducible apply kept_setTdcCh | with_reducible apply kept_State_setFlag

theorem kept_disarmCh {s₀ s : State} (h : Kept s₀ s) (n : Nat) : Kept s₀ (disarmCh s n) := by
  unfold disarmCh
  repeat' first | with_reducible assumption | with_reducible apply kept_disarmAt

theorem kept_gateHigh {s₀ s : State} (h : Kept s₀ s) (n : Nat) : Kept s₀ (gateHigh s n) := by
  unfold gateHigh
  repeat' first | with_reducible assumption | with_reducible apply kept_setTdcCh | split

theorem kept_chCfgWritten {s₀ : State} {b : State} {s : State} (h : Kept s₀ s) (_hb : Kept s₀ b) (n : Nat) : Kept s₀ (chCfgWritten b s n) := by
  unfold chCfgWritten
  repeat' first
    | with_reducible assumption | with_reducible apply kept_disarmCh | with_reducible apply kept_armNow | with_reducible apply kept_gateHigh | split

theorem kept_countEdge {s₀ s : State} (h : Kept s₀ s) (n : Nat) (e : Nat) : Kept s₀ (countEdge s n e) := by
  unfold countEdge
  try dsimp only
  repeat' first | with_reducible assumption | with_reducible apply kept_setTdcCh | with_reducible apply kept_disarmAt | split

theorem kept_setTdcDiff {s₀ s : State} (h : Kept s₀ s) (u : Nat) (x : TdcDiff) : Kept s₀ (setTdcDiff s u x) := by
  unfold setTdcDiff
  repeat' first | with_reducible assumption | with_reducible exact Nat.le_refl _ | with_reducible apply Kept.upd

theorem kept_diffCfgWritten {s₀ : State} {b : State} {s : State} (h : Kept s₀ s) (_hb : Kept s₀ b) (u : Nat) : Kept s₀ (diffCfgWritten b s u) := by
  unfold diffCfgWritten
  try dsimp only
  repeat' first | with_reducible assumption | with_reducible apply kept_State_setFlag | with_reducible apply kept_setTdcDiff | split

theorem kept_unpaired {s₀ s : State} (h : Kept s₀ s) (u : Nat) : Kept s₀ (unpaired s u) := by
  unfold unpaired
  repeat' first | with_reducible assumption | with_reducible apply kept_State_count

theorem kept_giveDiff {s₀ s : State} (h : Kept s₀ s) (u : Nat) (d : Int) (b : Nat) : Kept s₀ (giveDiff s u d b) := by
  unfold giveDiff
  repeat' first
    | with_reducible assumption | with_reducible apply kept_State_wr64 | with_reducible apply kept_setTdcDiff | with_reducible apply kept_eventWrite
    | with_reducible apply kept_histSample | split

theorem kept_feedDiffs {s₀ s : State} (h : Kept s₀ s) (n : Nat) (v : Nat) : Kept s₀ (feedDiffs s n v) := by
  unfold feedDiffs
  try dsimp only
  repeat' first
    | with_reducible assumption | with_reducible apply kept_forEach | with_reducible apply kept_unpaired | with_reducible apply kept_setTdcDiff
    | with_reducible apply kept_giveDiff | intro _ _ _ | split

theorem kept_tdcMiss {s₀ s : State} (h : Kept s₀ s) (n : Nat) : Kept s₀ (tdcMiss s n) := by
  unfold tdcMiss
  repeat' first | with_reducible assumption | with_reducible apply kept_tdcEvent | with_reducible apply kept_State_count

theorem kept_giveResult {s₀ s : State} (h : Kept s₀ s) (n : Nat) (v : Nat) : Kept s₀ (giveResult s n v) := by
  unfold giveResult
  repeat' first
    | with_reducible assumption | with_reducible apply kept_feedDiffs | with_reducible apply kept_State_count | with_reducible apply kept_histSample
    | with_reducible apply kept_eventWrite | with_reducible apply kept_tdcMiss | with_reducible apply kept_setTdcCh
    | with_reducible apply kept_tdcEvent | with_reducible exact Nat.le_refl _ | split | with_reducible apply Kept.upd

theorem kept_recordRetire {s₀ s : State} (h : Kept s₀ s) (kind : Nat) (pav : Nat) (index : Nat) (code : Nat) (spare : Bool) :
    Kept s₀ (recordRetire s kind pav index code spare) := by
  unfold recordRetire
  repeat' first
    | with_reducible assumption | with_reducible apply kept_latchSource | with_reducible apply kept_State_count | with_reducible apply kept_State_wr

theorem kept_storeInterp {s₀ s : State} (h : Kept s₀ s) (n : Nat) (w1 : Nat) (w2 : Nat) : Kept s₀ (storeInterp s n w1 w2) := by
  unfold storeInterp
  try dsimp only
  repeat' first | with_reducible assumption | with_reducible apply kept_storeRecord | with_reducible apply kept_setTdcCh | split

theorem kept_takePair {s₀ s : State} (h : Kept s₀ s) (n : Nat) (c1 : Nat) (c2 : Nat) : Kept s₀ (takePair s n c1 c2).1 := by
  unfold takePair
  try dsimp only
  repeat' first
    | with_reducible assumption | with_reducible apply kept_State_wr | with_reducible apply kept_State_setFlag | with_reducible apply kept_setTdcCh
    | with_reducible apply kept_recordRetire | with_reducible apply kept_latchErr | with_reducible apply kept_storeInterp
    | with_reducible apply kept_calDisagree | split

theorem kept_measureEdge {s₀ s : State} (h : Kept s₀ s) (n : Nat) (fall : Bool) (c : Nat) (c1 : Nat) (c2 : Nat) :
    Kept s₀ (measureEdge s n fall c c1 c2) := by
  unfold measureEdge
  repeat' first
    | with_reducible assumption | with_reducible apply Kept.ite | with_reducible apply kept_tdcMiss | with_reducible apply kept_setTdcCh
    | with_reducible apply kept_giveResult | with_reducible apply kept_countEdge | with_reducible apply kept_takePair
    | with_reducible apply kept_State_wr | with_reducible apply kept_State_count

theorem kept_popResult {s₀ s : State} (h : Kept s₀ s) (n : Nat) : Kept s₀ (popResult s n).1 := by
  unfold popResult
  repeat' first | with_reducible assumption | with_reducible apply kept_setTdcCh | split

theorem kept_tickGates {s₀ s : State} (h : Kept s₀ s) : Kept s₀ (tickGates s) := by
  unfold tickGates
  repeat' first
    | with_reducible assumption | with_reducible apply kept_forEach | with_reducible apply kept_setTdcCh | with_reducible apply kept_armNow
    | intro _ _ _ | split

theorem kept_armUnit {s₀ s : State} (h : Kept s₀ s) (c : Nat) : Kept s₀ (armUnit s c) := by
  unfold armUnit
  repeat' first
    | with_reducible assumption | with_reducible apply kept_State_wr | with_reducible exact Nat.le_refl _ | with_reducible apply Kept.upd

theorem kept_disarmUnit {s₀ s : State} (h : Kept s₀ s) (c : Nat) : Kept s₀ (disarmUnit s c) := by
  unfold disarmUnit
  repeat' first
    | with_reducible assumption | with_reducible apply kept_State_setFlag | with_reducible exact Nat.le_refl _ | with_reducible apply Kept.upd

theorem kept_fireUnit {s₀ s : State} (h : Kept s₀ s) (c : Nat) (rise : Nat) (late : Bool) : Kept s₀ (fireUnit s c rise late) := by
  unfold fireUnit
  repeat' first
    | with_reducible assumption | with_reducible apply kept_State_wr | with_reducible apply kept_State_emit | with_reducible apply kept_armOnCompare
    | with_reducible apply kept_disarmUnit | with_reducible apply kept_latchSource | with_reducible exact Nat.le_refl _ | split
    | with_reducible apply Kept.upd

theorem kept_setTarget {s₀ s : State} (h : Kept s₀ s) (c : Nat) (t : Nat) : Kept s₀ (setTarget s c t) := by
  unfold setTarget
  repeat' first
    | with_reducible assumption | with_reducible apply kept_State_wr | with_reducible exact Nat.le_refl _ | with_reducible apply Kept.upd

theorem kept_execCompareFire {s₀ s : State} (h : Kept s₀ s) (c : Fin 16) : KeptR s₀ (execCompareFire c s) := by
  unfold execCompareFire
  repeat' first
    | with_reducible assumption | with_reducible apply KeptR.ite | with_reducible apply KeptR.next | with_reducible apply kept_fireUnit
    | with_reducible apply kept_setTarget | split

theorem kept_lateFires {s₀ s : State} (h : Kept s₀ s) (before : Nat) : Kept s₀ (lateFires s before) := by
  unfold lateFires
  try dsimp only
  repeat' first
    | with_reducible assumption | with_reducible apply kept_forEach | with_reducible apply kept_fireUnit | with_reducible apply kept_setTarget
    | intro _ _ _ | split

theorem kept_rebaseLeap {s₀ s : State} (h : Kept s₀ s) (before : Nat) : Kept s₀ (rebaseLeap s before) := by
  unfold rebaseLeap
  repeat' first | with_reducible assumption | with_reducible exact Nat.le_refl _ | split | with_reducible apply Kept.upd

theorem kept_execDomainStep {s₀ s : State} (h : Kept s₀ s) (d : Fin 3) : KeptR s₀ (execDomainStep d s) := by
  unfold execDomainStep
  repeat' first
    | with_reducible assumption | with_reducible apply KeptR.ite | with_reducible apply KeptR.next | with_reducible apply kept_stepCounter
    | with_reducible apply kept_lateFires | with_reducible apply kept_stepOuts | with_reducible apply kept_rebaseLeap | split

theorem kept_restartPtp {s₀ s : State} (h : Kept s₀ s) (p : Nat) : Kept s₀ (restartPtp s p) := by
  unfold restartPtp
  repeat' first
    | with_reducible assumption | with_reducible apply kept_State_wr | with_reducible apply kept_forEach | with_reducible apply kept_loseActivity
    | intro _ _ _ | split

theorem kept_sunApply {s₀ : State} {b : State} {s : State} (h : Kept s₀ s) (_hb : Kept s₀ b) (e : Eff) (i : Nat) (v : Word) :
    Kept s₀ (sunApply b s e i v) := by
  unfold sunApply
  repeat' first
    | with_reducible assumption | with_reducible apply kept_switchDomain | with_reducible apply kept_loadUtc | with_reducible apply kept_captureAll
    | with_reducible apply kept_takeSet | with_reducible apply kept_loadBypInc | with_reducible apply kept_outCfgWritten
    | with_reducible apply kept_armUnit | with_reducible apply kept_disarmUnit | with_reducible apply kept_refreshLoops
    | with_reducible apply kept_restartPtp | with_reducible exact Nat.le_refl _ | split | with_reducible apply Kept.upd

theorem kept_setJobRec {s₀ s : State} (h : Kept s₀ s) (j : Nat) (x : Grotto) : Kept s₀ (setJobRec s j x) := by
  unfold setJobRec
  repeat' first | with_reducible assumption | with_reducible exact Nat.le_refl _ | with_reducible apply Kept.upd

theorem kept_grtStream {s₀ s : State} (h : Kept s₀ s) (j : Nat) : Kept s₀ (grtStream s j) := by
  unfold grtStream
  repeat' first | with_reducible assumption | with_reducible apply kept_eventWrite | split

theorem kept_endGrotto {s₀ s : State} (h : Kept s₀ s) (j : Nat) (code : Nat) (conf : Bool) : Kept s₀ (endGrotto s j code conf) := by
  unfold endGrotto
  repeat' first
    | with_reducible assumption | with_reducible apply kept_State_setFld | with_reducible apply kept_forEach | with_reducible apply kept_State_wr
    | with_reducible apply kept_setJobRec | with_reducible apply kept_State_setFlag | with_reducible apply kept_grtStream
    | with_reducible apply kept_gnsEvent | with_reducible exact Nat.le_refl _ | intro _ _ _ | split | with_reducible apply Kept.upd

theorem kept_abortGrotto {s₀ s : State} (h : Kept s₀ s) (p : State → Nat → Bool) : Kept s₀ (abortGrotto s p) := by
  unfold abortGrotto
  repeat' first | with_reducible assumption | with_reducible apply kept_forEach | with_reducible apply kept_endGrotto | intro _ _ _ | split

theorem kept_alignVco {s₀ s : State} (h : Kept s₀ s) : Kept s₀ (alignVco s) := by
  unfold alignVco
  repeat' first | with_reducible assumption | with_reducible exact Nat.le_refl _ | with_reducible apply Kept.upd

theorem kept_setGnsCh {s₀ s : State} (h : Kept s₀ s) (c : Nat) (x : GnsCh) : Kept s₀ (setGnsCh s c x) := by
  unfold setGnsCh
  repeat' first | with_reducible assumption | with_reducible exact Nat.le_refl _ | with_reducible apply Kept.upd

theorem kept_chanSample {s₀ s : State} (h : Kept s₀ s) (c : Nat) (t : Nat) : Kept s₀ (chanSample s c t) := by
  unfold chanSample
  try dsimp only
  repeat' first | with_reducible assumption | with_reducible apply kept_setGnsCh | split

theorem kept_claimChannel {s₀ s : State} (h : Kept s₀ s) (j : Nat) : Kept s₀ (claimChannel s j) := by
  unfold claimChannel
  try dsimp only
  repeat' first | with_reducible assumption | with_reducible apply kept_State_setFld | with_reducible apply kept_setJobRec | split

theorem kept_setSnapRec {s₀ s : State} (h : Kept s₀ s) (k : Nat) (x : Snap) : Kept s₀ (setSnapRec s k x) := by
  unfold setSnapRec
  repeat' first | with_reducible assumption | with_reducible exact Nat.le_refl _ | with_reducible apply Kept.upd

theorem kept_setSnapState {s₀ s : State} (h : Kept s₀ s) (k : Nat) (x : Nat) : Kept s₀ (setSnapState s k x) := by
  unfold setSnapState
  repeat' first | with_reducible assumption | with_reducible apply kept_State_setFld

theorem kept_endCapture {s₀ s : State} (h : Kept s₀ s) (k : Nat) (status : Nat) : Kept s₀ (endCapture s k status) := by
  unfold endCapture
  repeat' first
    | with_reducible assumption | with_reducible apply kept_setSnapRec | with_reducible apply kept_gnsEvent | with_reducible apply kept_State_wr
    | with_reducible apply kept_setSnapState

theorem kept_cutCaptures {s₀ s : State} (h : Kept s₀ s) : Kept s₀ (cutCaptures s) := by
  unfold cutCaptures
  repeat' first | with_reducible assumption | with_reducible apply kept_forEach | with_reducible apply kept_endCapture | intro _ _ _ | split

theorem kept_endAcq {s₀ s : State} (h : Kept s₀ s) (code : Nat) : Kept s₀ (endAcq s code) := by
  unfold endAcq
  repeat' first
    | with_reducible assumption | with_reducible apply kept_gnsEvent | with_reducible apply kept_State_wr | with_reducible exact Nat.le_refl _
    | split | with_reducible apply Kept.upd

theorem kept_setGnsIn {s₀ s : State} (h : Kept s₀ s) (n : Nat) (x : GnsIn) : Kept s₀ (setGnsIn s n x) := by
  unfold setGnsIn
  repeat' first | with_reducible assumption | with_reducible exact Nat.le_refl _ | with_reducible apply Kept.upd

theorem kept_feSample {s₀ s : State} (h : Kept s₀ s) (n : Nat) (e : Nat) (balls : Byte × Byte) : Kept s₀ (feSample s n e balls) := by
  unfold feSample
  repeat' first
    | with_reducible assumption | with_reducible apply Kept.ite | with_reducible apply kept_setGnsIn | with_reducible apply kept_State_count
    | with_reducible apply kept_forEach | with_reducible apply kept_setSnapRec | with_reducible apply kept_chanSample
    | with_reducible exact Nat.le_refl _ | intro _ _ _ | with_reducible apply Kept.upd

theorem kept_feTick {s₀ s : State} (h : Kept s₀ s) (n : Nat) (v0 : Nat) (balls : List (Byte × Byte)) : Kept s₀ (feTick s n v0 balls) := by
  unfold feTick
  repeat' first
    | with_reducible assumption | with_reducible apply Kept.ite | with_reducible apply kept_State_emit | with_reducible apply kept_setGnsIn
    | with_reducible apply kept_forEach | with_reducible apply kept_feSample | intro _ _ _ | split

theorem kept_gnsStop {s₀ s : State} (h : Kept s₀ s) : Kept s₀ (gnsStop s) := by
  unfold gnsStop
  repeat' first
    | with_reducible assumption | with_reducible apply kept_abortGrotto | with_reducible apply kept_cutCaptures | with_reducible apply kept_endAcq

theorem kept_stopFeClk {s₀ s : State} (h : Kept s₀ s) (n : Nat) : Kept s₀ (stopFeClk s n) := by
  unfold stopFeClk
  repeat' first | with_reducible assumption | with_reducible apply kept_State_emit | with_reducible apply kept_setGnsIn | split

theorem kept_gnsBypass {s₀ s : State} (h : Kept s₀ s) : Kept s₀ (gnsBypass s) := by
  unfold gnsBypass
  repeat' first | with_reducible assumption | with_reducible apply kept_gnsStop | with_reducible apply kept_stopFeClk

theorem kept_gnsOff {s₀ s : State} (h : Kept s₀ s) : Kept s₀ (gnsOff s) := by
  unfold gnsOff
  repeat' first | with_reducible assumption | with_reducible apply kept_gnsStop

theorem kept_gnsTick {s₀ s : State} (h : Kept s₀ s) (sec : Nat) (fe0 : List (Byte × Byte)) (fe1 : List (Byte × Byte)) :
    Kept s₀ (gnsTick s sec fe0 fe1) := by
  unfold gnsTick
  repeat' first | with_reducible assumption | with_reducible apply kept_feTick | with_reducible exact Nat.le_refl _ | with_reducible apply Kept.upd

theorem kept_judgeFix {s₀ s : State} (h : Kept s₀ s) (fixChanged : Bool) : Kept s₀ (judgeFix s fixChanged) := by
  unfold judgeFix
  repeat' first
    | with_reducible assumption | with_reducible apply kept_State_setFlag | with_reducible apply kept_gnsEvent | with_reducible exact Nat.le_refl _
    | split | with_reducible apply Kept.upd

theorem kept_judgeJam {s₀ s : State} (h : Kept s₀ s) (n : Nat) : Kept s₀ (judgeJam s n) := by
  unfold judgeJam
  try dsimp only
  repeat' first
    | with_reducible assumption | with_reducible apply kept_judgeFix | with_reducible apply kept_gnsEvent | with_reducible apply kept_State_setFld
    | split

theorem kept_notchMode {s₀ : State} {b : State} {s : State} (h : Kept s₀ s) (_hb : Kept s₀ b) (n : Nat) (m : Nat) : Kept s₀ (notchMode b s n m) := by
  unfold notchMode
  repeat' first
    | with_reducible assumption | with_reducible apply kept_State_wr | with_reducible apply kept_judgeJam | with_reducible apply kept_gnsEvent
    | with_reducible exact Nat.le_refl _ | split | with_reducible apply Kept.upd

theorem kept_startGrotto {s₀ s : State} (h : Kept s₀ s) (j : Nat) (start : Nat) (forPort : Option Nat) : Kept s₀ (startGrotto s j start forPort) := by
  unfold startGrotto
  repeat' first
    | with_reducible assumption | with_reducible apply kept_forEach | with_reducible apply kept_State_wr | with_reducible apply kept_claimChannel
    | with_reducible apply kept_setJobRec | intro _ _ _

theorem kept_takePower {s₀ s : State} (h : Kept s₀ s) (n : Nat) (pwr : Int) : Kept s₀ (takePower s n pwr) := by
  unfold takePower
  repeat' first
    | with_reducible assumption | with_reducible apply kept_setGnsIn | with_reducible apply kept_judgeJam | with_reducible apply kept_State_wr

theorem kept_takeSolution {s₀ s : State} (h : Kept s₀ s) (x : Solution) : Kept s₀ (takeSolution s x) := by
  unfold takeSolution
  repeat' first
    | with_reducible assumption | with_reducible apply kept_State_wr | with_reducible apply kept_judgeFix | with_reducible exact Nat.le_refl _
    | with_reducible apply Kept.upd

theorem kept_applyEpoch {s₀ s : State} (h : Kept s₀ s) (c : Nat) : Kept s₀ (applyEpoch s c) := by
  unfold applyEpoch
  repeat' first
    | with_reducible assumption | with_reducible apply kept_State_wr | with_reducible apply kept_State_setFlag | with_reducible apply kept_setGnsCh
    | split

theorem kept_execAcqDone {s₀ s : State} (h : Kept s₀ s) (pnr : BitVec 16) (code : Nat) (dop : Nat) (i : Nat) :
    KeptR s₀ (execAcqDone pnr code dop i s) := by
  unfold execAcqDone
  repeat' first
    | with_reducible assumption | with_reducible apply KeptR.ite | with_reducible apply KeptR.next | with_reducible apply kept_State_wr64
    | with_reducible apply kept_State_wr | with_reducible apply kept_gnsEvent | with_reducible exact Nat.le_refl _ | with_reducible apply Kept.upd

theorem kept_execAntennaFaultChange {s₀ s : State} (h : Kept s₀ s) (low : Bool) : KeptR s₀ (execAntennaFaultChange low s) := by
  unfold execAntennaFaultChange
  repeat' first
    | with_reducible assumption | with_reducible apply KeptR.ite | with_reducible apply KeptR.next | with_reducible apply kept_State_setFlag
    | with_reducible apply kept_judgeFix | with_reducible apply kept_gnsEvent | split

theorem kept_execBelvederePps {s₀ s : State} (h : Kept s₀ s) (interval : Nat) (_x : Unit) : KeptR s₀ (execBelvederePps interval _x s) := by
  unfold execBelvederePps
  repeat' first
    | with_reducible assumption | with_reducible apply KeptR.ite | with_reducible apply KeptR.next | with_reducible apply kept_forEach
    | with_reducible apply kept_setSnapRec | with_reducible apply kept_keepOffset | with_reducible apply kept_arrive
    | with_reducible exact Nat.le_refl _ | intro _ _ _ | split | with_reducible apply Kept.upd

theorem kept_execEpochEnd {s₀ s : State} (h : Kept s₀ s) (c : Fin 64) (data : List (Int × Word × Word)) (pilot : Word × Word) (half : Word × Word) (cn0 : Word) (_x : Unit) :
    KeptR s₀ (execEpochEnd c data pilot half cn0 _x s) := by
  unfold execEpochEnd
  try dsimp only
  repeat' first
    | with_reducible assumption | with_reducible apply KeptR.ite | with_reducible apply KeptR.next | with_reducible apply kept_State_wr
    | with_reducible apply kept_State_wr64 | with_reducible apply kept_forEach | with_reducible apply kept_eventWrite
    | with_reducible apply kept_State_count | with_reducible apply kept_applyEpoch | intro _ _ _ | split

theorem kept_execGnssUtcLoad {s₀ s : State} (h : Kept s₀ s) : KeptR s₀ (execGnssUtcLoad s) := by
  unfold execGnssUtcLoad
  repeat' first
    | with_reducible assumption | with_reducible apply KeptR.ite | with_reducible apply KeptR.next | with_reducible apply kept_loadUtc
    | with_reducible exact Nat.le_refl _ | with_reducible apply Kept.upd

theorem kept_execGrottoChannelClaim {s₀ s : State} (h : Kept s₀ s) (j : Fin 8) : KeptR s₀ (execGrottoChannelClaim j s) := by
  unfold execGrottoChannelClaim
  repeat' first
    | with_reducible assumption | with_reducible apply KeptR.ite | with_reducible apply KeptR.next | with_reducible apply kept_claimChannel

theorem kept_execGrottoPeerTimeout {s₀ s : State} (h : Kept s₀ s) (j : Fin 8) : KeptR s₀ (execGrottoPeerTimeout j s) := by
  unfold execGrottoPeerTimeout
  repeat' first | with_reducible assumption | with_reducible apply KeptR.ite | with_reducible apply KeptR.next | with_reducible apply kept_endGrotto

theorem kept_execGrottoWaitTimeout {s₀ s : State} (h : Kept s₀ s) (j : Fin 8) : KeptR s₀ (execGrottoWaitTimeout j s) := by
  unfold execGrottoWaitTimeout
  repeat' first | with_reducible assumption | with_reducible apply KeptR.ite | with_reducible apply KeptR.next | with_reducible apply kept_endGrotto

theorem kept_execNotchRelease {s₀ s : State} (h : Kept s₀ s) (n : Fin 2) (k : Fin 4) : KeptR s₀ (execNotchRelease n k s) := by
  unfold execNotchRelease
  repeat' first
    | with_reducible assumption | with_reducible apply KeptR.ite | with_reducible apply KeptR.next | with_reducible apply kept_State_wr
    | with_reducible apply kept_judgeJam | with_reducible apply kept_gnsEvent | with_reducible exact Nat.le_refl _ | with_reducible apply Kept.upd

theorem kept_notchMs {s₀ s : State} (h : Kept s₀ s) (key : Nat) (low : Bool) : Kept s₀ (notchMs s key low) := by
  unfold notchMs
  repeat' first | with_reducible assumption | with_reducible exact Nat.le_refl _ | with_reducible apply Kept.upd

theorem kept_execNotchSearch {s₀ s : State} (h : Kept s₀ s) (n : Fin 2) (k : Fin 4) (lines : List Line) (depth : Byte) (pwr : BitVec 16) (fl : Int) (follow : Option Line) :
    KeptR s₀ (execNotchSearch n k lines depth pwr fl follow s) := by
  unfold execNotchSearch
  repeat' first
    | with_reducible assumption | with_reducible apply KeptR.ite | with_reducible apply KeptR.next | with_reducible apply kept_takePower
    | with_reducible apply kept_notchMs | with_reducible apply kept_State_wr | with_reducible apply kept_judgeJam
    | with_reducible apply kept_gnsEvent | with_reducible exact Nat.le_refl _ | split | with_reducible apply Kept.upd

theorem kept_execRangingExchange {s₀ s : State} (h : Kept s₀ s) (j : Fin 8) (p : Fin 128) (good : Bool) (aFar : Nat) (sFar : List Nat) :
    KeptR s₀ (execRangingExchange j p good aFar sFar s) := by
  unfold execRangingExchange
  try dsimp only
  repeat' first
    | with_reducible assumption | with_reducible apply KeptR.ite | with_reducible apply KeptR.next | with_reducible apply kept_setJobRec | split

theorem kept_execSnapshotCaptureEnd {s₀ s : State} (h : Kept s₀ s) (k : Fin 4) (_x : Unit) (_y : Unit) (_z : Unit) (_w : Unit) :
    KeptR s₀ (execSnapshotCaptureEnd k _x _y _z _w s) := by
  unfold execSnapshotCaptureEnd
  repeat' first
    | with_reducible assumption | with_reducible apply KeptR.ite | with_reducible apply KeptR.next | with_reducible apply kept_endCapture

theorem kept_execSnapshotCaptureStart {s₀ s : State} (h : Kept s₀ s) (k : Fin 4) (_x : Unit) : KeptR s₀ (execSnapshotCaptureStart k _x s) := by
  unfold execSnapshotCaptureStart
  repeat' first
    | with_reducible assumption | with_reducible apply KeptR.ite | with_reducible apply KeptR.next | with_reducible apply kept_setSnapState

theorem kept_execTimeMessage {s₀ s : State} (h : Kept s₀ s) (x : Solution) (sec : BitVec 48) (utc : BitVec 16) (pend : Bool) (sign : Bool) (lead : Nat) :
    KeptR s₀ (execTimeMessage x sec utc pend sign lead s) := by
  unfold execTimeMessage
  repeat' first
    | with_reducible assumption | with_reducible apply KeptR.ite | with_reducible apply KeptR.next | with_reducible apply kept_takeSolution
    | with_reducible apply kept_forEach | with_reducible apply kept_State_wr | with_reducible apply kept_gnsEvent
    | with_reducible apply kept_eventWrite | with_reducible exact Nat.le_refl _ | intro _ _ _ | split | with_reducible apply Kept.upd

theorem kept_execTimeSolutionUpdate {s₀ s : State} (h : Kept s₀ s) (x : Solution) (px : Word) (py : Word) (pz : Word) :
    KeptR s₀ (execTimeSolutionUpdate x px py pz s) := by
  unfold execTimeSolutionUpdate
  repeat' first
    | with_reducible assumption | with_reducible apply KeptR.ite | with_reducible apply KeptR.next | with_reducible apply kept_takeSolution
    | with_reducible apply kept_State_wr | with_reducible apply kept_State_setFld | with_reducible exact Nat.le_refl _
    | with_reducible apply Kept.upd

theorem kept_badTimeWord {s₀ s : State} (h : Kept s₀ s) (p : Nat) : Kept s₀ (badTimeWord s p) := by
  unfold badTimeWord
  repeat' first | with_reducible assumption | with_reducible apply kept_sunEvent | with_reducible apply kept_State_count

theorem kept_execPtpPortStateChange {s₀ s : State} (h : Kept s₀ s) (p : Fin 128) (st : Fin 7) (mpd : BitVec 16) :
    KeptR s₀ (execPtpPortStateChange p st mpd s) := by
  unfold execPtpPortStateChange
  repeat' first
    | with_reducible assumption | with_reducible apply KeptR.ite | with_reducible apply KeptR.next | with_reducible apply kept_State_wr
    | with_reducible apply kept_forEach | with_reducible apply kept_loseActivity | intro _ _ _ | split

theorem kept_setTrkTime {s₀ s : State} (h : Kept s₀ s) (p : Nat) (dom : Nat) (x : TrkTime) : Kept s₀ (setTrkTime s p dom x) := by
  unfold setTrkTime
  repeat' first | with_reducible assumption | with_reducible exact Nat.le_refl _ | with_reducible apply Kept.upd

theorem kept_feedSlot7 {s₀ s : State} (h : Kept s₀ s) (p : Nat) (dom : Nat) (w : List Word) (ofs : Option Int) :
    Kept s₀ (feedSlot7 s p dom w ofs) := by
  unfold feedSlot7
  repeat' first
    | with_reducible assumption | with_reducible apply Kept.ite | with_reducible apply kept_keepOffset | with_reducible apply kept_handIfPending
    | with_reducible apply kept_gainActivity | with_reducible apply kept_loadUtc | with_reducible exact Nat.le_refl _ | split
    | with_reducible apply Kept.upd

theorem kept_seeDelay {s₀ s : State} (h : Kept s₀ s) (p : Nat) (d : Int) : Kept s₀ (seeDelay s p d) := by
  unfold seeDelay
  repeat' first | with_reducible assumption | with_reducible exact Nat.le_refl _ | split | with_reducible apply Kept.upd

theorem kept_takeTimeWord {s₀ s : State} (h : Kept s₀ s) (p : Nat) (dws : List Word) (sub : Nat) : Kept s₀ (takeTimeWord s p dws sub) := by
  unfold takeTimeWord
  repeat' first
    | with_reducible assumption | with_reducible apply Kept.ite | with_reducible apply kept_badTimeWord | with_reducible apply kept_setTrkTime
    | with_reducible apply kept_histSample | with_reducible apply kept_feedSlot7 | with_reducible apply kept_seeDelay | split

theorem kept_execTimeWordReceive {s₀ s : State} (h : Kept s₀ s) (p : Fin 128) (dws : List Word) (sub : Nat) :
    KeptR s₀ (execTimeWordReceive p dws sub s) := by
  unfold execTimeWordReceive
  repeat' first
    | with_reducible assumption | with_reducible apply KeptR.ite | with_reducible apply KeptR.next | with_reducible apply Kept.ite
    | with_reducible apply kept_takeTimeWord

theorem kept_execTimeWordSend {s₀ s : State} (h : Kept s₀ s) (p : Fin 128) (dom : Fin 2) (sub : Nat) : KeptR s₀ (execTimeWordSend p dom sub s) := by
  unfold execTimeWordSend
  repeat' first
    | with_reducible assumption | with_reducible apply KeptR.ite | with_reducible apply KeptR.next | with_reducible apply kept_setTrkTime
    | with_reducible apply kept_State_wr | with_reducible apply kept_State_emit | with_reducible apply kept_setPortRec | split

end Sys2Proof.Machine
end

