-- ==== Sys2Proof/Laws/KeptSwitch.lean ====
section
/-!
SUPPORT. Laws/KeptSwitch.lean: `Kept` of the operations and commands of the tables, the switch, the ports, calibration, cells and cue records.
-/
namespace Sys2Proof.Machine

theorem kept_alterEntry {s₀ s : State} (h : Kept s₀ s) (pl : Nat) (f : List Word → List Word) : Kept s₀ (alterEntry s pl f) := by
  unfold alterEntry
  repeat' first | with_reducible assumption | with_reducible exact Nat.le_refl _ | split | with_reducible apply Kept.upd

theorem kept_refreshAt {s₀ s : State} (h : Kept s₀ s) (pl : Nat) : Kept s₀ (refreshAt s pl) := by
  unfold refreshAt
  repeat' first | with_reducible assumption | with_reducible apply kept_alterEntry

theorem kept_agerVisit {s₀ s : State} (h : Kept s₀ s) (pl : Nat) : Kept s₀ (agerVisit s pl) := by
  unfold agerVisit
  repeat' first
    | with_reducible assumption | with_reducible apply kept_refreshAt | with_reducible apply kept_alterEntry | with_reducible exact Nat.le_refl _
    | split | with_reducible apply Kept.upd

theorem kept_delEntry {s₀ s : State} (h : Kept s₀ s) (pl : Nat) : Kept s₀ (delEntry s pl) := by
  unfold delEntry
  repeat' first | with_reducible assumption | with_reducible exact Nat.le_refl _ | split | with_reducible apply Kept.upd

theorem kept_commitDel {s₀ s : State} (h : Kept s₀ s) (d : AgeDel) : Kept s₀ (commitDel s d) := by
  unfold commitDel
  try dsimp only
  repeat' first | with_reducible assumption | with_reducible apply kept_State_count | with_reducible apply kept_delEntry | split

theorem kept_dropTrack {s₀ s : State} (h : Kept s₀ s) (vid : Nat) (mac : Nat) : Kept s₀ (dropTrack s vid mac) := by
  unfold dropTrack
  repeat' first | with_reducible assumption | with_reducible exact Nat.le_refl _ | with_reducible apply Kept.upd

theorem kept_setTrack {s₀ s : State} (h : Kept s₀ s) (x : Track) : Kept s₀ (setTrack s x) := by
  unfold setTrack
  repeat' first
    | with_reducible assumption | with_reducible apply kept_dropTrack | with_reducible exact Nat.le_refl _ | with_reducible apply Kept.upd

theorem kept_flap {s₀ s : State} (h : Kept s₀ s) (pl : Nat) (x : Track) (port : Nat) : Kept s₀ (flap s pl x port) := by
  unfold flap
  repeat' first
    | with_reducible assumption | with_reducible apply kept_alterEntry | with_reducible apply kept_setTrack | with_reducible apply kept_State_wr
    | with_reducible apply kept_State_count | with_reducible apply kept_tblEvent

theorem kept_moveEntry {s₀ s : State} (h : Kept s₀ s) (pl : Nat) (port : Nat) : Kept s₀ (moveEntry s pl port) := by
  unfold moveEntry
  repeat' first | with_reducible assumption | with_reducible apply kept_State_count | with_reducible apply kept_alterEntry

theorem kept_freeTracks {s₀ s : State} (h : Kept s₀ s) : Kept s₀ (freeTracks s) := by
  unfold freeTracks
  repeat' first | with_reducible assumption | with_reducible exact Nat.le_refl _ | with_reducible apply Kept.upd

theorem kept_stationMove {s₀ s : State} (h : Kept s₀ s) (pl : Nat) (e : List Word) (vid : Nat) (mac : Nat) (port : Nat) :
    Kept s₀ (stationMove s pl e vid mac port) := by
  unfold stationMove
  try dsimp only
  repeat' first
    | with_reducible assumption | with_reducible apply kept_flap | with_reducible apply kept_setTrack | with_reducible apply kept_moveEntry
    | with_reducible apply kept_freeTracks | with_reducible apply kept_State_count | split

theorem kept_putEntry {s₀ s : State} (h : Kept s₀ s) (pl : Nat) (e : List Word) : Kept s₀ (putEntry s pl e) := by
  unfold putEntry
  repeat' first
    | with_reducible assumption | with_reducible apply kept_tblEvent | with_reducible exact Nat.le_refl _ | split | with_reducible apply Kept.upd

theorem kept_commitLearn {s₀ s : State} (h : Kept s₀ s) (r : Nat) (x : Learn) : Kept s₀ (commitLearn s r x) := by
  unfold commitLearn
  try dsimp only
  repeat' first
    | with_reducible assumption | with_reducible apply kept_tblEvent | with_reducible apply kept_State_count | with_reducible apply kept_refreshAt
    | with_reducible apply kept_stationMove | with_reducible apply kept_putEntry | split

theorem kept_setRefQ {s₀ s : State} (h : Kept s₀ s) (r : Nat) (l : List EntryRef) : Kept s₀ (setRefQ s r l) := by
  unfold setRefQ
  repeat' first | with_reducible assumption | with_reducible exact Nat.le_refl _ | with_reducible apply Kept.upd

theorem kept_commitRefresh {s₀ s : State} (h : Kept s₀ s) (r : Nat) : Kept s₀ (commitRefresh s r) := by
  unfold commitRefresh
  repeat' first
    | with_reducible assumption | with_reducible apply kept_setRefQ | with_reducible apply kept_refreshAt | with_reducible exact Nat.le_refl _
    | split | with_reducible apply Kept.upd

theorem kept_endFreeze {s₀ s : State} (h : Kept s₀ s) (vid : Nat) (mac : Nat) : Kept s₀ (endFreeze s vid mac) := by
  unfold endFreeze
  repeat' first | with_reducible assumption | with_reducible apply kept_dropTrack | split

theorem kept_deleteEntry {s₀ s : State} (h : Kept s₀ s) (st : Bool) (k : List Word) : Kept s₀ (deleteEntry s st k).1 := by
  unfold deleteEntry
  repeat' first | with_reducible assumption | with_reducible apply kept_delEntry | with_reducible apply kept_endFreeze | split

theorem kept_flushOpen {s₀ s : State} (h : Kept s₀ s) (port : Nat) (vid : Nat) : Kept s₀ (flushOpen s port vid).1 := by
  unfold flushOpen
  repeat' first
    | with_reducible assumption | with_reducible apply kept_forEach | with_reducible apply kept_delEntry | with_reducible apply kept_endFreeze
    | intro _ _ _ | split

theorem kept_lrnEvent {s₀ s : State} (h : Kept s₀ s) (r : Nat) (b : Nat) : Kept s₀ (lrnEvent s r b) := by
  unfold lrnEvent
  repeat' first | with_reducible assumption | with_reducible apply kept_pavEvent

theorem kept_hitEntry {s₀ s : State} (h : Kept s₀ s) (r : Nat) (pl : Nat) : Kept s₀ (hitEntry s r pl) := by
  unfold hitEntry
  repeat' first
    | with_reducible assumption | with_reducible apply kept_lrnEvent | with_reducible apply kept_State_count | with_reducible apply kept_setRefQ
    | with_reducible exact Nat.le_refl _ | split | with_reducible apply Kept.upd

theorem kept_holdSlot {s₀ s : State} (h : Kept s₀ s) (st : Bool) (k : List Word) (c : Nat) :
    ∀ t, holdSlot s st k c = some t → Kept s₀ t.1 := by
  unfold holdSlot
  intro t e
  cases hp : newPlace s st k with
  | none => rw [hp] at e; cases e
  | some p =>
    rw [hp] at e
    cases e
    with_reducible apply Kept.upd
    · exact h
    · exact Nat.le_refl _
    · exact Nat.le_refl _

theorem kept_insertEntry {s₀ s : State} (h : Kept s₀ s) (st : Bool) (e : List Word) : Kept s₀ (insertEntry s st e).1 := by
  unfold insertEntry
  try dsimp only
  repeat' first
    | with_reducible assumption | with_reducible apply kept_endFreeze | with_reducible apply kept_putEntry | with_reducible apply kept_tblEvent
    | split

theorem kept_locksChanged {s₀ s : State} (h : Kept s₀ s) (old : Word) : Kept s₀ (locksChanged s old) := by
  unfold locksChanged
  repeat' first
    | with_reducible assumption | with_reducible apply kept_forEach | with_reducible exact Nat.le_refl _ | intro _ _ _ | split
    | with_reducible apply Kept.upd

theorem kept_putGroup {s₀ s : State} (h : Kept s₀ s) (g : Nat) (e : List Word) : Kept s₀ (putGroup s g e) := by
  unfold putGroup
  repeat' first | with_reducible assumption | with_reducible exact Nat.le_refl _ | with_reducible apply Kept.upd

theorem kept_repairAt {s₀ s : State} (h : Kept s₀ s) (r : Nat) (pl : Nat) : Kept s₀ (repairAt s r pl) := by
  unfold repairAt
  repeat' first
    | with_reducible assumption | with_reducible apply kept_windowHit | with_reducible apply kept_tblEvent | with_reducible apply kept_State_count
    | with_reducible exact Nat.le_refl _ | split | with_reducible apply Kept.upd

theorem kept_repairFound {s₀ s : State} (h : Kept s₀ s) (r : Nat) (pl : Nat) : Kept s₀ (repairFound s r pl) := by
  unfold repairFound
  repeat' first | with_reducible assumption | with_reducible apply kept_repairAt | split

theorem kept_setLearnQ {s₀ s : State} (h : Kept s₀ s) (r : Nat) (l : List Learn) : Kept s₀ (setLearnQ s r l) := by
  unfold setLearnQ
  repeat' first | with_reducible assumption | with_reducible exact Nat.le_refl _ | with_reducible apply Kept.upd

theorem kept_queueLearn {s₀ : State} {s0 : State} (h : Kept s₀ s0) (p : Nat) (vid : Nat) (mac : Nat) : Kept s₀ (queueLearn s0 p vid mac) := by
  unfold queueLearn
  try dsimp only
  repeat' first
    | with_reducible assumption | with_reducible apply kept_repairFound | with_reducible apply kept_State_count | with_reducible apply kept_lrnEvent
    | with_reducible apply kept_setLearnQ | split

theorem kept_refreshGroup {s₀ s : State} (h : Kept s₀ s) (g : Nat) (drop : optParam Bool false) : Kept s₀ (refreshGroup s g drop) := by
  unfold refreshGroup
  repeat' first | with_reducible assumption | with_reducible apply kept_putGroup | split

theorem kept_refreshGroups {s₀ s : State} (h : Kept s₀ s) : Kept s₀ (refreshGroups s) := by
  unfold refreshGroups
  repeat' first | with_reducible assumption | with_reducible apply kept_forEach | with_reducible apply kept_refreshGroup | intro _ _ _

theorem kept_releaseHeld {s₀ s : State} (h : Kept s₀ s) (c : Nat) : Kept s₀ (releaseHeld s c) := by
  unfold releaseHeld
  repeat' first | with_reducible assumption | with_reducible exact Nat.le_refl _ | with_reducible apply Kept.upd

theorem kept_reloadReplica {s₀ s : State} (h : Kept s₀ s) (r : Nat) (ok : Nat → Bool) : Kept s₀ (reloadReplica s r ok) := by
  unfold reloadReplica
  repeat' first | with_reducible assumption | with_reducible exact Nat.le_refl _ | with_reducible apply Kept.upd

theorem kept_writeEntry {s₀ s : State} (h : Kept s₀ s) (t : Nat) (i : Nat) (e : List Word) : Kept s₀ (writeEntry s t i e) := by
  unfold writeEntry
  repeat' first
    | with_reducible assumption | with_reducible apply kept_putGroup | with_reducible apply kept_endFreeze | with_reducible apply kept_putEntry
    | split

theorem kept_abortStamped {s₀ s : State} (h : Kept s₀ s) (x : Option (Nat × Nat)) : Kept s₀ (abortStamped s x) := by
  unfold abortStamped
  repeat' first | with_reducible assumption | with_reducible apply kept_complete | split

theorem kept_countQueue {s₀ s : State} (h : Kept s₀ s) (p : Nat) (t : Nat) (o : Nat) : Kept s₀ (countQueue s p t o) := by
  unfold countQueue
  repeat' first | with_reducible assumption | with_reducible apply kept_State_count | split

theorem kept_queEvent {s₀ s : State} (h : Kept s₀ s) (r : Nat) (b : Nat) : Kept s₀ (queEvent s r b) := by
  unfold queEvent
  repeat' first | with_reducible assumption | with_reducible apply kept_pavEvent

theorem kept_dropCopy {s₀ s : State} (h : Kept s₀ s) (x : XFrame) (p : Nat) (o : Nat) : Kept s₀ (dropCopy s x p o) := by
  unfold dropCopy
  repeat' first
    | with_reducible assumption | with_reducible apply kept_countQueue | with_reducible apply kept_State_count | with_reducible apply kept_perfCount
    | with_reducible apply kept_queEvent | with_reducible apply kept_abortStamped | split

theorem kept_noteDepth {s₀ s : State} (h : Kept s₀ s) (p : Nat) (t : Nat) : Kept s₀ (noteDepth s p t) := by
  unfold noteDepth
  repeat' first | with_reducible assumption | with_reducible exact Nat.le_refl _ | split | with_reducible apply Kept.upd

theorem kept_setQueue {s₀ s : State} (h : Kept s₀ s) (p : Nat) (t : Nat) (l : List Copy) : Kept s₀ (setQueue s p t l) := by
  unfold setQueue
  repeat' first
    | with_reducible assumption | with_reducible apply kept_noteDepth | with_reducible exact Nat.le_refl _ | with_reducible apply Kept.upd

theorem kept_judgePool {s₀ : State} {b : State} {s : State} (h : Kept s₀ s) (_hb : Kept s₀ b) (r : Nat) : Kept s₀ (judgePool b s r) := by
  unfold judgePool
  repeat' first | with_reducible assumption | with_reducible apply kept_queEvent | split

theorem kept_takeShared {s₀ s : State} (h : Kept s₀ s) (f : Frame) (r : Nat) : Kept s₀ (takeShared s f r) := by
  unfold takeShared
  repeat' first
    | with_reducible assumption | with_reducible apply kept_judgePool | with_reducible exact Nat.le_refl _ | with_reducible apply Kept.upd

theorem kept_enqueue {s₀ s : State} (h : Kept s₀ s) (x : XFrame) (p : Nat) (tier : Bool) (sh : Bool) : Kept s₀ (enqueue s x p tier sh) := by
  unfold enqueue
  repeat' first
    | with_reducible assumption | with_reducible apply kept_countQueue | with_reducible apply kept_setQueue | with_reducible apply kept_takeShared
    | with_reducible apply kept_perfCount | split

theorem kept_admitCopy {s₀ s : State} (h : Kept s₀ s) (x : XFrame) (p : Nat) : Kept s₀ (admitCopy s x p) := by
  unfold admitCopy
  repeat' first
    | with_reducible assumption | with_reducible apply Kept.ite | with_reducible apply kept_dropCopy | with_reducible apply kept_enqueue
    | with_reducible apply kept_perfCount | with_reducible exact Nat.le_refl _ | split | with_reducible apply Kept.upd

theorem kept_admitAll {s₀ s : State} (h : Kept s₀ s) (x : XFrame) : Kept s₀ (admitAll s x) := by
  unfold admitAll
  repeat' first
    | with_reducible assumption | with_reducible apply Kept.ite | with_reducible apply kept_forEach | with_reducible apply kept_admitCopy
    | intro _ _ _

theorem kept_lookKey {s₀ s : State} (h : Kept s₀ s) (r : Nat) (st : Bool) (k : List Word) : Kept s₀ (lookKey s r st k).1 := by
  unfold lookKey
  repeat' first | with_reducible assumption | with_reducible apply kept_repairFound | with_reducible apply kept_hitEntry | split

theorem kept_resolveFrame {s₀ s : State} (h : Kept s₀ s) (r : Nat) (vid : Nat) (h' : Hdr) (streams : Bool) (flood : Target) :
    Kept s₀ (resolveFrame s r vid h' streams flood).1 := by
  unfold resolveFrame
  try dsimp only
  repeat' first | with_reducible assumption | with_reducible apply kept_lookKey | split

theorem kept_portLookup {s₀ s : State} (h : Kept s₀ s) (p : Nat) (h' : Hdr) : Kept s₀ (portLookup s p h').1 := by
  unfold portLookup
  try dsimp only
  repeat' first
    | with_reducible assumption | with_reducible apply kept_resolveFrame | with_reducible apply kept_perfCount
    | with_reducible apply kept_State_count | split

theorem kept_countDrop {s₀ s : State} (h : Kept s₀ s) (ing : Nat) : Kept s₀ (countDrop s ing) := by
  unfold countDrop
  repeat' first | with_reducible assumption | with_reducible apply kept_State_count | split

theorem kept_pushFifo {s₀ s : State} (h : Kept s₀ s) (e : Nat) (x : XFrame) : Kept s₀ (pushFifo s e x) := by
  unfold pushFifo
  repeat' first | with_reducible assumption | with_reducible exact Nat.le_refl _ | with_reducible apply Kept.upd

theorem kept_sendTo {s₀ s : State} (h : Kept s₀ s) (f : Frame) (ports : List Nat) (mc : Bool) (ct : Bool) (done : Option (Nat × Nat)) :
    Kept s₀ (sendTo s f ports mc ct done) := by
  unfold sendTo
  try dsimp only
  repeat' first
    | with_reducible assumption | with_reducible apply kept_forEach | with_reducible apply kept_admitAll | with_reducible apply kept_pushFifo
    | intro _ _ _ | split

theorem kept_forward {s₀ : State} {s0 : State} (h : Kept s₀ s0) (f : Frame) (toward : Target) (ct : Bool) (done : Option (Nat × Nat)) :
    Kept s₀ (forward s0 f toward ct done) := by
  unfold forward
  try dsimp only
  repeat' first
    | with_reducible assumption | with_reducible apply kept_repairFound | with_reducible apply kept_abortStamped
    | with_reducible apply kept_countDrop | with_reducible apply kept_State_count | with_reducible apply kept_sendTo | split

theorem kept_computeFrame {s₀ s : State} (h : Kept s₀ s) (r : Nat) (cls : Nat) (body : List Byte) : Kept s₀ (computeFrame s r cls body) := by
  unfold computeFrame
  repeat' first
    | with_reducible assumption | with_reducible apply kept_portLookup | with_reducible apply kept_forward | with_reducible exact Nat.le_refl _
    | with_reducible apply Kept.upd

theorem kept_releaseCopy {s₀ s : State} (h : Kept s₀ s) (c : Copy) : Kept s₀ (releaseCopy s c) := by
  unfold releaseCopy
  repeat' first | with_reducible assumption | with_reducible exact Nat.le_refl _ | split | with_reducible apply Kept.upd

theorem kept_copySent {s₀ s : State} (h : Kept s₀ s) (p : Nat) (c : Copy) (bytes : List Byte) (stamp : Option Nat) (start : Nat) :
    Kept s₀ (copySent s p c bytes stamp start) := by
  unfold copySent
  repeat' first
    | with_reducible assumption | with_reducible apply kept_State_count64 | with_reducible apply kept_State_count
    | with_reducible apply kept_releaseCopy | with_reducible apply kept_State_emit | with_reducible apply kept_histSample
    | with_reducible apply kept_complete | split

theorem kept_cutLine {s₀ s : State} (h : Kept s₀ s) (p : Nat) : Kept s₀ (cutLine s p) := by
  unfold cutLine
  try dsimp only
  repeat' first
    | with_reducible assumption | with_reducible apply kept_forEach | with_reducible apply kept_setPortRec | with_reducible apply kept_abortStamped
    | with_reducible apply kept_State_count | with_reducible apply kept_releaseCopy | intro _ _ _ | split

theorem kept_dropGated {s₀ s : State} (h : Kept s₀ s) (p : Nat) (t : Nat) (x3 : Nat) : Kept s₀ (dropGated s p t x3) := by
  induction x3 generalizing s p t with
  | zero => exact h
  | succ n ih =>
    unfold dropGated
    try dsimp only
    repeat' first
      | with_reducible assumption | with_reducible apply ih | with_reducible apply kept_releaseCopy | with_reducible apply kept_setQueue
      | with_reducible apply kept_abortStamped | with_reducible apply kept_queEvent | with_reducible apply kept_State_count | split

theorem kept_endMove {s₀ s : State} (h : Kept s₀ s) (p : Nat) (t : Nat) : Kept s₀ (endMove s p t) := by
  unfold endMove
  repeat' first | with_reducible assumption | with_reducible apply kept_State_wr | split

theorem kept_setPortSw {s₀ s : State} (h : Kept s₀ s) (p : Nat) (x : PortSw) : Kept s₀ (setPortSw s p x) := by
  unfold setPortSw
  repeat' first | with_reducible assumption | with_reducible exact Nat.le_refl _ | with_reducible apply Kept.upd

theorem kept_finishTx {s₀ s : State} (h : Kept s₀ s) (p : Nat) : Kept s₀ (finishTx s p) := by
  unfold finishTx
  try dsimp only
  repeat' first | with_reducible assumption | with_reducible apply kept_setPortSw | with_reducible apply kept_copySent | split

theorem kept_flushPort {s₀ s : State} (h : Kept s₀ s) (p : Nat) : Kept s₀ (flushPort s p) := by
  unfold flushPort
  repeat' first
    | with_reducible assumption | with_reducible apply kept_finishTx | with_reducible apply kept_setPortSw | with_reducible apply kept_abortStamped
    | with_reducible apply kept_State_count | with_reducible apply kept_releaseCopy | with_reducible apply kept_cutLine
    | with_reducible apply kept_forEach | with_reducible apply kept_setQueue | with_reducible apply kept_endMove | intro _ _ _ | split

theorem kept_macEvent {s₀ s : State} (h : Kept s₀ s) (p : Nat) (b : Nat) : Kept s₀ (macEvent s p b) := by
  unfold macEvent
  repeat' first | with_reducible assumption | with_reducible apply kept_pavEvent

theorem kept_popFifo {s₀ s : State} (h : Kept s₀ s) (k : Nat) : Kept s₀ (popFifo s k) := by
  unfold popFifo
  repeat' first | with_reducible assumption | with_reducible exact Nat.le_refl _ | with_reducible apply Kept.upd

theorem kept_portComesUp {s₀ s : State} (h : Kept s₀ s) (p : Nat) : Kept s₀ (portComesUp s p) := by
  unfold portComesUp
  repeat' first | with_reducible assumption | with_reducible apply kept_macEvent | with_reducible apply kept_State_setFlag | split

theorem kept_portDown {s₀ s : State} (h : Kept s₀ s) (p : Nat) : Kept s₀ (portDown s p) := by
  unfold portDown
  try dsimp only
  repeat' first
    | with_reducible assumption | with_reducible apply kept_macEvent | with_reducible apply kept_State_count
    | with_reducible apply kept_State_setFlag | with_reducible apply kept_queEvent | with_reducible apply kept_flushPort
    | with_reducible exact Nat.le_refl _ | split | with_reducible apply Kept.upd

theorem kept_showGate {s₀ s : State} (h : Kept s₀ s) (p : Nat) : Kept s₀ (showGate s p) := by
  unfold showGate
  repeat' first | with_reducible assumption | with_reducible apply kept_State_wr | split

theorem kept_streamCopy {s₀ s : State} (h : Kept s₀ s) (p : Nat) (c : Copy) (bs : List Byte) : Kept s₀ (streamCopy s p c bs) := by
  unfold streamCopy
  repeat' first | with_reducible assumption | with_reducible apply kept_setPortRec | split

theorem kept_startTx {s₀ s : State} (h : Kept s₀ s) (p : Nat) (t : Nat) (x : PortSw) : Kept s₀ (startTx s p t x) := by
  unfold startTx
  repeat' first
    | with_reducible assumption | with_reducible apply kept_streamCopy | with_reducible apply kept_setPortSw | with_reducible apply kept_setQueue
    | with_reducible apply kept_perfCount | with_reducible apply kept_State_count | split

theorem kept_streamFrame {s₀ s : State} (h : Kept s₀ s) (p : Nat) (cls : Nat) (bs : List Byte) (cut : Bool) :
    Kept s₀ (streamFrame s p cls bs cut) := by
  unfold streamFrame
  repeat' first | with_reducible assumption | with_reducible apply kept_setPortRec | split

theorem kept_tickCycles {s₀ s : State} (h : Kept s₀ s) (dt : Nat) : Kept s₀ (tickCycles s dt) := by
  unfold tickCycles
  repeat' first | with_reducible assumption | with_reducible apply kept_forEach | with_reducible apply kept_perfCount | intro _ _ _ | split

theorem kept_tickPorts {s₀ s : State} (h : Kept s₀ s) (dt : Nat) : Kept s₀ (tickPorts s dt) := by
  unfold tickPorts
  try dsimp only
  repeat' first
    | with_reducible assumption | with_reducible apply Kept.ite | with_reducible apply kept_forEach | with_reducible apply kept_tickCycles
    | with_reducible apply kept_setPortSw | with_reducible apply kept_showGate | with_reducible apply kept_finishTx | intro _ _ _ | split

theorem kept_setCalItem {s₀ s : State} (h : Kept s₀ s) (k : Nat) (i : Nat) (x : CalItem) : Kept s₀ (setCalItem s k i x) := by
  unfold setCalItem
  repeat' first | with_reducible assumption | with_reducible exact Nat.le_refl _ | with_reducible apply Kept.upd

theorem kept_abandonRun {s₀ s : State} (h : Kept s₀ s) (k : Nat) (i : Nat) (again : Bool) : Kept s₀ (abandonRun s k i again) := by
  unfold abandonRun
  repeat' first | with_reducible assumption | with_reducible apply kept_setCalItem | split

theorem kept_beginMove {s₀ s : State} (h : Kept s₀ s) (k : Nat) (i : Nat) (moving : Bool) : Kept s₀ (beginMove s k i moving) := by
  unfold beginMove
  repeat' first | with_reducible assumption | with_reducible exact Nat.le_refl _ | split | with_reducible apply Kept.upd

theorem kept_endRun {s₀ s : State} (h : Kept s₀ s) (k : Nat) (i : Nat) (d : Int) : Kept s₀ (endRun s k i d) := by
  unfold endRun
  repeat' first | with_reducible assumption | with_reducible apply kept_setCalItem

theorem kept_acceptAsym {s₀ s : State} (h : Kept s₀ s) (p : Nat) (num : Int) (den : Nat) : Kept s₀ (acceptAsym s p num den) := by
  unfold acceptAsym
  repeat' first
    | with_reducible assumption | with_reducible apply kept_beginMove | with_reducible apply kept_endRun | with_reducible apply kept_storeRecord
    | with_reducible apply kept_State_wr

theorem kept_acceptOffset {s₀ s : State} (h : Kept s₀ s) (i : Nat) (v0 : Int) (v1 : Int) : Kept s₀ (acceptOffset s i v0 v1) := by
  unfold acceptOffset
  repeat' first
    | with_reducible assumption | with_reducible apply kept_beginMove | with_reducible apply kept_endRun | with_reducible apply kept_storeRecord
    | with_reducible apply kept_setTdcCh

theorem kept_setLaneNow {s₀ s : State} (h : Kept s₀ s) (l : Nat) (x : LaneNow) : Kept s₀ (setLaneNow s l x) := by
  unfold setLaneNow
  repeat' first | with_reducible assumption | with_reducible exact Nat.le_refl _ | with_reducible apply Kept.upd

theorem kept_loadLane {s₀ s : State} (h : Kept s₀ s) (l : Nat) (rate : Nat) : Kept s₀ (loadLane s l rate) := by
  unfold loadLane
  repeat' first | with_reducible assumption | with_reducible apply kept_setLaneNow

theorem kept_acceptTrunk {s₀ s : State} (h : Kept s₀ s) (i : Nat) (v0 : Int) (v1 : Int) : Kept s₀ (acceptTrunk s i v0 v1) := by
  unfold acceptTrunk
  repeat' first
    | with_reducible assumption | with_reducible apply kept_endRun | with_reducible apply kept_setLaneNow | with_reducible apply kept_beginMove
    | with_reducible apply kept_loadLane | with_reducible apply kept_storeRecord | with_reducible exact Nat.le_refl _ | split
    | with_reducible apply Kept.upd

theorem kept_askRanging {s₀ s : State} (h : Kept s₀ s) (p : Nat) : Kept s₀ (askRanging s p) := by
  unfold askRanging
  repeat' first
    | with_reducible assumption | with_reducible apply kept_State_setFlag | with_reducible apply kept_State_setFld
    | with_reducible apply kept_startGrotto | with_reducible apply kept_State_wr | split

theorem kept_startCal {s₀ s : State} (h : Kept s₀ s) (k : Nat) (i : Nat) : Kept s₀ (startCal s k i) := by
  unfold startCal
  repeat' first | with_reducible assumption | with_reducible apply kept_setCalItem | with_reducible apply kept_askRanging | split

theorem kept_askCal {s₀ s : State} (h : Kept s₀ s) (k : Nat) (i : Nat) : Kept s₀ (askCal s k i) := by
  unfold askCal
  repeat' first | with_reducible assumption | with_reducible apply kept_startCal | with_reducible apply kept_setCalItem | split

theorem kept_letFinish {s₀ s : State} (h : Kept s₀ s) (was : Bool) (i : Nat) : Kept s₀ (letFinish s was i) := by
  unfold letFinish
  repeat' first | with_reducible assumption | with_reducible exact Nat.le_refl _ | split | with_reducible apply Kept.upd

theorem kept_calCtrlWritten {s₀ : State} {b : State} {s : State} (h : Kept s₀ s) (_hb : Kept s₀ b) : Kept s₀ (calCtrlWritten b s) := by
  unfold calCtrlWritten
  repeat' first
    | with_reducible assumption | with_reducible apply kept_forEach | with_reducible apply kept_abandonRun | with_reducible apply kept_letFinish
    | intro _ _ _ | split

theorem kept_calLaneStop {s₀ s : State} (h : Kept s₀ s) (l : Nat) : Kept s₀ (calLaneStop s l) := by
  unfold calLaneStop
  repeat' first | with_reducible assumption | with_reducible apply kept_abandonRun

theorem kept_calStop {s₀ s : State} (h : Kept s₀ s) : Kept s₀ (calStop s) := by
  unfold calStop
  repeat' first | with_reducible assumption | with_reducible apply kept_forEach | with_reducible apply kept_abandonRun | intro _ _ _ | split

theorem kept_discardRun {s₀ s : State} (h : Kept s₀ s) (k : Nat) (i : Nat) (diff : Nat) : Kept s₀ (discardRun s k i diff) := by
  unfold discardRun
  repeat' first | with_reducible assumption | with_reducible apply kept_calDisagree | with_reducible apply kept_setCalItem

theorem kept_laneLocked {s₀ s : State} (h : Kept s₀ s) (l : Nat) : Kept s₀ (laneLocked s l) := by
  unfold laneLocked
  repeat' first | with_reducible assumption | with_reducible exact Nat.le_refl _ | split | with_reducible apply Kept.upd

theorem kept_laneRateChanged {s₀ s : State} (h : Kept s₀ s) (l : Nat) (rate : Nat) : Kept s₀ (laneRateChanged s l rate) := by
  unfold laneRateChanged
  repeat' first
    | with_reducible assumption | with_reducible apply kept_calLaneStop | with_reducible apply kept_loadLane | with_reducible exact Nat.le_refl _
    | with_reducible apply Kept.upd

theorem kept_loadAll {s₀ : State} {p : State × Bool} (g : Nat → State → State × Bool) (l : List Nat) (h : Kept s₀ p.1)
    (hg : ∀ i t, Kept s₀ t → Kept s₀ (g i t).1) : Kept s₀ (loadAll g l p).1 := by
  induction l generalizing p with
  | nil => exact h
  | cons i l ih => exact ih (p := ((g i p.1).1, _)) (hg _ _ h)

theorem kept_loadOne {s₀ s : State} (h : Kept s₀ s) (kind : Nat) (item : Nat) (rate : Nat) (f : State → Word → Word → State) (dflt : State → State) (hf : ∀ y0 y1 y2, Kept s₀ y0 → Kept s₀ (f y0 y1 y2)) (hdflt : ∀ y0, Kept s₀ y0 → Kept s₀ (dflt y0)) :
    Kept s₀ (loadOne s kind item rate f dflt).1 := by
  unfold loadOne
  repeat' first | with_reducible assumption | with_reducible apply hf | with_reducible apply hdflt | split

theorem kept_loadCal {s₀ s : State} (h : Kept s₀ s) : Kept s₀ (loadCal s) := by
  have hp : Kept s₀ (s, true).1 := h
  unfold loadCal
  extract_lets p1 p2 p3 p4
  have h1 : Kept s₀ p1.1 := by
    with_reducible apply kept_loadAll _ _ hp
    intro n t ht
    with_reducible apply kept_loadOne ht
    · intro u a b hu
      with_reducible apply kept_State_wr
      with_reducible apply kept_State_wr
      with_reducible apply kept_setTdcCh
      assumption
    · exact fun _ hu => hu
  clear_value p1
  have h2 : Kept s₀ p2.1 := by
    with_reducible apply kept_loadAll _ _ h1
    intro n t ht
    with_reducible apply kept_loadOne ht
    · intro u a b hu
      with_reducible apply kept_State_wr
      with_reducible apply kept_State_wr
      with_reducible apply kept_setTdcCh
      assumption
    · exact fun _ hu => hu
  clear_value p2
  have h3 : Kept s₀ p3.1 := by
    with_reducible apply kept_loadAll _ _ h2
    intro n t ht
    dsimp only
    with_reducible apply kept_loadOne ht
    · intro u a b hu
      with_reducible apply Kept.upd hu
      · with_reducible exact Nat.le_refl _
      · with_reducible exact Nat.le_refl _
    · exact fun _ hu => hu
  clear_value p3
  have h4 : Kept s₀ p4.1 := by
    with_reducible apply kept_loadAll _ _ h3
    intro n t ht
    with_reducible apply kept_loadOne ht
    · intro u _ b hu
      with_reducible apply kept_State_wr
      with_reducible apply kept_State_wr
      assumption
    · intro u hu
      with_reducible apply kept_State_wr
      with_reducible apply kept_State_wr
      assumption
  clear_value p4
  with_reducible apply Kept.ite
  · assumption
  · with_reducible apply kept_tdcEvent
    assumption

theorem kept_stepMade {s₀ s : State} (h : Kept s₀ s) (k : Nat) (i : Nat) : Kept s₀ (stepMade s k i) := by
  unfold stepMade
  repeat' first | with_reducible assumption | with_reducible exact Nat.le_refl _ | with_reducible apply Kept.upd

theorem kept_engineCommits {s₀ s : State} (h : Kept s₀ s) (m : Nat) (k : Nat) : Kept s₀ (engineCommits s m k) := by
  unfold engineCommits
  repeat' first | with_reducible assumption | with_reducible apply kept_perfCount

theorem kept_execAgeDeleteCommit {s₀ s : State} (h : Kept s₀ s) : KeptR s₀ (execAgeDeleteCommit s) := by
  unfold execAgeDeleteCommit
  repeat' first
    | with_reducible assumption | with_reducible apply KeptR.ite | with_reducible apply KeptR.next | with_reducible apply kept_engineCommits
    | with_reducible apply kept_commitDel | with_reducible exact Nat.le_refl _ | split | with_reducible apply Kept.upd

theorem kept_execAgeTick {s₀ s : State} (h : Kept s₀ s) : KeptR s₀ (execAgeTick s) := by
  unfold execAgeTick
  repeat' first
    | with_reducible assumption | with_reducible apply KeptR.ite | with_reducible apply KeptR.next | with_reducible apply kept_State_wr
    | with_reducible exact Nat.le_refl _ | with_reducible apply Kept.upd

theorem kept_execAgerVisit {s₀ s : State} (h : Kept s₀ s) (stream : Bool) (i : BitVec 20) : KeptR s₀ (execAgerVisit stream i s) := by
  unfold execAgerVisit
  repeat' first
    | with_reducible assumption | with_reducible apply KeptR.ite | with_reducible apply KeptR.next | with_reducible apply kept_agerVisit | split

theorem kept_execFlapHoldEnd {s₀ s : State} (h : Kept s₀ s) (vid : BitVec 12) (mac : BitVec 48) : KeptR s₀ (execFlapHoldEnd vid mac s) := by
  unfold execFlapHoldEnd
  repeat' first
    | with_reducible assumption | with_reducible apply KeptR.ite | with_reducible apply KeptR.next | with_reducible apply kept_refreshAt
    | with_reducible apply kept_alterEntry | with_reducible apply kept_dropTrack | split

theorem kept_execLearnCommit {s₀ s : State} (h : Kept s₀ s) : KeptR s₀ (execLearnCommit s) := by
  unfold execLearnCommit
  repeat' first
    | with_reducible assumption | with_reducible apply KeptR.ite | with_reducible apply KeptR.next | with_reducible apply kept_setLearnQ
    | with_reducible apply kept_engineCommits | with_reducible apply kept_commitLearn | with_reducible exact Nat.le_refl _ | split
    | with_reducible apply Kept.upd

theorem kept_execLockExpired {s₀ s : State} (h : Kept s₀ s) (b : Fin 8) : KeptR s₀ (execLockExpired b s) := by
  unfold execLockExpired
  repeat' first
    | with_reducible assumption | with_reducible apply KeptR.ite | with_reducible apply KeptR.next | with_reducible apply kept_tblEvent
    | with_reducible apply kept_locksChanged | with_reducible apply kept_State_setFlag | split

theorem kept_execMoveWindowExpiry {s₀ s : State} (h : Kept s₀ s) (vid : BitVec 12) (mac : BitVec 48) : KeptR s₀ (execMoveWindowExpiry vid mac s) := by
  unfold execMoveWindowExpiry
  repeat' first | with_reducible assumption | with_reducible apply KeptR.ite | with_reducible apply KeptR.next | with_reducible apply kept_dropTrack

theorem kept_execPortDownTableFlush {s₀ s : State} (h : Kept s₀ s) (p : Fin 128) : KeptR s₀ (execPortDownTableFlush p s) := by
  unfold execPortDownTableFlush
  repeat' first
    | with_reducible assumption | with_reducible apply KeptR.ite | with_reducible apply KeptR.next | with_reducible apply kept_flushOpen
    | with_reducible apply kept_engineCommits | with_reducible exact Nat.le_refl _ | split | with_reducible apply Kept.upd

theorem kept_execRefreshCommit {s₀ s : State} (h : Kept s₀ s) (r : Fin 8) : KeptR s₀ (execRefreshCommit r s) := by
  unfold execRefreshCommit
  repeat' first
    | with_reducible assumption | with_reducible apply KeptR.ite | with_reducible apply KeptR.next | with_reducible apply kept_engineCommits
    | with_reducible apply kept_commitRefresh

theorem kept_tdDone {s₀ s : State} (h : Kept s₀ s) (n : Nat) (desc : Nat) (code : Nat) (info : Word) : Kept s₀ (tdDone s n desc code info) := by
  unfold tdDone
  repeat' first | with_reducible assumption | with_reducible apply kept_complete

theorem kept_tdTake {s₀ s : State} (h : Kept s₀ s) (n : Nat) (d : List Word) (mine : Bool) (serve : State → Nat → State) (hserve : ∀ y0 y1, Kept s₀ y0 → Kept s₀ (serve y0 y1)) :
    Kept s₀ (tdTake s n d mine serve) := by
  unfold tdTake
  try dsimp only
  repeat' first
    | with_reducible assumption | with_reducible apply hserve | with_reducible apply kept_takeDesc | with_reducible apply kept_tdDone | split

theorem kept_execSnapshotRead {s₀ s : State} (h : Kept s₀ s) (n : Fin 256) (d : List Word) : KeptR s₀ (execSnapshotRead n d s) := by
  unfold execSnapshotRead
  try dsimp only
  repeat' first
    | with_reducible assumption | with_reducible apply KeptR.ite | with_reducible apply KeptR.next | with_reducible apply kept_tdTake
    | with_reducible apply kept_tdDone | with_reducible apply kept_State_emit | with_reducible exact Nat.le_refl _
    | with_reducible exact Nat.le_add_right _ _ | intro _ _ _ | split | with_reducible apply Kept.upd

theorem kept_execTableDelete {s₀ s : State} (h : Kept s₀ s) (n : Fin 256) (d : List Word) (data : List Word) :
    KeptR s₀ (execTableDelete n d data s) := by
  unfold execTableDelete
  repeat' first
    | with_reducible assumption | with_reducible apply KeptR.ite | with_reducible apply KeptR.next | with_reducible apply kept_tdTake
    | with_reducible apply kept_deleteEntry | with_reducible apply kept_tdDone | with_reducible apply kept_engineCommits | intro _ _ _

theorem kept_execTableFlush {s₀ s : State} (h : Kept s₀ s) (n : Fin 256) (d : List Word) : KeptR s₀ (execTableFlush n d s) := by
  unfold execTableFlush
  repeat' first
    | with_reducible assumption | with_reducible apply KeptR.ite | with_reducible apply KeptR.next | with_reducible apply kept_tdTake
    | with_reducible exact Nat.le_refl _ | intro _ _ _ | with_reducible apply Kept.upd

theorem kept_visitFlush {s₀ s : State} (h : Kept s₀ s) (x : Flush) : Kept s₀ (visitFlush s x) := by
  unfold visitFlush
  repeat' first
    | with_reducible assumption | with_reducible apply kept_flushOpen | with_reducible apply kept_engineCommits | with_reducible apply kept_tdDone
    | with_reducible exact Nat.le_refl _ | split | with_reducible apply Kept.upd

theorem kept_execTableFlushDone {s₀ s : State} (h : Kept s₀ s) : KeptR s₀ (execTableFlushDone s) := by
  unfold execTableFlushDone
  repeat' first
    | with_reducible assumption | with_reducible apply KeptR.ite | with_reducible apply KeptR.next | with_reducible apply kept_forEach
    | with_reducible apply kept_visitFlush | with_reducible exact Nat.le_refl _ | intro _ _ _ | with_reducible apply Kept.upd

theorem kept_execTableInsert {s₀ s : State} (h : Kept s₀ s) (n : Fin 256) (d : List Word) (data : List Word) :
    KeptR s₀ (execTableInsert n d data s) := by
  unfold execTableInsert
  try dsimp only
  repeat' first
    | with_reducible assumption | with_reducible apply KeptR.ite | with_reducible apply KeptR.next | with_reducible apply kept_tdTake
    | with_reducible apply kept_tdDone | with_reducible apply kept_insertEntry | with_reducible apply kept_engineCommits | intro _ _ _ | split

theorem kept_execTableRead {s₀ s : State} (h : Kept s₀ s) (n : Fin 256) (d : List Word) : KeptR s₀ (execTableRead n d s) := by
  unfold execTableRead
  repeat' first
    | with_reducible assumption | with_reducible apply KeptR.ite | with_reducible apply KeptR.next | with_reducible apply kept_tdTake
    | with_reducible apply kept_tdDone | with_reducible apply kept_State_emit | intro _ _ _ | split

theorem kept_execTableSearch {s₀ s : State} (h : Kept s₀ s) (n : Fin 256) (d : List Word) (data : List Word) :
    KeptR s₀ (execTableSearch n d data s) := by
  unfold execTableSearch
  try dsimp only
  repeat' first
    | with_reducible assumption | with_reducible apply KeptR.ite | with_reducible apply KeptR.next | with_reducible apply kept_tdTake
    | with_reducible apply kept_tdDone | with_reducible apply kept_State_emit | intro _ _ _ | split

theorem kept_execTableWrite {s₀ s : State} (h : Kept s₀ s) (n : Fin 256) (d : List Word) (data : List Word) :
    KeptR s₀ (execTableWrite n d data s) := by
  unfold execTableWrite
  try dsimp only
  repeat' first
    | with_reducible assumption | with_reducible apply KeptR.ite | with_reducible apply KeptR.next | with_reducible apply kept_tdTake
    | with_reducible apply kept_tdDone | with_reducible apply kept_forEach | with_reducible apply kept_writeEntry
    | with_reducible apply kept_engineCommits | intro _ _ _ | split

theorem kept_bstEvent {s₀ s : State} (h : Kept s₀ s) (c : Nat) (b : Nat) : Kept s₀ (bstEvent s c b) := by
  unfold bstEvent
  repeat' first | with_reducible assumption | with_reducible apply kept_pavEvent

theorem kept_setCell {s₀ s : State} (h : Kept s₀ s) (c : Nat) (x : CellSt) : Kept s₀ (setCell s c x) := by
  unfold setCell
  repeat' first | with_reducible assumption | with_reducible exact Nat.le_refl _ | with_reducible apply Kept.upd

theorem kept_settleCell {s₀ s : State} (h : Kept s₀ s) (c : Nat) : Kept s₀ (settleCell s c) := by
  unfold settleCell
  try dsimp only
  repeat' first | with_reducible assumption | with_reducible apply kept_bstEvent | with_reducible apply kept_setCell | split

theorem kept_setJob {s₀ s : State} (h : Kept s₀ s) (h' : Nat) (j : Job) : Kept s₀ (setJob s h' j) := by
  unfold setJob
  repeat' first | with_reducible assumption | with_reducible exact Nat.le_refl _ | with_reducible apply Kept.upd

theorem kept_abandonMove {s₀ s : State} (h : Kept s₀ s) (h' : Nat) (code : Nat) : Kept s₀ (abandonMove s h' code) := by
  unfold abandonMove
  repeat' first
    | with_reducible assumption | with_reducible apply kept_settleCell | with_reducible apply kept_plcEvent | with_reducible apply kept_State_count
    | with_reducible apply kept_refreshGroups | with_reducible apply kept_setJob | split

theorem kept_dropTaps {s₀ s : State} (h : Kept s₀ s) (ts : List Nat) : Kept s₀ (dropTaps s ts) := by
  unfold dropTaps
  repeat' first | with_reducible assumption | with_reducible exact Nat.le_refl _ | with_reducible apply Kept.upd

theorem kept_judgeCell {s₀ s : State} (h : Kept s₀ s) (c : Nat) : Kept s₀ (judgeCell s c) := by
  unfold judgeCell
  try dsimp only
  repeat' first | with_reducible assumption | with_reducible apply kept_setCell | with_reducible apply kept_plcEvent | split

theorem kept_judgeLoads {s₀ s : State} (h : Kept s₀ s) : Kept s₀ (judgeLoads s) := by
  unfold judgeLoads
  try dsimp only
  repeat' first
    | with_reducible assumption | with_reducible apply kept_forEach | with_reducible apply kept_judgeCell | with_reducible apply kept_plcEvent
    | with_reducible exact Nat.le_refl _ | intro _ _ _ | split | with_reducible apply Kept.upd

theorem kept_noRoom {s₀ s : State} (h : Kept s₀ s) : Kept s₀ (noRoom s) := by
  unfold noRoom
  repeat' first | with_reducible assumption | with_reducible apply kept_plcEvent | with_reducible apply kept_State_count

theorem kept_placeHomeless {s₀ s : State} (h : Kept s₀ s) : Kept s₀ (placeHomeless s) := by
  unfold placeHomeless
  repeat' first
    | with_reducible assumption | with_reducible apply kept_forEach | with_reducible apply kept_plcEvent | with_reducible apply kept_refreshGroups
    | with_reducible apply kept_setJob | intro _ _ _ | split

theorem kept_removeJob {s₀ s : State} (h : Kept s₀ s) (h' : Nat) (j : Job) : Kept s₀ (removeJob s h' j) := by
  unfold removeJob
  repeat' first
    | with_reducible assumption | with_reducible apply kept_dropTaps | with_reducible apply kept_settleCell
    | with_reducible apply kept_refreshGroups | with_reducible exact Nat.le_refl _ | split | with_reducible apply Kept.upd

theorem kept_replaceJob {s₀ s : State} (h : Kept s₀ s) (h' : Nat) : Kept s₀ (replaceJob s h') := by
  unfold replaceJob
  try dsimp only
  repeat' first
    | with_reducible assumption | with_reducible apply kept_setJob | with_reducible apply kept_State_drawn | with_reducible apply kept_plcEvent
    | with_reducible apply kept_refreshGroups | with_reducible apply kept_noRoom | split

theorem kept_setStream {s₀ s : State} (h : Kept s₀ s) (h' : Nat) (x : Stream) : Kept s₀ (setStream s h' x) := by
  unfold setStream
  repeat' first | with_reducible assumption | with_reducible exact Nat.le_refl _ | with_reducible apply Kept.upd

theorem kept_tickCells {s₀ s : State} (h : Kept s₀ s) (dt : Nat) : Kept s₀ (tickCells s dt) := by
  unfold tickCells
  repeat' first | with_reducible assumption | with_reducible apply kept_forEach | with_reducible apply kept_setCell | intro _ _ _ | split

theorem kept_evictJob {s₀ s : State} (h : Kept s₀ s) (c : Nat) (e : Nat × Job) : Kept s₀ (evictJob s c e) := by
  unfold evictJob
  repeat' first | with_reducible assumption | with_reducible apply kept_abandonMove | with_reducible apply kept_replaceJob | split

theorem kept_evictCell {s₀ s : State} (h : Kept s₀ s) (c : Nat) : Kept s₀ (evictCell s c) := by
  unfold evictCell
  repeat' first | with_reducible assumption | with_reducible apply kept_forEach | with_reducible apply kept_evictJob | intro _ _ _ | split

theorem kept_recordIsolate {s₀ s : State} (h : Kept s₀ s) (ty : BlkTy) (r : Nat) (inst : Nat) (code : Nat) :
    Kept s₀ (recordIsolate s ty r inst code) := by
  unfold recordIsolate
  repeat' first
    | with_reducible assumption | with_reducible apply kept_State_count | with_reducible apply kept_State_wr | with_reducible apply kept_State_orReg
    | with_reducible apply kept_latchSource | split

theorem kept_markIsolated {s₀ s : State} (h : Kept s₀ s) (b : Block) : Kept s₀ (markIsolated s b) := by
  unfold markIsolated
  repeat' first | with_reducible assumption | with_reducible apply kept_State_setFlag

theorem kept_isolateBst {s₀ s : State} (h : Kept s₀ s) (r : Nat) (code : Nat) : Kept s₀ (isolateBst s r code) := by
  unfold isolateBst
  repeat' first
    | with_reducible assumption | with_reducible apply kept_recordIsolate | with_reducible apply kept_forEach
    | with_reducible apply kept_markIsolated | with_reducible apply kept_State_setFld | with_reducible apply kept_evictCell
    | with_reducible apply kept_setCell | intro _ _ _ | split

theorem kept_pavRetire {s₀ s : State} (h : Kept s₀ s) (r : Nat) : Kept s₀ (pavRetire s r) := by
  unfold pavRetire
  repeat' first | with_reducible assumption | with_reducible apply kept_pavEvent | with_reducible apply kept_State_orReg

theorem kept_retireCompute {s₀ s : State} (h : Kept s₀ s) (c : Nat) (code : Nat) : Kept s₀ (retireCompute s c code) := by
  unfold retireCompute
  try dsimp only
  repeat' first
    | with_reducible assumption | with_reducible apply kept_pavRetire | with_reducible apply kept_recordRetire | with_reducible apply kept_bstEvent
    | with_reducible apply kept_setCell | with_reducible apply kept_State_setFlag | with_reducible apply kept_forEach
    | with_reducible apply kept_abandonMove | with_reducible apply kept_setJob | with_reducible apply kept_State_drawn
    | with_reducible apply kept_plcEvent | with_reducible apply kept_isolateBst | intro _ _ _ | split

theorem kept_State_drew {s₀ s : State} (h : Kept s₀ s) (n : Nat) : Kept s₀ (State.drew s n) := by
  unfold State.drew
  repeat' first
    | with_reducible assumption | with_reducible exact Nat.le_refl _ | with_reducible exact Nat.le_add_right _ _ | with_reducible apply Kept.upd

theorem kept_audioPacket {s₀ s : State} (h : Kept s₀ s) (h' : Nat) (x : Stream) (k : Nat) : Kept s₀ (audioPacket s h' x k) := by
  unfold audioPacket
  repeat' first
    | with_reducible assumption | with_reducible apply kept_setStream | with_reducible apply kept_State_drew
    | with_reducible apply kept_computeFrame

theorem kept_audioOut {s₀ s : State} (h : Kept s₀ s) (h' : Nat) (done : Nat) (x3 : Nat) : Kept s₀ (audioOut s h' done x3) := by
  induction x3 generalizing s h' done with
  | zero => exact h
  | succ n ih =>
    unfold audioOut
    try dsimp only
    repeat' first
      | with_reducible assumption | with_reducible apply ih | with_reducible apply kept_setStream | with_reducible apply kept_audioPacket | split

theorem kept_dmxSend {s₀ s : State} (h : Kept s₀ s) (h' : Nat) (j : Job) : Kept s₀ (dmxSend s h' j) := by
  unfold dmxSend
  repeat' first
    | with_reducible assumption | with_reducible apply kept_setJob | with_reducible apply kept_State_drew | with_reducible apply kept_computeFrame
    | split

theorem kept_moveStep {s₀ s : State} (h : Kept s₀ s) (h' : Nat) (bad : Bool) (late : Bool) : Kept s₀ (moveStep s h' bad late) := by
  unfold moveStep
  repeat' first
    | with_reducible assumption | with_reducible apply kept_State_drawn | with_reducible apply kept_abandonMove | with_reducible apply kept_setJob
    | with_reducible apply kept_settleCell | with_reducible apply kept_plcEvent | with_reducible apply kept_State_count
    | with_reducible apply kept_refreshGroups | split

theorem kept_grtFeed {s₀ s : State} (h : Kept s₀ s) (j : Nat) (tap : Nat) (k : Nat) (l : List Word) : Kept s₀ (grtFeed s j tap k l) := by
  unfold grtFeed
  repeat' first
    | with_reducible assumption | with_reducible apply kept_setJobRec | with_reducible exact Nat.le_refl _ | split | with_reducible apply Kept.upd

theorem kept_putSamples {s₀ s : State} (h : Kept s₀ s) (tap : Nat) (k : Nat) (l : List Word) : Kept s₀ (putSamples s tap k l) := by
  unfold putSamples
  repeat' first
    | with_reducible assumption | with_reducible apply kept_forEach | with_reducible apply kept_grtFeed | with_reducible exact Nat.le_refl _
    | intro _ _ _ | with_reducible apply Kept.upd

theorem kept_meterReport {s₀ s : State} (h : Kept s₀ s) (h' : Nat) (j : Job) (b : Nat) : Kept s₀ (meterReport s h' j b) := by
  unfold meterReport
  try dsimp only
  repeat' first
    | with_reducible assumption | with_reducible apply kept_setJob | with_reducible apply kept_eventWrite | with_reducible apply kept_State_count
    | split

theorem kept_publish {s₀ s : State} (h : Kept s₀ s) (h' : Nat) (j : Job) (b : Nat) (overran : Bool) (late : Bool) :
    Kept s₀ (publish s h' j b overran late) := by
  unfold publish
  repeat' first
    | with_reducible assumption | with_reducible apply Kept.ite | with_reducible apply kept_forEach | with_reducible apply kept_putSamples
    | with_reducible apply kept_State_count | with_reducible apply kept_setJob | with_reducible apply kept_plcEvent
    | with_reducible apply kept_bstEvent | with_reducible apply kept_meterReport | intro _ _ _ | split

theorem kept_endBlock {s₀ s : State} (h : Kept s₀ s) (h' : Nat) (r : Option JobRun) (bad : Bool) : Kept s₀ (endBlock s h' r bad) := by
  unfold endBlock
  try dsimp only
  repeat' first
    | with_reducible assumption | with_reducible apply Kept.ite | with_reducible apply kept_moveStep | with_reducible apply kept_publish
    | with_reducible apply kept_removeJob | split

theorem kept_startBlock {s₀ s : State} (h : Kept s₀ s) (h' : Nat) (b : Nat) : Kept s₀ (startBlock s h' b) := by
  unfold startBlock
  repeat' first | with_reducible assumption | with_reducible apply kept_setJob | with_reducible apply kept_State_drew | split

theorem kept_serveStream {s₀ s : State} (h : Kept s₀ s) (rate : Nat) (blog : Nat) (done : Nat) (e : Nat × Stream) :
    Kept s₀ (serveStream s rate blog done e) := by
  unfold serveStream
  try dsimp only
  repeat' first | with_reducible assumption | with_reducible apply kept_setStream | with_reducible apply kept_audioOut | split

theorem kept_takeWork {s₀ s : State} (h : Kept s₀ s) (w : CellWork) : Kept s₀ (takeWork s w) := by
  unfold takeWork
  repeat' first
    | with_reducible assumption | with_reducible apply kept_State_count64 | with_reducible apply kept_setCell | with_reducible apply kept_histSample

theorem kept_runBoundary {s₀ s : State} (h : Kept s₀ s) (rate : Nat) (blog : Nat) (runs : List JobRun) (bad : List Nat) (work : List CellWork) :
    Kept s₀ (runBoundary s rate blog runs bad work) := by
  unfold runBoundary
  repeat' first
    | with_reducible assumption | with_reducible apply kept_forEach | with_reducible apply kept_endBlock | with_reducible apply kept_startBlock
    | with_reducible apply kept_serveStream | with_reducible apply kept_dmxSend | with_reducible apply kept_setJob
    | with_reducible apply kept_takeWork | with_reducible apply kept_judgeLoads | with_reducible apply kept_perfCount
    | with_reducible apply kept_placeHomeless | with_reducible exact Nat.le_refl _ | intro _ _ _ | split | with_reducible apply Kept.upd

theorem kept_cdDone {s₀ s : State} (h : Kept s₀ s) (n : Nat) (i : Nat) (code : Nat) (info : Word) : Kept s₀ (cdDone s n i code info) := by
  unfold cdDone
  repeat' first | with_reducible assumption | with_reducible apply kept_complete | with_reducible apply kept_noRoom | split

theorem kept_cdTake {s₀ s : State} (h : Kept s₀ s) (n : Nat) (d : List Word) (rec : List Word) (op : Nat) (serve : State → Nat → State) (hserve : ∀ y0 y1, Kept s₀ y0 → Kept s₀ (serve y0 y1)) :
    Kept s₀ (cdTake s n d rec op serve) := by
  unfold cdTake
  try dsimp only
  repeat' first
    | with_reducible assumption | with_reducible apply hserve | with_reducible apply kept_takeDesc | with_reducible apply kept_cdDone | split

theorem kept_countPacket {s₀ s : State} (h : Kept s₀ s) (r : Nat) (f : Frame) (h' : Nat) : Kept s₀ (countPacket s r f h') := by
  unfold countPacket
  repeat' first | with_reducible assumption | with_reducible apply kept_setStream | split

theorem kept_endTapReaders {s₀ s : State} (h : Kept s₀ s) (taps : List Nat) : Kept s₀ (endTapReaders s taps) := by
  unfold endTapReaders
  repeat' first | with_reducible assumption | with_reducible apply kept_abortGrotto

theorem kept_setInbox {s₀ s : State} (h : Kept s₀ s) (r : Nat) (l : List Frame) : Kept s₀ (setInbox s r l) := by
  unfold setInbox
  repeat' first | with_reducible assumption | with_reducible exact Nat.le_refl _ | with_reducible apply Kept.upd

theorem kept_putIn {s₀ s : State} (h : Kept s₀ s) (r : Nat) (tap : Nat) (k : Int) (v : Word) : Kept s₀ (putIn s r tap k v) := by
  unfold putIn
  try dsimp only
  repeat' first
    | with_reducible assumption | with_reducible apply kept_putSamples | with_reducible apply kept_forEach | with_reducible apply kept_State_count
    | with_reducible apply kept_setJob | intro _ _ _ | split

theorem kept_takeAudio {s₀ s : State} (h : Kept s₀ s) (r : Nat) (x : Stream) (p : List Byte) : Kept s₀ (takeAudio s r x p) := by
  unfold takeAudio
  repeat' first | with_reducible assumption | with_reducible apply kept_forEach | with_reducible apply kept_putIn | intro _ _ _

theorem kept_takeDmx {s₀ s : State} (h : Kept s₀ s) (h' : Nat) (p : List Byte) : Kept s₀ (takeDmx s h' p) := by
  unfold takeDmx
  try dsimp only
  repeat' first | with_reducible assumption | with_reducible apply kept_setJob | with_reducible apply kept_State_count | split

theorem kept_takeRtp {s₀ s : State} (h : Kept s₀ s) (h' : Nat) (p : List Byte) : Kept s₀ (takeRtp s h' p) := by
  unfold takeRtp
  try dsimp only
  repeat' first
    | with_reducible assumption | with_reducible apply kept_State_count | with_reducible apply kept_setJob | with_reducible apply kept_computeFrame
    | split

theorem kept_takeFrame {s₀ s : State} (h : Kept s₀ s) (r : Nat) (f : Frame) : Kept s₀ (takeFrame s r f) := by
  unfold takeFrame
  repeat' first
    | with_reducible assumption | with_reducible apply kept_forEach | with_reducible apply kept_countPacket | with_reducible apply kept_takeAudio
    | with_reducible apply kept_takeDmx | with_reducible apply kept_takeRtp | intro _ _ _ | split

theorem kept_takeHead {s₀ s : State} (h : Kept s₀ s) (r : Nat) (mine : Frame → Bool) : Kept s₀ (takeHead s r mine) := by
  unfold takeHead
  repeat' first | with_reducible assumption | with_reducible apply kept_setInbox | with_reducible apply kept_takeFrame | split

theorem kept_execAudioInPacket {s₀ s : State} (h : Kept s₀ s) (r : Fin 8) : KeptR s₀ (execAudioInPacket r s) := by
  unfold execAudioInPacket
  repeat' first | with_reducible assumption | with_reducible apply KeptR.ite | with_reducible apply KeptR.next | with_reducible apply kept_takeHead

theorem kept_execBlockBoundary {s₀ s : State} (h : Kept s₀ s) (rate : Bool) (blog : Fin 6) (runs : List JobRun) (bad : List (BitVec 16)) (_stuck : Unit) (work : List CellWork) :
    KeptR s₀ (execBlockBoundary rate blog runs bad _stuck work s) := by
  unfold execBlockBoundary
  repeat' first
    | with_reducible assumption | with_reducible apply KeptR.ite | with_reducible apply KeptR.next | with_reducible apply kept_runBoundary
    | with_reducible apply kept_forEach | with_reducible apply kept_retireCompute | with_reducible apply kept_State_drawn | intro _ _ _

theorem kept_execCellReady {s₀ s : State} (h : Kept s₀ s) (c : Fin 128) : KeptR s₀ (execCellReady c s) := by
  unfold execCellReady
  repeat' first | with_reducible assumption | with_reducible apply KeptR.ite | with_reducible apply KeptR.next | with_reducible apply kept_setCell

theorem kept_execCreateJob {s₀ s : State} (h : Kept s₀ s) (n : Fin 256) (d : List Word) (rec : List Word) (img : List Byte) (_home : Unit) :
    KeptR s₀ (execCreateJob n d rec img _home s) := by
  unfold execCreateJob
  try dsimp only
  repeat' first
    | with_reducible assumption | with_reducible apply KeptR.ite | with_reducible apply KeptR.next | with_reducible apply kept_cdTake
    | with_reducible apply kept_cdDone | with_reducible apply kept_judgeLoads | with_reducible apply kept_refreshGroups
    | with_reducible apply kept_setJob | intro _ _ _ | split

theorem kept_execCreateStream {s₀ s : State} (h : Kept s₀ s) (n : Fin 256) (d : List Word) (rec : List Word) :
    KeptR s₀ (execCreateStream n d rec s) := by
  unfold execCreateStream
  try dsimp only
  repeat' first
    | with_reducible assumption | with_reducible apply KeptR.ite | with_reducible apply KeptR.next | with_reducible apply kept_cdTake
    | with_reducible apply kept_cdDone | with_reducible apply kept_refreshGroup | with_reducible apply kept_setStream | intro _ _ _ | split

theorem kept_execDeleteJob {s₀ s : State} (h : Kept s₀ s) (n : Fin 256) (d : List Word) : KeptR s₀ (execDeleteJob n d s) := by
  unfold execDeleteJob
  try dsimp only
  repeat' first
    | with_reducible assumption | with_reducible apply KeptR.ite | with_reducible apply KeptR.next | with_reducible apply kept_cdTake
    | with_reducible apply kept_cdDone | with_reducible apply kept_endTapReaders | with_reducible apply kept_setJob
    | with_reducible apply kept_removeJob | intro _ _ _ | split

theorem kept_execDeleteStream {s₀ s : State} (h : Kept s₀ s) (n : Fin 256) (d : List Word) : KeptR s₀ (execDeleteStream n d s) := by
  unfold execDeleteStream
  repeat' first
    | with_reducible assumption | with_reducible apply KeptR.ite | with_reducible apply KeptR.next | with_reducible apply kept_cdTake
    | with_reducible apply kept_cdDone | with_reducible apply kept_dropTaps | with_reducible apply kept_endTapReaders
    | with_reducible apply kept_refreshGroup | with_reducible exact Nat.le_refl _ | intro _ _ _ | split | with_reducible apply Kept.upd

theorem kept_execE131Keepalive {s₀ s : State} (h : Kept s₀ s) (h' : BitVec 16) : KeptR s₀ (execE131Keepalive h' s) := by
  unfold execE131Keepalive
  repeat' first
    | with_reducible assumption | with_reducible apply KeptR.ite | with_reducible apply KeptR.next | with_reducible apply kept_dmxSend | split

theorem kept_execE131Packet {s₀ s : State} (h : Kept s₀ s) (r : Fin 8) : KeptR s₀ (execE131Packet r s) := by
  unfold execE131Packet
  repeat' first | with_reducible assumption | with_reducible apply KeptR.ite | with_reducible apply KeptR.next | with_reducible apply kept_takeHead

theorem kept_execE131SourceTimeout {s₀ s : State} (h : Kept s₀ s) (h' : BitVec 16) : KeptR s₀ (execE131SourceTimeout h' s) := by
  unfold execE131SourceTimeout
  repeat' first
    | with_reducible assumption | with_reducible apply KeptR.ite | with_reducible apply KeptR.next | with_reducible apply kept_setJob | split

theorem kept_execJobMoveStart {s₀ s : State} (h : Kept s₀ s) (h' : BitVec 16) (_home : Unit) : KeptR s₀ (execJobMoveStart h' _home s) := by
  unfold execJobMoveStart
  repeat' first
    | with_reducible assumption | with_reducible apply KeptR.ite | with_reducible apply KeptR.next | with_reducible apply kept_settleCell
    | with_reducible apply kept_refreshGroups | with_reducible apply kept_setJob | split

theorem kept_execJobStateCopy {s₀ s : State} (h : Kept s₀ s) (h' : BitVec 16) : KeptR s₀ (execJobStateCopy h' s) := by
  unfold execJobStateCopy
  repeat' first
    | with_reducible assumption | with_reducible apply KeptR.ite | with_reducible apply KeptR.next | with_reducible apply kept_setJob | split

theorem kept_execLoadSet {s₀ s : State} (h : Kept s₀ s) (n : Fin 256) (d : List Word) (gains : List Word) : KeptR s₀ (execLoadSet n d gains s) := by
  unfold execLoadSet
  try dsimp only
  repeat' first
    | with_reducible assumption | with_reducible apply KeptR.ite | with_reducible apply KeptR.next | with_reducible apply kept_cdTake
    | with_reducible apply kept_cdDone | with_reducible apply kept_judgeLoads | with_reducible apply kept_setJob | intro _ _ _ | split

theorem kept_execReadJob {s₀ s : State} (h : Kept s₀ s) (n : Fin 256) (d : List Word) : KeptR s₀ (execReadJob n d s) := by
  unfold execReadJob
  repeat' first
    | with_reducible assumption | with_reducible apply KeptR.ite | with_reducible apply KeptR.next | with_reducible apply kept_cdTake
    | with_reducible apply kept_cdDone | with_reducible apply kept_State_emit | intro _ _ _ | split

theorem kept_execSetParam {s₀ s : State} (h : Kept s₀ s) (n : Fin 256) (d : List Word) : KeptR s₀ (execSetParam n d s) := by
  unfold execSetParam
  try dsimp only
  repeat' first
    | with_reducible assumption | with_reducible apply KeptR.ite | with_reducible apply KeptR.next | with_reducible apply kept_cdTake
    | with_reducible apply kept_cdDone | with_reducible apply kept_judgeLoads | with_reducible apply kept_setJob | intro _ _ _ | split

theorem kept_execSt20227Packet {s₀ s : State} (h : Kept s₀ s) (r : Fin 8) : KeptR s₀ (execSt20227Packet r s) := by
  unfold execSt20227Packet
  repeat' first | with_reducible assumption | with_reducible apply KeptR.ite | with_reducible apply KeptR.next | with_reducible apply kept_takeHead

theorem kept_countOutcome {s₀ s : State} (h : Kept s₀ s) (code : Nat) : Kept s₀ (countOutcome s code) := by
  unfold countOutcome
  repeat' first | with_reducible assumption | with_reducible apply kept_cueEvent | with_reducible apply kept_State_count | split

theorem kept_freeCue {s₀ s : State} (h : Kept s₀ s) (k : Nat) (code : Nat) : Kept s₀ (freeCue s k code) := by
  unfold freeCue
  repeat' first
    | with_reducible assumption | with_reducible apply kept_releaseHeld | with_reducible apply kept_State_wr | with_reducible exact Nat.le_refl _
    | with_reducible apply Kept.upd

theorem kept_outcomeEvent {s₀ s : State} (h : Kept s₀ s) (k : Nat) (c : Cue) (code : Nat) (reason : Nat) (reached : Bool) :
    Kept s₀ (outcomeEvent s k c code reason reached) := by
  unfold outcomeEvent
  repeat' first | with_reducible assumption | with_reducible apply kept_eventWrite | split

theorem kept_setCue {s₀ s : State} (h : Kept s₀ s) (k : Nat) (c : Cue) : Kept s₀ (setCue s k c) := by
  unfold setCue
  repeat' first | with_reducible assumption | with_reducible exact Nat.le_refl _ | with_reducible apply Kept.upd

theorem kept_showAnswers {s₀ s : State} (h : Kept s₀ s) (c : Cue) : Kept s₀ (showAnswers s c) := by
  unfold showAnswers
  repeat' first
    | with_reducible assumption | with_reducible apply kept_State_wr | with_reducible exact Nat.le_refl _ | split | with_reducible apply Kept.upd

theorem kept_deliverFab {s₀ s : State} (h : Kept s₀ s) (k : Nat) (c : Cue) : Kept s₀ (deliverFab s k c) := by
  unfold deliverFab
  repeat' first
    | with_reducible assumption | with_reducible apply kept_State_wr | with_reducible apply kept_showAnswers | with_reducible apply kept_freeCue
    | with_reducible apply kept_cueEvent | with_reducible apply kept_outcomeEvent

theorem kept_recordResult {s₀ s : State} (h : Kept s₀ s) (k : Nat) (c : Cue) (node : Nat) (status : Nat) (reason : Nat) :
    Kept s₀ (recordResult s k c node status reason) := by
  unfold recordResult
  try dsimp only
  repeat' first
    | with_reducible assumption | with_reducible apply kept_showAnswers | with_reducible apply kept_setCue | with_reducible apply kept_deliverFab
    | split

theorem kept_sendOn {s₀ s : State} (h : Kept s₀ s) (p : Nat) (bs : List Byte) : Kept s₀ (sendOn s p bs) := by
  unfold sendOn
  repeat' first
    | with_reducible assumption | with_reducible apply kept_admitCopy | with_reducible exact Nat.le_refl _ | with_reducible apply Kept.upd

theorem kept_sendUp {s₀ s : State} (h : Kept s₀ s) (m : CueMsg) : Kept s₀ (sendUp s m) := by
  unfold sendUp
  repeat' first
    | with_reducible assumption | with_reducible apply kept_sendOn | with_reducible exact Nat.le_refl _ | split | with_reducible apply Kept.upd

theorem kept_endPart {s₀ s : State} (h : Kept s₀ s) (k : Nat) (c : Cue) (code : Nat) (reason : Nat) (reached : Bool) :
    Kept s₀ (endPart s k c code reason reached) := by
  unfold endPart
  repeat' first
    | with_reducible assumption | with_reducible apply kept_countOutcome | with_reducible apply kept_freeCue
    | with_reducible apply kept_outcomeEvent | with_reducible apply kept_releaseHeld | with_reducible apply kept_setCue
    | with_reducible apply kept_recordResult | with_reducible apply kept_sendUp | with_reducible exact Nat.le_refl _ | split
    | with_reducible apply Kept.upd

theorem kept_abandonCue {s₀ s : State} (h : Kept s₀ s) (k : Nat) : Kept s₀ (abandonCue s k) := by
  unfold abandonCue
  repeat' first | with_reducible assumption | with_reducible apply kept_endPart | split

theorem kept_adoptOpv {s₀ s : State} (h : Kept s₀ s) (m : CueMsg) : Kept s₀ (adoptOpv s m) := by
  unfold adoptOpv
  try dsimp only
  repeat' first | with_reducible assumption | with_reducible apply kept_State_setFld | split

theorem kept_floodMsg {s₀ s : State} (h : Kept s₀ s) (but : Option Nat) (m : CueMsg) : Kept s₀ (floodMsg s but m) := by
  unfold floodMsg
  repeat' first | with_reducible assumption | with_reducible apply kept_forEach | with_reducible apply kept_sendOn | intro _ _ _

theorem kept_rootAbort {s₀ s : State} (h : Kept s₀ s) (k : Nat) (c : Cue) : Kept s₀ (rootAbort s k c) := by
  unfold rootAbort
  repeat' first
    | with_reducible assumption | with_reducible apply kept_abandonCue | with_reducible apply kept_floodMsg | with_reducible apply kept_setCue

theorem kept_cancelCue {s₀ s : State} (h : Kept s₀ s) (k : Nat) : Kept s₀ (cancelCue s k) := by
  unfold cancelCue
  repeat' first | with_reducible assumption | with_reducible apply kept_rootAbort | with_reducible apply kept_abandonCue | split

theorem kept_setMember {s₀ s : State} (h : Kept s₀ s) (g : Nat) (p : Nat) (on : Bool) : Kept s₀ (setMember s g p on) := by
  unfold setMember
  repeat' first | with_reducible assumption | with_reducible exact Nat.le_refl _ | split | with_reducible apply Kept.upd

theorem kept_switchSides {s₀ s : State} (h : Kept s₀ s) (x : Csw) (off : Bool) (on : Bool) : Kept s₀ (switchSides s x off on) := by
  unfold switchSides
  repeat' first
    | with_reducible assumption | with_reducible apply kept_setMember | with_reducible exact Nat.le_refl _ | split | with_reducible apply Kept.upd

theorem kept_cswFrame {s₀ s : State} (h : Kept s₀ s) (f : Frame) (g : Nat) : Kept s₀ (cswFrame s f g) := by
  unfold cswFrame
  repeat' first | with_reducible assumption | with_reducible apply kept_forEach | with_reducible apply kept_switchSides | intro _ _ _ | split

theorem kept_discardMsg {s₀ s : State} (h : Kept s₀ s) : Kept s₀ (discardMsg s) := by
  unfold discardMsg
  repeat' first | with_reducible assumption | with_reducible apply kept_cueEvent | with_reducible apply kept_State_count

theorem kept_flushOutbox {s₀ s : State} (h : Kept s₀ s) : Kept s₀ (flushOutbox s) := by
  unfold flushOutbox
  repeat' first
    | with_reducible assumption | with_reducible apply kept_forEach | with_reducible apply kept_sendOn | with_reducible exact Nat.le_refl _
    | intro _ _ _ | split | with_reducible apply Kept.upd

theorem kept_passOn {s₀ s : State} (h : Kept s₀ s) (p : Nat) (m : CueMsg) : Kept s₀ (passOn s p m) := by
  unfold passOn
  repeat' first
    | with_reducible assumption | with_reducible apply kept_floodMsg | with_reducible apply kept_adoptOpv | with_reducible exact Nat.le_refl _
    | with_reducible apply Kept.upd

theorem kept_setSlotState {s₀ s : State} (h : Kept s₀ s) (k : Nat) (x : Nat) : Kept s₀ (setSlotState s k x) := by
  unfold setSlotState
  repeat' first | with_reducible assumption | with_reducible apply kept_State_setFld

theorem kept_rootArm {s₀ s : State} (h : Kept s₀ s) (k : Nat) (c : Cue) : Kept s₀ (rootArm s k c) := by
  unfold rootArm
  repeat' first
    | with_reducible assumption | with_reducible apply kept_floodMsg | with_reducible apply kept_setSlotState | with_reducible apply kept_setCue
    | split

theorem kept_recordReady {s₀ s : State} (h : Kept s₀ s) (k : Nat) (c : Cue) (node : Nat) (status : Nat) :
    Kept s₀ (recordReady s k c node status) := by
  unfold recordReady
  repeat' first
    | with_reducible assumption | with_reducible apply kept_showAnswers | with_reducible apply kept_setCue | with_reducible apply kept_rootAbort
    | with_reducible apply kept_rootArm | split

theorem kept_abortEye {s₀ s : State} (h : Kept s₀ s) (l : Nat) : Kept s₀ (abortEye s l) := by
  unfold abortEye
  try dsimp only
  repeat' first
    | with_reducible assumption | with_reducible apply kept_State_wr | with_reducible apply kept_State_wr64 | with_reducible apply kept_State_drawn
    | split

theorem kept_announce {s₀ s : State} (h : Kept s₀ s) (p : Nat) (rate : Nat) : Kept s₀ (announce s p rate) := by
  unfold announce
  repeat' first | with_reducible assumption | with_reducible apply kept_setPortRec

theorem kept_startEye {s₀ s : State} (h : Kept s₀ s) (l : Nat) : Kept s₀ (startEye s l) := by
  unfold startEye
  try dsimp only
  repeat' first
    | with_reducible assumption | with_reducible apply kept_forEach | with_reducible apply kept_setLaneRec | with_reducible apply kept_State_wr
    | intro _ _ _ | split

theorem kept_eyeCmdApply {s₀ s : State} (h : Kept s₀ s) (l : Nat) (v : Word) : Kept s₀ (eyeCmdApply s l v) := by
  unfold eyeCmdApply
  repeat' first | with_reducible assumption | with_reducible apply kept_abortEye | with_reducible apply kept_startEye | split

theorem kept_setTrkRate {s₀ s : State} (h : Kept s₀ s) (p : Nat) (rate : Nat) : Kept s₀ (setTrkRate s p rate) := by
  unfold setTrkRate
  repeat' first | with_reducible assumption | with_reducible apply kept_State_setFld

theorem kept_slot7Loses {s₀ s : State} (h : Kept s₀ s) (p : Option Nat) : Kept s₀ (slot7Loses s p) := by
  unfold slot7Loses
  repeat' first | with_reducible assumption | with_reducible apply kept_loseActivity | split

theorem kept_setLaneRate {s₀ s : State} (h : Kept s₀ s) (l : Nat) (rate : Nat) (tx : Bool) : Kept s₀ (setLaneRate s l rate tx) := by
  unfold setLaneRate
  try dsimp only
  repeat' first
    | with_reducible assumption | with_reducible apply kept_abortEye | with_reducible apply kept_slot7Loses | with_reducible apply kept_State_wr
    | with_reducible apply kept_setLaneRec | with_reducible apply kept_calLaneStop | with_reducible apply kept_laneRateChanged | split

theorem kept_setPortRate {s₀ s : State} (h : Kept s₀ s) (p : Nat) (rate : Nat) (tx : Bool) : Kept s₀ (setPortRate s p rate tx) := by
  unfold setPortRate
  repeat' first | with_reducible assumption | with_reducible apply kept_forEach | with_reducible apply kept_setLaneRate | intro _ _ _

theorem kept_stopRanging {s₀ s : State} (h : Kept s₀ s) (p : Nat) : Kept s₀ (stopRanging s p) := by
  unfold stopRanging
  repeat' first
    | with_reducible assumption | with_reducible apply kept_forEach | with_reducible apply kept_abortGrotto | with_reducible apply kept_calLaneStop
    | intro _ _ _

theorem kept_setTrk {s₀ s : State} (h : Kept s₀ s) (p : Nat) (st : Nat) : Kept s₀ (setTrk s p st) := by
  unfold setTrk
  try dsimp only
  repeat' first
    | with_reducible assumption | with_reducible apply kept_portDown | with_reducible apply kept_stopRanging | with_reducible apply kept_setPortRec
    | with_reducible apply kept_State_setFld | with_reducible apply kept_pavEvent | with_reducible apply kept_portComesUp | split

theorem kept_faultTrk {s₀ s : State} (h : Kept s₀ s) (p : Nat) (code : Nat) : Kept s₀ (faultTrk s p code) := by
  unfold faultTrk
  repeat' first
    | with_reducible assumption | with_reducible apply kept_setTrkRate | with_reducible apply kept_State_setFld
    | with_reducible apply kept_setPortRate | with_reducible apply kept_setTrk

theorem kept_followStep {s₀ s : State} (h : Kept s₀ s) (p : Nat) (w : BitVec 64) : Kept s₀ (followStep s p w) := by
  unfold followStep
  repeat' first | with_reducible assumption | with_reducible apply kept_setPortRec | split

theorem kept_lanEvent {s₀ s : State} (h : Kept s₀ s) (l : Nat) (b : Nat) : Kept s₀ (lanEvent s l b) := by
  unfold lanEvent
  repeat' first | with_reducible assumption | with_reducible apply kept_pavEvent

theorem kept_restartTrk {s₀ s : State} (h : Kept s₀ s) (p : Nat) : Kept s₀ (restartTrk s p) := by
  unfold restartTrk
  repeat' first
    | with_reducible assumption | with_reducible apply kept_setTrk | with_reducible apply kept_setPortRate | with_reducible apply kept_setPortRec
    | with_reducible apply kept_setTrkRate | split

theorem kept_lanePortLost {s₀ s : State} (h : Kept s₀ s) (l : Nat) : Kept s₀ (lanePortLost s l) := by
  unfold lanePortLost
  repeat' first | with_reducible assumption | with_reducible apply kept_portDown | with_reducible apply kept_restartTrk | split

theorem kept_loseCdr {s₀ s : State} (h : Kept s₀ s) (l : Nat) : Kept s₀ (loseCdr s l) := by
  unfold loseCdr
  try dsimp only
  repeat' first
    | with_reducible assumption | with_reducible apply kept_slot7Loses | with_reducible apply kept_State_setFlag
    | with_reducible apply kept_lanePortLost | with_reducible apply kept_calLaneStop | with_reducible apply kept_abortEye
    | with_reducible apply kept_lanEvent | with_reducible apply kept_State_count | split

theorem kept_stopPort {s₀ s : State} (h : Kept s₀ s) (p : Nat) : Kept s₀ (stopPort s p) := by
  unfold stopPort
  repeat' first
    | with_reducible assumption | with_reducible apply kept_slot7Loses | with_reducible apply kept_portDown | with_reducible apply kept_abandonRun
    | with_reducible apply kept_stopRanging | with_reducible apply kept_setTrk | with_reducible apply kept_forEach
    | with_reducible apply kept_setPortRec | with_reducible apply kept_State_wr | with_reducible apply kept_setTrkTime
    | with_reducible apply kept_setLaneRec | with_reducible apply kept_abortEye | intro _ _ _ | split

theorem kept_retireLane {s₀ s : State} (h : Kept s₀ s) (l : Nat) : Kept s₀ (retireLane s l) := by
  unfold retireLane
  try dsimp only
  repeat' first
    | with_reducible assumption | with_reducible apply kept_State_setFlag | with_reducible apply kept_recordRetire
    | with_reducible apply kept_State_drawn | with_reducible apply kept_markIsolated | with_reducible apply kept_pavRetire
    | with_reducible apply kept_stopPort | split

theorem kept_loseTxPll {s₀ s : State} (h : Kept s₀ s) (l : Nat) : Kept s₀ (loseTxPll s l) := by
  unfold loseTxPll
  try dsimp only
  repeat' first
    | with_reducible assumption | with_reducible apply kept_lanePortLost | with_reducible apply kept_calLaneStop
    | with_reducible apply kept_abortEye | with_reducible apply kept_lanEvent | with_reducible apply kept_State_setFlag
    | with_reducible apply kept_windowHit | with_reducible apply kept_retireLane | split

theorem kept_startPort {s₀ s : State} (h : Kept s₀ s) (p : Nat) : Kept s₀ (startPort s p) := by
  unfold startPort
  repeat' first
    | with_reducible assumption | with_reducible apply kept_setTrkRate | with_reducible apply kept_setTrk | with_reducible apply kept_setPortRate
    | with_reducible apply kept_State_emit | split

theorem kept_macApply {s₀ : State} {b : State} {s : State} (h : Kept s₀ s) (_hb : Kept s₀ b) (p : Nat) : Kept s₀ (macApply b s p) := by
  unfold macApply
  try dsimp only
  repeat' first | with_reducible assumption | with_reducible apply kept_startPort | with_reducible apply kept_stopPort | split

theorem kept_setUpstream {s₀ s : State} (h : Kept s₀ s) (p : Option Nat) : Kept s₀ (setUpstream s p) := by
  unfold setUpstream
  repeat' first
    | with_reducible assumption | with_reducible apply kept_State_setFlag | with_reducible apply kept_State_setFld
    | with_reducible apply kept_dropPhase | with_reducible apply kept_judgeSlot | split

theorem kept_startPorts {s₀ s : State} (h : Kept s₀ s) (pick : Nat → Bool) : Kept s₀ (startPorts s pick) := by
  unfold startPorts
  repeat' first | with_reducible assumption | with_reducible apply kept_forEach | with_reducible apply kept_startPort | intro _ _ _ | split

theorem kept_stepRateNow {s₀ s : State} (h : Kept s₀ s) (p : Nat) : Kept s₀ (stepRateNow s p) := by
  unfold stepRateNow
  try dsimp only
  repeat' first
    | with_reducible assumption | with_reducible apply kept_setTrkRate | with_reducible apply kept_setPortRate
    | with_reducible apply kept_setPortRec | with_reducible apply kept_setTrk | split

theorem kept_takeNeg {s₀ s : State} (h : Kept s₀ s) (p : Nat) (w : BitVec 64) (near : Bool) : Kept s₀ (takeNeg s p w near) := by
  unfold takeNeg
  try dsimp only
  repeat' first
    | with_reducible assumption | with_reducible apply Kept.ite | with_reducible apply kept_State_wr | with_reducible apply kept_State_setFlag
    | with_reducible apply kept_setPortRec | with_reducible apply kept_faultTrk | with_reducible apply kept_State_setFld
    | with_reducible apply kept_setTrk | with_reducible apply kept_announce | with_reducible apply kept_followStep | split

theorem kept_computeTake {s₀ s : State} (h : Kept s₀ s) (p : Nat) : Kept s₀ (computeTake s p) := by
  unfold computeTake
  repeat' first
    | with_reducible assumption | with_reducible apply kept_releaseCopy | with_reducible apply kept_setPortSw | with_reducible apply kept_setQueue
    | with_reducible apply kept_abortStamped | with_reducible apply kept_State_count | with_reducible exact Nat.le_refl _ | split
    | with_reducible apply Kept.upd

theorem kept_execCrossbarGrant {s₀ s : State} (h : Kept s₀ s) (e : Fin 9) : KeptR s₀ (execCrossbarGrant e s) := by
  unfold execCrossbarGrant
  repeat' first
    | with_reducible assumption | with_reducible apply KeptR.ite | with_reducible apply KeptR.next | with_reducible apply kept_popFifo
    | with_reducible apply kept_admitAll | with_reducible apply kept_perfCount | with_reducible exact Nat.le_refl _ | split
    | with_reducible apply Kept.upd

theorem kept_execCrossbarTimeoutDrop {s₀ s : State} (h : Kept s₀ s) (ing : Fin 137) (e : Fin 9) (l : Fin 3) :
    KeptR s₀ (execCrossbarTimeoutDrop ing e l s) := by
  unfold execCrossbarTimeoutDrop
  try dsimp only
  repeat' first
    | with_reducible assumption | with_reducible apply KeptR.ite | with_reducible apply KeptR.next | with_reducible apply kept_popFifo
    | with_reducible apply kept_State_count | with_reducible apply kept_abortStamped | with_reducible apply kept_perfCount | split

theorem kept_execFlushComplete {s₀ s : State} (h : Kept s₀ s) (p : Fin 128) : KeptR s₀ (execFlushComplete p s) := by
  unfold execFlushComplete
  repeat' first | with_reducible assumption | with_reducible apply KeptR.ite | with_reducible apply KeptR.next | with_reducible apply kept_setPortSw

theorem kept_execFrameTransmit {s₀ s : State} (h : Kept s₀ s) (p : Fin 137) : KeptR s₀ (execFrameTransmit p s) := by
  unfold execFrameTransmit
  try dsimp only
  repeat' first
    | with_reducible assumption | with_reducible apply KeptR.ite | with_reducible apply KeptR.next | with_reducible apply kept_computeTake
    | with_reducible apply kept_forEach | with_reducible apply kept_dropGated | with_reducible apply kept_startTx | intro _ _ _ | split

theorem kept_execGateEntryChange {s₀ s : State} (h : Kept s₀ s) (p : Fin 128) : KeptR s₀ (execGateEntryChange p s) := by
  unfold execGateEntryChange
  repeat' first | with_reducible assumption | with_reducible apply KeptR.ite | with_reducible apply KeptR.next | with_reducible apply kept_showGate

theorem kept_setActiveSched {s₀ s : State} (h : Kept s₀ s) (p : Nat) (b : Bool) : Kept s₀ (setActiveSched s p b) := by
  unfold setActiveSched
  repeat' first
    | with_reducible assumption | with_reducible apply kept_queEvent | with_reducible apply kept_State_setFlag | with_reducible apply kept_showGate
    | with_reducible apply kept_setPortSw | split

theorem kept_execSchedulerStopped {s₀ s : State} (h : Kept s₀ s) (p : Fin 128) : KeptR s₀ (execSchedulerStopped p s) := by
  unfold execSchedulerStopped
  repeat' first
    | with_reducible assumption | with_reducible apply KeptR.ite | with_reducible apply KeptR.next | with_reducible apply kept_setActiveSched

theorem kept_execTierMoveDone {s₀ s : State} (h : Kept s₀ s) (p : Fin 137) (t : Fin 4) : KeptR s₀ (execTierMoveDone p t s) := by
  unfold execTierMoveDone
  repeat' first | with_reducible assumption | with_reducible apply KeptR.ite | with_reducible apply KeptR.next | with_reducible apply kept_endMove

theorem kept_execTierMoveStart {s₀ s : State} (h : Kept s₀ s) (p : Fin 137) (t : Fin 4) : KeptR s₀ (execTierMoveStart p t s) := by
  unfold execTierMoveStart
  repeat' first
    | with_reducible assumption | with_reducible apply KeptR.ite | with_reducible apply KeptR.next | with_reducible apply kept_plcEvent
    | with_reducible apply kept_State_count | with_reducible apply kept_State_setFlag

theorem kept_queApply {s₀ : State} {b : State} {s : State} (h : Kept s₀ s) (_hb : Kept s₀ b) (e : Eff) (p : Nat) : Kept s₀ (queApply b s e p) := by
  unfold queApply
  try dsimp only
  repeat' first
    | with_reducible assumption | with_reducible apply kept_setPortSw | with_reducible apply kept_setActiveSched
    | with_reducible apply kept_judgePool | split

end Sys2Proof.Machine
end

