-- ==== Sys2Proof/Laws/KeptBus.lean ====
section
/-!
SUPPORT. Laws/KeptBus.lean: `Kept` of the writes and reads of BAR0 with what the chapters do on them, and the host rings.
-/
namespace Sys2Proof.Machine

theorem kept_bypassEth {s₀ s : State} (h : Kept s₀ s) : Kept s₀ (bypassEth s) := by
  unfold bypassEth
  repeat' first | with_reducible assumption | with_reducible apply kept_forEach | with_reducible apply kept_loseTxPll | intro _ _ _ | split

theorem kept_bypassLanes {s₀ s : State} (h : Kept s₀ s) : Kept s₀ (bypassLanes s) := by
  unfold bypassLanes
  repeat' first
    | with_reducible assumption | with_reducible apply kept_forEach | with_reducible apply kept_restartTrk | with_reducible apply kept_State_wr
    | intro _ _ _

theorem kept_restartSlot {s₀ s : State} (h : Kept s₀ s) (n : Nat) : Kept s₀ (restartSlot s n) := by
  unfold restartSlot
  repeat' first
    | with_reducible assumption | with_reducible apply kept_setSlotRec | with_reducible apply kept_dropPhase | with_reducible apply kept_judgeSlot
    | with_reducible apply kept_State_setFlag | with_reducible apply kept_refreshLoops

theorem kept_loseLock {s₀ s : State} (h : Kept s₀ s) : Kept s₀ (loseLock s) := by
  unfold loseLock
  repeat' first
    | with_reducible assumption | with_reducible apply kept_clkEvent | with_reducible apply kept_State_setFlag
    | with_reducible apply kept_State_setFld | with_reducible apply kept_refreshQc | with_reducible apply kept_calStop
    | with_reducible apply kept_gnsBypass | with_reducible apply kept_bypassEth | with_reducible apply kept_bypassLanes
    | with_reducible apply kept_loadBypInc | with_reducible apply kept_switchClkOuts | with_reducible exact Nat.le_refl _ | split
    | with_reducible apply Kept.upd

theorem kept_clkApply {s₀ : State} {b : State} {s : State} (h : Kept s₀ s) (_hb : Kept s₀ b) (m : Master) (e : Eff) (i : Nat) (v : Word) :
    Kept s₀ (clkApply b s m e i v) := by
  unfold clkApply
  repeat' first
    | with_reducible assumption | with_reducible apply kept_forEach | with_reducible apply kept_judgeSlot | with_reducible apply kept_restartSlot
    | with_reducible apply kept_refreshLoops | with_reducible apply kept_applyMode | with_reducible apply kept_outEnWritten
    | with_reducible apply kept_outDelayWritten | with_reducible apply kept_loseLock | with_reducible apply kept_refreshQc
    | with_reducible apply kept_bypassEth | with_reducible apply kept_loadBypInc | with_reducible apply kept_mirrorLoops
    | with_reducible apply kept_rebaseTrim | with_reducible exact Nat.le_refl _ | intro _ _ _ | split | with_reducible apply Kept.upd

theorem kept_execApllLock {s₀ s : State} (h : Kept s₀ s) (oscHz : Nat) : KeptR s₀ (execApllLock oscHz s) := by
  unfold execApllLock
  repeat' first
    | with_reducible assumption | with_reducible apply KeptR.ite | with_reducible apply KeptR.next | with_reducible apply kept_State_setFlag
    | with_reducible exact Nat.le_refl _ | with_reducible apply Kept.upd

theorem kept_execApllLossOfLock {s₀ s : State} (h : Kept s₀ s) : KeptR s₀ (execApllLossOfLock s) := by
  unfold execApllLossOfLock
  repeat' first | with_reducible assumption | with_reducible apply KeptR.ite | with_reducible apply KeptR.next | with_reducible apply kept_loseLock

theorem kept_leaveBypass {s₀ s : State} (h : Kept s₀ s) : Kept s₀ (leaveBypass s) := by
  unfold leaveBypass
  repeat' first
    | with_reducible assumption | with_reducible apply kept_State_setFld | with_reducible apply kept_State_setFlag
    | with_reducible apply kept_startPorts | with_reducible apply kept_switchClkOuts | with_reducible apply kept_refreshQc
    | with_reducible apply kept_clkEvent

theorem kept_execBypassReturn {s₀ s : State} (h : Kept s₀ s) : KeptR s₀ (execBypassReturn s) := by
  unfold execBypassReturn
  repeat' first
    | with_reducible assumption | with_reducible apply KeptR.ite | with_reducible apply KeptR.next | with_reducible apply kept_leaveBypass

theorem kept_chanCfgApply {s₀ : State} {b : State} {s : State} (h : Kept s₀ s) (_hb : Kept s₀ b) (c : Nat) : Kept s₀ (chanCfgApply b s c) := by
  unfold chanCfgApply
  try dsimp only
  repeat' first
    | with_reducible assumption | with_reducible apply kept_State_setFld | with_reducible apply kept_setGnsCh
    | with_reducible apply kept_State_setFlag | split

theorem kept_execGrottoDone {s₀ s : State} (h : Kept s₀ s) (j : Fin 8) (_x : Unit) (_y : Unit) (_z : Unit) :
    KeptR s₀ (execGrottoDone j _x _y _z s) := by
  unfold execGrottoDone
  repeat' first
    | with_reducible assumption | with_reducible apply KeptR.ite | with_reducible apply KeptR.next | with_reducible apply kept_State_wr64
    | with_reducible apply kept_State_wr | with_reducible apply kept_setCalItem | with_reducible apply kept_endGrotto | split

theorem kept_gnsApply {s₀ : State} {b : State} {s : State} (h : Kept s₀ s) (_hb : Kept s₀ b) (e : Eff) (i : Nat) (j : Nat) (v : Word) :
    Kept s₀ (gnsApply b s e i j v) := by
  unfold gnsApply
  repeat' first
    | with_reducible assumption | with_reducible apply kept_notchMode | with_reducible apply kept_judgeFix | with_reducible apply kept_State_wr
    | with_reducible apply kept_endAcq | with_reducible apply kept_setSnapState | with_reducible apply kept_setSnapRec
    | with_reducible apply kept_startGrotto | with_reducible apply kept_endGrotto | with_reducible apply kept_chanCfgApply
    | with_reducible apply kept_State_wrSigned | with_reducible exact Nat.le_refl _ | split | with_reducible apply Kept.upd

theorem kept_gnsBlkCtrl {s₀ : State} {b : State} {s : State} (h : Kept s₀ s) (_hb : Kept s₀ b) : Kept s₀ (gnsBlkCtrl b s) := by
  unfold gnsBlkCtrl
  repeat' first | with_reducible assumption | with_reducible apply kept_gnsOff | split

theorem kept_State_nextFrame {s₀ s : State} (h : Kept s₀ s) : Kept s₀ (State.nextFrame s) := by
  unfold State.nextFrame
  repeat' first | with_reducible assumption | with_reducible exact Nat.le_refl _ | with_reducible apply Kept.upd

theorem kept_refuseDoorbell {s₀ s : State} (h : Kept s₀ s) (n : Nat) (code : Nat) (v : Word) : Kept s₀ (refuseDoorbell s n code v) := by
  unfold refuseDoorbell
  repeat' first | with_reducible assumption | with_reducible apply kept_hifEvent | with_reducible apply kept_State_wr

theorem kept_doorbell {s₀ s : State} (h : Kept s₀ s) (be : BitVec 4) (n : Nat) (v : Word) : Kept s₀ (doorbell s be n v) := by
  unfold doorbell
  try dsimp only
  repeat' first
    | with_reducible assumption | with_reducible apply kept_refuseDoorbell | with_reducible apply kept_State_setFld
    | with_reducible apply kept_setCqRec | with_reducible apply kept_setArmed | split

theorem kept_bar2Write {s₀ s : State} (h : Kept s₀ s) (be : BitVec 4) (a : Nat) (v : Word) : Kept s₀ (bar2Write s be a v) := by
  unfold bar2Write
  repeat' first | with_reducible assumption | with_reducible apply kept_doorbell | split

theorem kept_bufferReadFailed {s₀ s : State} (h : Kept s₀ s) (n : Nat) : Kept s₀ (bufferReadFailed s n) := by
  unfold bufferReadFailed
  repeat' first | with_reducible assumption | with_reducible apply kept_takeDesc | with_reducible apply kept_complete

theorem kept_dropIllegal {s₀ : State} {x2 : State} (h : Kept s₀ x2) (n : Nat) (x1 : List (List Word)) : Kept s₀ (dropIllegal n x1 x2) := by
  induction x1 generalizing x2 n with
  | nil => exact h
  | cons b l ih =>
    unfold dropIllegal
    try dsimp only
    repeat' first
      | with_reducible assumption | with_reducible apply ih | with_reducible apply kept_complete | with_reducible apply kept_State_setFld | split

theorem kept_takeBuffers {s₀ : State} {x3 : State} (h : Kept s₀ x3) (n : Nat) (need : Nat) (x2 : List (List Word)) (x4 : List (Nat × Nat)) :
    Kept s₀ (takeBuffers n need x2 x3 x4).1 := by
  induction x2 generalizing x3 n need x4 with
  | nil => exact h
  | cons b l ih =>
    unfold takeBuffers
    try dsimp only
    repeat' first
      | with_reducible assumption | with_reducible apply ih | with_reducible apply kept_State_setFld | with_reducible apply kept_complete | split

theorem kept_fillBuffers {s₀ s : State} (h : Kept s₀ s) (size : Nat) (x2 : List Nat) (x3 : List Byte) : Kept s₀ (fillBuffers s size x2 x3) := by
  induction x2 generalizing s size x3 with
  | nil => exact h
  | cons b l ih =>
    unfold fillBuffers
    try dsimp only
    repeat' first | with_reducible assumption | with_reducible apply ih | with_reducible apply kept_State_emit

theorem kept_deliverRx {s₀ s : State} (h : Kept s₀ s) (n : Nat) (bs : List Byte) (info : Nat → Word) (stamp : Option Nat) (trunc : Nat) (descs : List (List Word)) :
    Kept s₀ (deliverRx s n bs info stamp trunc descs).1 := by
  unfold deliverRx
  try dsimp only
  repeat' first
    | with_reducible assumption | with_reducible apply kept_State_count | with_reducible apply kept_dropIllegal
    | with_reducible apply kept_takeBuffers | with_reducible apply kept_fillBuffers | with_reducible apply kept_complete | split

theorem kept_deliverHost {s₀ s : State} (h : Kept s₀ s) (t : Nat) (descs : List (List Word)) : Kept s₀ (deliverHost s t descs) := by
  unfold deliverHost
  try dsimp only
  repeat' first
    | with_reducible assumption | with_reducible apply kept_releaseCopy | with_reducible apply kept_setQueue | with_reducible apply kept_State_count
    | with_reducible apply kept_deliverRx | split

theorem kept_deliverSample {s₀ s : State} (h : Kept s₀ s) (descs : List (List Word)) : Kept s₀ (deliverSample s descs) := by
  unfold deliverSample
  repeat' first
    | with_reducible assumption | with_reducible apply kept_State_count | with_reducible apply kept_deliverRx | with_reducible exact Nat.le_refl _
    | split | with_reducible apply Kept.upd

theorem kept_execCompletionResume {s₀ s : State} (h : Kept s₀ s) (n : Fin 256) : KeptR s₀ (execCompletionResume n s) := by
  unfold execCompletionResume
  repeat' first
    | with_reducible assumption | with_reducible apply KeptR.ite | with_reducible apply KeptR.next | with_reducible apply kept_writeCompletion
    | with_reducible apply kept_setRingRec | split

theorem kept_execCqDoorbell {s₀ s : State} (h : Kept s₀ s) (be : BitVec 4) (a : BitVec 20) (v : Word) : KeptR s₀ (execCqDoorbell be a v s) := by
  unfold execCqDoorbell
  repeat' first | with_reducible assumption | with_reducible apply KeptR.ite | with_reducible apply KeptR.next | with_reducible apply kept_bar2Write

theorem kept_execCqFire {s₀ s : State} (h : Kept s₀ s) (c : Fin 256) : KeptR s₀ (execCqFire c s) := by
  unfold execCqFire
  repeat' first
    | with_reducible assumption | with_reducible apply KeptR.ite | with_reducible apply KeptR.next | with_reducible apply kept_cqSignal
    | with_reducible apply kept_setArmed | with_reducible apply kept_setCqRec

theorem kept_execCqRearm {s₀ s : State} (h : Kept s₀ s) (be : BitVec 4) (a : BitVec 20) (v : Word) : KeptR s₀ (execCqRearm be a v s) := by
  unfold execCqRearm
  repeat' first | with_reducible assumption | with_reducible apply KeptR.ite | with_reducible apply KeptR.next | with_reducible apply kept_bar2Write

theorem kept_fetchFailed {s₀ s : State} (h : Kept s₀ s) (n : Nat) : Kept s₀ (fetchFailed s n) := by
  unfold fetchFailed
  repeat' first
    | with_reducible assumption | with_reducible apply kept_State_setFlag | with_reducible apply kept_hifEvent
    | with_reducible apply kept_setActiveRing | split

theorem kept_execDmaReadError {s₀ s : State} (h : Kept s₀ s) (n : Fin 256) (fetch : Bool) : KeptR s₀ (execDmaReadError n fetch s) := by
  unfold execDmaReadError
  repeat' first
    | with_reducible assumption | with_reducible apply KeptR.ite | with_reducible apply KeptR.next | with_reducible apply kept_fetchFailed
    | with_reducible apply kept_bufferReadFailed | with_reducible apply kept_hifEvent | with_reducible apply kept_State_wr | split

theorem kept_flushHost {s₀ s : State} (h : Kept s₀ s) : Kept s₀ (flushHost s) := by
  unfold flushHost
  repeat' first
    | with_reducible assumption | with_reducible apply kept_forEach | with_reducible apply kept_State_count | with_reducible apply kept_setQueue
    | with_reducible apply kept_releaseCopy | with_reducible exact Nat.le_refl _ | intro _ _ _ | with_reducible apply Kept.upd

theorem kept_sendHeld {s₀ s : State} (h : Kept s₀ s) : Kept s₀ (sendHeld s) := by
  unfold sendHeld
  repeat' first
    | with_reducible assumption | with_reducible apply kept_forEach | with_reducible apply kept_msixEmit | with_reducible exact Nat.le_refl _
    | intro _ _ _ | split | with_reducible apply Kept.upd

theorem kept_setFunction {s₀ s : State} (h : Kept s₀ s) (d3 : Bool) (bme : Bool) (msix : Bool) : Kept s₀ (setFunction s d3 bme msix) := by
  unfold setFunction
  repeat' first
    | with_reducible assumption | with_reducible apply Kept.ite | with_reducible apply kept_State_wr | with_reducible apply kept_hifEvent
    | with_reducible apply kept_flushHost | with_reducible apply kept_resignalAll | with_reducible apply kept_sendHeld

theorem kept_execHostPortDown {s₀ s : State} (h : Kept s₀ s) (d3 : Bool) (bme0 : Bool) (msix0 : Bool) :
    KeptR s₀ (execHostPortDown d3 bme0 msix0 s) := by
  unfold execHostPortDown
  repeat' first
    | with_reducible assumption | with_reducible apply KeptR.ite | with_reducible apply KeptR.next | with_reducible apply Kept.ite
    | with_reducible apply kept_setFunction

theorem kept_execHostPortUp {s₀ s : State} (h : Kept s₀ s) : KeptR s₀ (execHostPortUp s) := by
  unfold execHostPortUp
  repeat' first
    | with_reducible assumption | with_reducible apply KeptR.ite | with_reducible apply KeptR.next | with_reducible apply Kept.ite
    | with_reducible apply kept_setFunction

theorem kept_setLink {s₀ s : State} (h : Kept s₀ s) (link : Nat) (width : Nat) (speed : Nat) : Kept s₀ (setLink s link width speed) := by
  unfold setLink
  repeat' first | with_reducible assumption | with_reducible apply kept_State_wr | with_reducible apply kept_hifEvent | split

theorem kept_reachL0 {s₀ s : State} (h : Kept s₀ s) (width : Nat) (speed : Nat) : Kept s₀ (reachL0 s width speed) := by
  unfold reachL0
  repeat' first
    | with_reducible assumption | with_reducible apply kept_setLink | with_reducible apply kept_sendHeld | with_reducible exact Nat.le_refl _
    | with_reducible apply Kept.upd

theorem kept_execLinkL0Reached {s₀ s : State} (h : Kept s₀ s) : KeptR s₀ (execLinkL0Reached s) := by
  unfold execLinkL0Reached
  repeat' first | with_reducible assumption | with_reducible apply KeptR.ite | with_reducible apply KeptR.next | with_reducible apply kept_reachL0

theorem kept_execPcieLinkChange {s₀ s : State} (h : Kept s₀ s) (link : Fin 5) (width : BitVec 4) (speed : BitVec 4) :
    KeptR s₀ (execPcieLinkChange link width speed s) := by
  unfold execPcieLinkChange
  repeat' first
    | with_reducible assumption | with_reducible apply KeptR.ite | with_reducible apply KeptR.next | with_reducible apply kept_reachL0
    | with_reducible apply kept_setLink

theorem kept_execRingDoorbell {s₀ s : State} (h : Kept s₀ s) (be : BitVec 4) (a : BitVec 20) (v : Word) : KeptR s₀ (execRingDoorbell be a v s) := by
  unfold execRingDoorbell
  repeat' first | with_reducible assumption | with_reducible apply KeptR.ite | with_reducible apply KeptR.next | with_reducible apply kept_bar2Write

theorem kept_execRxFrameDelivery {s₀ s : State} (h : Kept s₀ s) (descs : List (List Word)) : KeptR s₀ (execRxFrameDelivery descs s) := by
  unfold execRxFrameDelivery
  repeat' first
    | with_reducible assumption | with_reducible apply KeptR.ite | with_reducible apply KeptR.next | with_reducible apply kept_deliverSample
    | with_reducible apply kept_deliverHost | split

theorem kept_execTxDescriptor {s₀ s : State} (h : Kept s₀ s) (n : Fin 256) (d : List Word) (data : List Byte) :
    KeptR s₀ (execTxDescriptor n d data s) := by
  unfold execTxDescriptor
  repeat' first
    | with_reducible assumption | with_reducible apply KeptR.ite | with_reducible apply KeptR.next | with_reducible apply kept_takeDesc
    | with_reducible apply kept_complete | with_reducible apply kept_State_nextFrame | with_reducible apply kept_forward
    | with_reducible apply kept_resolveFrame | with_reducible exact Nat.le_refl _ | split | with_reducible apply Kept.upd

theorem kept_dropWaits {s₀ s : State} (h : Kept s₀ s) (c : Nat) : Kept s₀ (dropWaits s c) := by
  unfold dropWaits
  try dsimp only
  repeat' first
    | with_reducible assumption | with_reducible apply kept_forEach | with_reducible apply kept_setRingRec | with_reducible apply kept_setActiveRing
    | intro _ _ _ | split

theorem kept_execRingStopped {s₀ s : State} (h : Kept s₀ s) (n : Fin 256) : KeptR s₀ (execRingStopped n s) := by
  unfold execRingStopped
  repeat' first
    | with_reducible assumption | with_reducible apply KeptR.ite | with_reducible apply KeptR.next | with_reducible apply kept_setActiveRing

theorem kept_vectorWritten {s₀ s : State} (h : Kept s₀ s) (v : Nat) : Kept s₀ (vectorWritten s v) := by
  unfold vectorWritten
  repeat' first | with_reducible assumption | with_reducible apply kept_msixEmit | split

theorem kept_hifApply {s₀ : State} {b : State} {s : State} (h : Kept s₀ s) (_hb : Kept s₀ b) (e : Eff) (i : Nat) : Kept s₀ (hifApply b s e i) := by
  unfold hifApply
  repeat' first
    | with_reducible assumption | with_reducible apply kept_setRingRec | with_reducible apply kept_setActiveRing
    | with_reducible apply kept_State_wr | with_reducible apply kept_setCqRec | with_reducible apply kept_dropWaits
    | with_reducible apply kept_setArmed | with_reducible apply kept_vectorWritten | split

theorem kept_pendSet {s₀ s : State} (h : Kept s₀ s) (w : Nat) (v : Word) : Kept s₀ (pendSet s w v) := by
  unfold pendSet
  repeat' first
    | with_reducible assumption | with_reducible apply kept_rejudge | with_reducible apply kept_forEach | with_reducible apply kept_setPend
    | with_reducible apply kept_wakeJudge | intro _ _ _

theorem kept_maskWritten {s₀ : State} {b : State} {s : State} (h : Kept s₀ s) (_hb : Kept s₀ b) (w : Nat) : Kept s₀ (maskWritten b s w) := by
  unfold maskWritten
  repeat' first | with_reducible assumption | with_reducible apply kept_rejudge

theorem kept_irqApply {s₀ : State} {b : State} {s : State} (h : Kept s₀ s) (_hb : Kept s₀ b) (e : Eff) (i : Nat) (off : Nat) (m : Master) (v : Word) :
    Kept s₀ (irqApply b s e i off m v) := by
  unfold irqApply
  try dsimp only
  repeat' first
    | with_reducible assumption | with_reducible apply kept_pendSet | with_reducible apply kept_maskWritten | with_reducible apply kept_clearStacks
    | with_reducible apply kept_eoi | with_reducible apply kept_latchErr | split

theorem kept_beginChange {s₀ s : State} (h : Kept s₀ s) (c : Change) (t : Nat) : Kept s₀ (beginChange s c t) := by
  unfold beginChange
  repeat' first
    | with_reducible assumption | with_reducible apply kept_setResult | with_reducible apply kept_setChange | with_reducible exact Nat.le_refl _
    | with_reducible apply Kept.upd

theorem kept_beginEntry {s₀ s : State} (h : Kept s₀ s) (c : Change) (t : Nat) : Kept s₀ (beginEntry s c t) := by
  unfold beginEntry
  repeat' first
    | with_reducible assumption | with_reducible apply kept_beginChange | with_reducible apply kept_abortEntry
    | with_reducible apply kept_setWakeLast | with_reducible exact Nat.le_refl _ | split | with_reducible apply Kept.upd

theorem kept_requestState {s₀ s : State} (h : Kept s₀ s) (t : Nat) : Kept s₀ (requestState s t) := by
  unfold requestState
  repeat' first | with_reducible assumption | with_reducible apply kept_beginChange | with_reducible apply kept_beginEntry | split

theorem kept_requestDuring {s₀ s : State} (h : Kept s₀ s) (t : Nat) : Kept s₀ (requestDuring s t) := by
  unfold requestDuring
  repeat' first
    | with_reducible assumption | with_reducible apply kept_abortEntry | with_reducible apply kept_requestState
    | with_reducible apply kept_setChange | split

theorem kept_pwrCtrlApply {s₀ : State} {b : State} {s : State} (h : Kept s₀ s) (_hb : Kept s₀ b) (v : Word) : Kept s₀ (pwrCtrlApply b s v) := by
  unfold pwrCtrlApply
  try dsimp only
  repeat' first | with_reducible assumption | with_reducible apply kept_requestState | with_reducible apply kept_requestDuring | split

theorem kept_queueWake {s₀ s : State} (h : Kept s₀ s) (p : Nat) (w : Nat) (n : Nat) : Kept s₀ (queueWake s p w n) := by
  unfold queueWake
  repeat' first | with_reducible assumption | with_reducible apply kept_setPortRec

theorem kept_sendWake {s₀ s : State} (h : Kept s₀ s) (v : Word) : Kept s₀ (sendWake s v) := by
  unfold sendWake
  repeat' first
    | with_reducible assumption | with_reducible apply kept_forEach | with_reducible apply kept_queueWake | with_reducible exact Nat.le_refl _
    | intro _ _ _ | with_reducible apply Kept.upd

theorem kept_pwrApply {s₀ : State} {b : State} {s : State} (h : Kept s₀ s) (_hb : Kept s₀ b) (e : Eff) (v : Word) : Kept s₀ (pwrApply b s e v) := by
  unfold pwrApply
  repeat' first
    | with_reducible assumption | with_reducible apply kept_pwrCtrlApply | with_reducible apply kept_sendWake | with_reducible exact Nat.le_refl _
    | split | with_reducible apply Kept.upd

theorem kept_setLodge {s₀ s : State} (h : Kept s₀ s) (t : Nat) : Kept s₀ (setLodge s t) := by
  unfold setLodge
  repeat' first | with_reducible assumption | with_reducible exact Nat.le_refl _ | with_reducible apply Kept.upd

theorem kept_setLodgeSet {s₀ s : State} (h : Kept s₀ s) (b : Bool) : Kept s₀ (setLodgeSet s b) := by
  unfold setLodgeSet
  repeat' first | with_reducible assumption | with_reducible apply kept_State_setFlag

theorem kept_takeWake {s₀ s : State} (h : Kept s₀ s) (p : Nat) (w : BitVec 64) : Kept s₀ (takeWake s p w) := by
  unfold takeWake
  repeat' first
    | with_reducible assumption | with_reducible apply kept_State_wr | with_reducible apply kept_forEach | with_reducible apply kept_queueWake
    | with_reducible apply kept_pwrEvent | with_reducible exact Nat.le_refl _ | intro _ _ _ | split | with_reducible apply Kept.upd

theorem kept_bstCtrl {s₀ : State} {b : State} {s : State} (h : Kept s₀ s) (_hb : Kept s₀ b) (c : Nat) : Kept s₀ (bstCtrl b s c) := by
  unfold bstCtrl
  try dsimp only
  repeat' first
    | with_reducible assumption | with_reducible apply kept_settleCell | with_reducible apply kept_setCell | with_reducible apply kept_placeHomeless
    | split

theorem kept_monApply {s₀ : State} {b : State} {s : State} (h : Kept s₀ s) (_hb : Kept s₀ b) (inPav : Bool) (e : Eff) (a : Nat) (u : Nat) :
    Kept s₀ (monApply b s inPav e a u) := by
  unfold monApply
  repeat' first | with_reducible assumption | with_reducible exact Nat.le_refl _ | split | with_reducible apply Kept.upd

theorem kept_tierLimits {s₀ s : State} (h : Kept s₀ s) : Kept s₀ (tierLimits s) := by
  unfold tierLimits
  repeat' first
    | with_reducible assumption | with_reducible apply kept_forEach | with_reducible apply kept_noteDepth | with_reducible exact Nat.le_refl _
    | intro _ _ _ | with_reducible apply Kept.upd

theorem kept_plcApply {s₀ : State} {_b : State} {s : State} (h : Kept s₀ s) (_h_b : Kept s₀ _b) (e : Eff) : Kept s₀ (plcApply _b s e) := by
  unfold plcApply
  repeat' first | with_reducible assumption | with_reducible apply kept_tierLimits | with_reducible apply kept_judgeLoads | split

theorem kept_tblCueApply {s₀ : State} {b : State} {s : State} (h : Kept s₀ s) (_hb : Kept s₀ b) (e : Eff) (v : Word) :
    Kept s₀ (tblCueApply b s e v) := by
  unfold tblCueApply
  repeat' first | with_reducible assumption | with_reducible apply kept_locksChanged | with_reducible apply kept_cancelCue | split

theorem kept_tdcApply {s₀ : State} {b : State} {s : State} (h : Kept s₀ s) (_hb : Kept s₀ b) (e : Eff) (i : Nat) (v : Word) :
    Kept s₀ (tdcApply b s e i v) := by
  unfold tdcApply
  try dsimp only
  repeat' first
    | with_reducible assumption | with_reducible apply kept_calCtrlWritten | with_reducible apply kept_askCal | with_reducible apply kept_setCalItem
    | with_reducible apply kept_chCfgWritten | with_reducible apply kept_diffCfgWritten | with_reducible apply kept_letFinish
    | with_reducible apply kept_abandonRun | split

theorem kept_counted {s₀ s : State} (h : Kept s₀ s) (m : Master) (a : Nat) : Kept s₀ (counted s m a) := by
  unfold counted
  repeat' first | with_reducible assumption | with_reducible apply kept_perfCount

theorem kept_reservedAccess {s₀ s : State} (h : Kept s₀ s) (m : Master) (wr : Bool) (be : BitVec 4) (a : Nat) :
    Kept s₀ (reservedAccess s m wr be a) := by
  unfold reservedAccess
  repeat' first
    | with_reducible assumption | with_reducible apply kept_State_wr | with_reducible apply kept_latchErr | with_reducible apply kept_perfCount
    | split

theorem kept_latch {s₀ s : State} (h : Kept s₀ s) (m : Master) (a : Nat) (v : Word) : Kept s₀ (latch s m a v) := by
  unfold latch
  repeat' first | with_reducible assumption | with_reducible exact Nat.le_refl _ | with_reducible apply Kept.upd

theorem kept_readEffect {s₀ s : State} (h : Kept s₀ s) (m : Master) (x : Reg) : Kept s₀ (readEffect s m x) := by
  unfold readEffect
  try dsimp only
  repeat' first
    | with_reducible assumption | with_reducible apply kept_perfCount | with_reducible apply kept_claim | with_reducible apply kept_latch
    | with_reducible apply kept_popResult | with_reducible apply kept_State_wr64 | with_reducible apply kept_State_wr | split

theorem kept_readAt {s₀ s : State} (h : Kept s₀ s) (m : Master) (be : BitVec 4) (a : Nat) (parity : Bool) : Kept s₀ (readAt s m be a parity) := by
  unfold readAt
  repeat' first
    | with_reducible assumption | with_reducible apply kept_reservedAccess | with_reducible apply kept_readEffect
    | with_reducible apply kept_latchErr | with_reducible exact Nat.le_refl _ | split | with_reducible apply Kept.upd

theorem kept_busRead {s₀ s : State} (h : Kept s₀ s) (m : Master) (be : BitVec 4) (a : Nat) (parity : Bool) : Kept s₀ (busRead s m be a parity) := by
  unfold busRead
  repeat' first | with_reducible assumption | with_reducible apply kept_counted | with_reducible apply kept_readAt | split

theorem kept_busReads {s₀ s : State} (h : Kept s₀ s) (m : Master) (be : Enables) (a : Nat) : Kept s₀ (busReads s m be a) := by
  unfold busReads
  extract_lets s1 p
  have hp : Kept s₀ p.1 := kept_foldl1 _ _ (kept_busRead h _ _ _ _) fun y e hy => kept_busRead hy _ _ _ _
  clear_value p
  with_reducible apply Kept.upd hp
  · exact Nat.le_refl _
  · exact Nat.le_refl _

theorem kept_refuse {s₀ s : State} (h : Kept s₀ s) (m : Master) (b : Block) (code : Nat) (off : Nat) (a : Nat) :
    Kept s₀ (refuse s m b code off a) := by
  unfold refuse
  repeat' first | with_reducible assumption | with_reducible apply kept_perfCount | with_reducible apply kept_latchErr

theorem kept_dwFirst {s₀ s : State} (h : Kept s₀ s) (m : Master) (x : Reg) (v : Word) (a : Nat) : Kept s₀ (dwFirst s m x v a) := by
  unfold dwFirst
  repeat' first
    | with_reducible assumption | with_reducible apply kept_refuse | with_reducible exact Nat.le_refl _ | split | with_reducible apply Kept.upd

theorem kept_closePair {s₀ s : State} (h : Kept s₀ s) (b : Block) (m : Master) : Kept s₀ (closePair s b m) := by
  unfold closePair
  repeat' first | with_reducible assumption | with_reducible exact Nat.le_refl _ | with_reducible apply Kept.upd

theorem kept_snapOne {s₀ : State} {z : State} {s : State} (h : Kept s₀ s) (_hz : Kept s₀ z) (c : SnapScope) (a : Nat) :
    Kept s₀ (snapOne z c a s) := by
  unfold snapOne
  repeat' first | with_reducible assumption | with_reducible apply kept_State_wr | with_reducible apply kept_State_wr64 | split

theorem kept_snapUnit {s₀ : State} {z : State} {s : State} (h : Kept s₀ s) (_hz : Kept s₀ z) (c : SnapScope) (a : Nat) (h' : HistUnit) :
    Kept s₀ (snapUnit z c a h' s) := by
  unfold snapUnit
  repeat' first
    | with_reducible assumption | with_reducible apply kept_State_wr | with_reducible apply kept_State_wr64 | with_reducible apply kept_forEach
    | with_reducible exact Nat.le_refl _ | intro _ _ _ | split | with_reducible apply Kept.upd

theorem kept_snapshot {s₀ s : State} (h : Kept s₀ s) (c : SnapScope) : Kept s₀ (snapshot s c) := by
  unfold snapshot
  repeat' first
    | with_reducible assumption | with_reducible apply kept_forEach | with_reducible apply kept_State_wr | with_reducible apply kept_snapOne
    | with_reducible apply kept_snapUnit | with_reducible apply kept_State_setFld | intro _ _ _ | split

theorem kept_modeChanged {s₀ : State} {b : State} {s : State} (h : Kept s₀ s) (_hb : Kept s₀ b) : Kept s₀ (modeChanged b s) := by
  unfold modeChanged
  repeat' first | with_reducible assumption | with_reducible apply kept_latchSource | with_reducible apply kept_startPorts | split

theorem kept_keyWritten {s₀ s : State} (h : Kept s₀ s) (m : Master) (v : Word) : Kept s₀ (keyWritten s m v) := by
  unfold keyWritten
  repeat' first | with_reducible assumption | with_reducible exact Nat.le_refl _ | with_reducible apply Kept.upd

theorem kept_chapterApply {s₀ : State} {b : State} {s : State} (h : Kept s₀ s) (_hb : Kept s₀ b) (m : Master) (x : Reg) (v : Word) :
    Kept s₀ (chapterApply b s m x v) := by
  unfold chapterApply
  repeat' first
    | with_reducible assumption | with_reducible apply kept_snapshot | with_reducible apply kept_gnsBlkCtrl | with_reducible apply kept_bstCtrl
    | with_reducible apply kept_modeChanged | with_reducible apply kept_keyWritten | with_reducible apply kept_clkApply
    | with_reducible apply kept_sunApply | with_reducible apply kept_tdcApply | with_reducible apply kept_judgeLoads
    | with_reducible apply kept_gnsApply | with_reducible apply kept_hifApply | with_reducible apply kept_irqApply
    | with_reducible apply kept_pwrApply | with_reducible apply kept_nvmWinApply | with_reducible apply kept_monApply
    | with_reducible apply kept_macApply | with_reducible apply kept_eyeCmdApply | with_reducible apply kept_queApply
    | with_reducible apply kept_tblCueApply | with_reducible apply kept_plcApply | split

theorem kept_storeWrite {s₀ s : State} (h : Kept s₀ s) (m : Master) (x : Reg) (v : Word) : Kept s₀ (storeWrite s m x v) := by
  unfold storeWrite
  repeat' first | with_reducible assumption | with_reducible apply kept_chapterApply | with_reducible apply kept_State_wr

theorem kept_dwSecond {s₀ s : State} (h : Kept s₀ s) (m : Master) (x : Reg) (y : Reg) (v : Word) (parity : Bool) (a : Nat) :
    Kept s₀ (dwSecond s m x y v parity a) := by
  unfold dwSecond
  try dsimp only
  repeat' first
    | with_reducible assumption | with_reducible apply kept_closePair | with_reducible apply kept_refuse | with_reducible apply kept_storeWrite
    | split

theorem kept_useKey {s₀ s : State} (h : Kept s₀ s) (m : Master) (x : Reg) : Kept s₀ (useKey s m x) := by
  unfold useKey
  repeat' first | with_reducible assumption | with_reducible exact Nat.le_refl _ | split | with_reducible apply Kept.upd

theorem kept_writeReg {s₀ s : State} (h : Kept s₀ s) (m : Master) (x : Reg) (v : Word) (parity : Bool) (a : Nat) :
    Kept s₀ (writeReg s m x v parity a) := by
  unfold writeReg
  try dsimp only
  repeat' first
    | with_reducible assumption | with_reducible apply kept_dwFirst | with_reducible apply kept_dwSecond | with_reducible apply kept_refuse
    | with_reducible apply kept_storeWrite | with_reducible apply kept_useKey | split

theorem kept_writeAt {s₀ s : State} (h : Kept s₀ s) (m : Master) (be : BitVec 4) (a : Nat) (v : Word) (parity : Bool) :
    Kept s₀ (writeAt s m be a v parity) := by
  unfold writeAt
  repeat' first
    | with_reducible assumption | with_reducible apply kept_reservedAccess | with_reducible apply kept_refuse | with_reducible apply kept_writeReg
    | split

theorem kept_busWrite {s₀ s : State} (h : Kept s₀ s) (m : Master) (be : BitVec 4) (a : Nat) (v : Word) (parity : Bool) :
    Kept s₀ (busWrite s m be a v parity) := by
  unfold busWrite
  repeat' first | with_reducible assumption | with_reducible apply kept_counted | with_reducible apply kept_writeAt | split

theorem kept_busWriteMore {s₀ s : State} (h : Kept s₀ s) (m : Master) (a : Nat) (x3 : List (BitVec 4 × Word)) : Kept s₀ (busWriteMore s m a x3) := by
  induction x3 generalizing s m a with
  | nil => exact h
  | cons b l ih =>
    unfold busWriteMore
    try dsimp only
    repeat' first | with_reducible assumption | with_reducible apply ih | with_reducible apply kept_busWrite

theorem kept_dwExpire {s₀ s : State} (h : Kept s₀ s) (m : Master) (b : Block) : Kept s₀ (dwExpire s m b) := by
  unfold dwExpire
  repeat' first | with_reducible assumption | with_reducible apply kept_latchErr | with_reducible apply kept_closePair | split

theorem kept_stepW {s₀ s : State} (h : Kept s₀ s) (n : Nat) : Kept s₀ (stepW s n) := by
  unfold stepW
  try dsimp only
  repeat' first | with_reducible assumption | with_reducible apply kept_setTdcCh | with_reducible apply kept_State_wr | split

theorem kept_stepG {s₀ s : State} (h : Kept s₀ s) (n : Nat) : Kept s₀ (stepG s n) := by
  unfold stepG
  try dsimp only
  repeat' first | with_reducible assumption | with_reducible apply kept_setTdcCh | with_reducible apply kept_State_wr | split

theorem kept_stepOfs {s₀ s : State} (h : Kept s₀ s) (n : Nat) : Kept s₀ (stepOfs s n) := by
  unfold stepOfs
  try dsimp only
  repeat' first | with_reducible assumption | with_reducible apply kept_stepMade | with_reducible apply kept_State_wr | split

theorem kept_stepLane {s₀ s : State} (h : Kept s₀ s) (l : Nat) : Kept s₀ (stepLane s l) := by
  unfold stepLane
  try dsimp only
  repeat' first | with_reducible assumption | with_reducible apply kept_stepMade | with_reducible apply kept_setLaneNow | split

theorem kept_stepAsym {s₀ s : State} (h : Kept s₀ s) (p : Nat) : Kept s₀ (stepAsym s p) := by
  unfold stepAsym
  repeat' first
    | with_reducible assumption | with_reducible apply kept_stepMade | with_reducible apply kept_State_wr | with_reducible exact Nat.le_refl _
    | split | with_reducible apply Kept.upd

theorem kept_execCalApplyStep {s₀ s : State} (h : Kept s₀ s) (what : Fin 5) (i : Fin 128) : KeptR s₀ (execCalApplyStep what i s) := by
  unfold execCalApplyStep
  repeat' first
    | with_reducible assumption | with_reducible apply KeptR.ite | with_reducible apply KeptR.next | with_reducible apply kept_stepW
    | with_reducible apply kept_stepG | with_reducible apply kept_stepOfs | with_reducible apply kept_stepLane | with_reducible apply kept_stepAsym
    | split

theorem kept_execCalDeferredStart {s₀ s : State} (h : Kept s₀ s) (l : Fin 128) : KeptR s₀ (execCalDeferredStart l s) := by
  unfold execCalDeferredStart
  repeat' first | with_reducible assumption | with_reducible apply KeptR.ite | with_reducible apply KeptR.next | with_reducible apply kept_startCal

theorem kept_execCalRangingTimeout {s₀ s : State} (h : Kept s₀ s) (p : Fin 128) : KeptR s₀ (execCalRangingTimeout p s) := by
  unfold execCalRangingTimeout
  repeat' first
    | with_reducible assumption | with_reducible apply KeptR.ite | with_reducible apply KeptR.next | with_reducible apply kept_State_setFlag
    | with_reducible apply kept_setCalItem

theorem kept_finishRun {s₀ s : State} (h : Kept s₀ s) (k : Nat) (i : Nat) (a0 : Int) (a1 : Int) (b0 : Int) (b1 : Int) :
    Kept s₀ (finishRun s k i a0 a1 b0 b1) := by
  unfold finishRun
  try dsimp only
  repeat' first
    | with_reducible assumption | with_reducible apply kept_discardRun | with_reducible apply kept_acceptOffset
    | with_reducible apply kept_acceptTrunk | split

theorem kept_finishAsym {s₀ s : State} (h : Kept s₀ s) (p : Nat) : Kept s₀ (finishAsym s p) := by
  unfold finishAsym
  try dsimp only
  repeat' first
    | with_reducible assumption | with_reducible apply kept_discardRun | with_reducible apply kept_forEach | with_reducible apply kept_askCal
    | with_reducible apply kept_State_setFlag | with_reducible apply kept_acceptAsym | intro _ _ _ | split

theorem kept_execCalRunComplete {s₀ s : State} (h : Kept s₀ s) (k : Fin 3) (i : Fin 128) (a0 : Int) (a1 : Int) (b0 : Int) (b1 : Int) :
    KeptR s₀ (execCalRunComplete k i a0 a1 b0 b1 s) := by
  unfold execCalRunComplete
  repeat' first
    | with_reducible assumption | with_reducible apply KeptR.ite | with_reducible apply KeptR.next | with_reducible apply kept_finishRun
    | with_reducible apply kept_finishAsym

theorem kept_execCalTrigger {s₀ s : State} (h : Kept s₀ s) (k : Fin 3) (i : Fin 128) : KeptR s₀ (execCalTrigger k i s) := by
  unfold execCalTrigger
  repeat' first | with_reducible assumption | with_reducible apply KeptR.ite | with_reducible apply KeptR.next | with_reducible apply kept_askCal

theorem execNvmWriteDone_kept (fail : Bool) (s : State) : ∃ m t, execNvmWriteDone fail s = .next t ∧ (BytesOk s.nvm.bytes → BytesOk m) ∧
    Kept { s with nvm := { s.nvm with bytes := m } } t :=
  have ⟨m, hm, hk⟩ := finishNvm_kept s fail
  ⟨m, _, rfl, hm, hk⟩

theorem kept_execAcqGo {s₀ s : State} (h : Kept s₀ s) (m : Master) (be : BitVec 4) (v : Word) : KeptR s₀ (execAcqGo m be v s) := by
  unfold execAcqGo
  repeat' first | with_reducible assumption | with_reducible apply KeptR.ite | with_reducible apply KeptR.next | with_reducible apply kept_busWrite

theorem kept_execAlarmSet {s₀ s : State} (h : Kept s₀ s) (m : Master) (be : BitVec 4) (high : Bool) (v : Word) :
    KeptR s₀ (execAlarmSet m be high v s) := by
  unfold execAlarmSet
  repeat' first | with_reducible assumption | with_reducible apply KeptR.ite | with_reducible apply KeptR.next | with_reducible apply kept_busWrite

theorem kept_execBar2ReservedWrite {s₀ s : State} (h : Kept s₀ s) (a : BitVec 20) (x : Option (BitVec 4 × Word)) :
    KeptR s₀ (execBar2ReservedWrite a x s) := by
  unfold execBar2ReservedWrite
  repeat' first
    | with_reducible assumption | with_reducible apply KeptR.ite | with_reducible apply KeptR.next | with_reducible apply kept_bar2Write
    | with_reducible exact Nat.le_refl _ | split | with_reducible apply Kept.upd

theorem kept_execBlkErrRead {s₀ s : State} (h : Kept s₀ s) (m : Master) (be : BitVec 4) (a : BitVec 25) : KeptR s₀ (execBlkErrRead m be a s) := by
  unfold execBlkErrRead
  repeat' first | with_reducible assumption | with_reducible apply KeptR.ite | with_reducible apply KeptR.next | with_reducible apply kept_busRead

theorem kept_execBlkLockWrite {s₀ s : State} (h : Kept s₀ s) (m : Master) (be : BitVec 4) (a : BitVec 25) (v : Word) :
    KeptR s₀ (execBlkLockWrite m be a v s) := by
  unfold execBlkLockWrite
  repeat' first | with_reducible assumption | with_reducible apply KeptR.ite | with_reducible apply KeptR.next | with_reducible apply kept_busWrite

theorem kept_execCalCommandAsym {s₀ s : State} (h : Kept s₀ s) (m : Master) (be : BitVec 4) (item : Byte) :
    KeptR s₀ (execCalCommandAsym m be item s) := by
  unfold execCalCommandAsym
  repeat' first | with_reducible assumption | with_reducible apply KeptR.ite | with_reducible apply KeptR.next | with_reducible apply kept_busWrite

theorem kept_execCalCommandOffset {s₀ s : State} (h : Kept s₀ s) (m : Master) (be : BitVec 4) (item : Byte) :
    KeptR s₀ (execCalCommandOffset m be item s) := by
  unfold execCalCommandOffset
  repeat' first | with_reducible assumption | with_reducible apply KeptR.ite | with_reducible apply KeptR.next | with_reducible apply kept_busWrite

theorem kept_execCalCommandTrunk {s₀ s : State} (h : Kept s₀ s) (m : Master) (be : BitVec 4) (item : Byte) :
    KeptR s₀ (execCalCommandTrunk m be item s) := by
  unfold execCalCommandTrunk
  repeat' first | with_reducible assumption | with_reducible apply KeptR.ite | with_reducible apply KeptR.next | with_reducible apply kept_busWrite

theorem kept_execCalEnableWrite {s₀ s : State} (h : Kept s₀ s) (m : Master) (be : BitVec 4) (v : Word) : KeptR s₀ (execCalEnableWrite m be v s) := by
  unfold execCalEnableWrite
  repeat' first | with_reducible assumption | with_reducible apply KeptR.ite | with_reducible apply KeptR.next | with_reducible apply kept_busWrite

theorem kept_execCaptureCounters {s₀ s : State} (h : Kept s₀ s) (m : Master) (be : BitVec 4) (v : Word) :
    KeptR s₀ (execCaptureCounters m be v s) := by
  unfold execCaptureCounters
  repeat' first | with_reducible assumption | with_reducible apply KeptR.ite | with_reducible apply KeptR.next | with_reducible apply kept_busWrite

theorem kept_execCellEvacuate {s₀ s : State} (h : Kept s₀ s) (m : Master) (be : BitVec 4) (c : Fin 128) (v : Word) :
    KeptR s₀ (execCellEvacuate m be c v s) := by
  unfold execCellEvacuate
  repeat' first | with_reducible assumption | with_reducible apply KeptR.ite | with_reducible apply KeptR.next | with_reducible apply kept_busWrite

theorem kept_execCellReturn {s₀ s : State} (h : Kept s₀ s) (m : Master) (be : BitVec 4) (c : Fin 128) (v : Word) :
    KeptR s₀ (execCellReturn m be c v s) := by
  unfold execCellReturn
  repeat' first | with_reducible assumption | with_reducible apply KeptR.ite | with_reducible apply KeptR.next | with_reducible apply kept_busWrite

theorem kept_execChannelNcoWrite {s₀ s : State} (h : Kept s₀ s) (m : Master) (be : BitVec 4) (c : Fin 64) (reg : Fin 3) (v : Word) :
    KeptR s₀ (execChannelNcoWrite m be c reg v s) := by
  unfold execChannelNcoWrite
  repeat' first | with_reducible assumption | with_reducible apply KeptR.ite | with_reducible apply KeptR.next | with_reducible apply kept_busWrite

theorem kept_execChannelSlewWrite {s₀ s : State} (h : Kept s₀ s) (m : Master) (be : BitVec 4) (c : Fin 64) (v : Word) :
    KeptR s₀ (execChannelSlewWrite m be c v s) := by
  unfold execChannelSlewWrite
  repeat' first | with_reducible assumption | with_reducible apply KeptR.ite | with_reducible apply KeptR.next | with_reducible apply kept_busWrite

theorem kept_execClearOnRead {s₀ s : State} (h : Kept s₀ s) (m : Master) (be : Enables) (a : BitVec 25) : KeptR s₀ (execClearOnRead m be a s) := by
  unfold execClearOnRead
  repeat' first | with_reducible assumption | with_reducible apply KeptR.ite | with_reducible apply KeptR.next | with_reducible apply kept_busReads

theorem kept_execCompareArm {s₀ s : State} (h : Kept s₀ s) (m : Master) (be : BitVec 4) (c : Fin 16) (v : Word) :
    KeptR s₀ (execCompareArm m be c v s) := by
  unfold execCompareArm
  repeat' first | with_reducible assumption | with_reducible apply KeptR.ite | with_reducible apply KeptR.next | with_reducible apply kept_busWrite

theorem kept_execCompareDisarm {s₀ s : State} (h : Kept s₀ s) (m : Master) (be : BitVec 4) (c : Fin 16) (v : Word) :
    KeptR s₀ (execCompareDisarm m be c v s) := by
  unfold execCompareDisarm
  repeat' first | with_reducible assumption | with_reducible apply KeptR.ite | with_reducible apply KeptR.next | with_reducible apply kept_busWrite

theorem kept_execCounterLowHalfRead {s₀ s : State} (h : Kept s₀ s) (m : Master) (be : Enables) (a : BitVec 25) :
    KeptR s₀ (execCounterLowHalfRead m be a s) := by
  unfold execCounterLowHalfRead
  repeat' first | with_reducible assumption | with_reducible apply KeptR.ite | with_reducible apply KeptR.next | with_reducible apply kept_busReads

theorem kept_execCounterRead {s₀ s : State} (h : Kept s₀ s) (m : Master) (be : Enables) (a : BitVec 25) : KeptR s₀ (execCounterRead m be a s) := by
  unfold execCounterRead
  repeat' first | with_reducible assumption | with_reducible apply KeptR.ite | with_reducible apply KeptR.next | with_reducible apply kept_busReads

theorem kept_execCqDisable {s₀ s : State} (h : Kept s₀ s) (m : Master) (be : BitVec 4) (n : Fin 256) (v : Word) :
    KeptR s₀ (execCqDisable m be n v s) := by
  unfold execCqDisable
  repeat' first | with_reducible assumption | with_reducible apply KeptR.ite | with_reducible apply KeptR.next | with_reducible apply kept_busWrite

theorem kept_execCqEnable {s₀ s : State} (h : Kept s₀ s) (m : Master) (be : BitVec 4) (n : Fin 256) (v : Word) :
    KeptR s₀ (execCqEnable m be n v s) := by
  unfold execCqEnable
  repeat' first | with_reducible assumption | with_reducible apply KeptR.ite | with_reducible apply KeptR.next | with_reducible apply kept_busWrite

theorem kept_execCueCancel {s₀ s : State} (h : Kept s₀ s) (m : Master) (be : BitVec 4) (v : Word) : KeptR s₀ (execCueCancel m be v s) := by
  unfold execCueCancel
  repeat' first | with_reducible assumption | with_reducible apply KeptR.ite | with_reducible apply KeptR.next | with_reducible apply kept_busWrite

theorem kept_execDomainSelectWrite {s₀ s : State} (h : Kept s₀ s) (m : Master) (be : BitVec 4) (v : Word) :
    KeptR s₀ (execDomainSelectWrite m be v s) := by
  unfold execDomainSelectWrite
  repeat' first | with_reducible assumption | with_reducible apply KeptR.ite | with_reducible apply KeptR.next | with_reducible apply kept_busWrite

theorem kept_execDpllModeWrite {s₀ s : State} (h : Kept s₀ s) (m : Master) (be : BitVec 4) (d : Fin 4) (v : Word) :
    KeptR s₀ (execDpllModeWrite m be d v s) := by
  unfold execDpllModeWrite
  repeat' first | with_reducible assumption | with_reducible apply KeptR.ite | with_reducible apply KeptR.next | with_reducible apply kept_busWrite

theorem kept_execDwComplementWrite {s₀ s : State} (h : Kept s₀ s) (m : Master) (be : BitVec 4) (a : BitVec 25) (v : Word) :
    KeptR s₀ (execDwComplementWrite m be a v s) := by
  unfold execDwComplementWrite
  repeat' first | with_reducible assumption | with_reducible apply KeptR.ite | with_reducible apply KeptR.next | with_reducible apply kept_busWrite

theorem kept_execDwFirstWrite {s₀ s : State} (h : Kept s₀ s) (m : Master) (be : BitVec 4) (a : BitVec 25) (v : Word) :
    KeptR s₀ (execDwFirstWrite m be a v s) := by
  unfold execDwFirstWrite
  repeat' first | with_reducible assumption | with_reducible apply KeptR.ite | with_reducible apply KeptR.next | with_reducible apply kept_busWrite

theorem kept_execDwWindowExpiry {s₀ s : State} (h : Kept s₀ s) (m : Master) (a : BitVec 25) : KeptR s₀ (execDwWindowExpiry m a s) := by
  unfold execDwWindowExpiry
  repeat' first
    | with_reducible assumption | with_reducible apply KeptR.ite | with_reducible apply KeptR.next | with_reducible apply kept_dwExpire | split

theorem kept_execEyeScanGo {s₀ s : State} (h : Kept s₀ s) (m : Master) (be : BitVec 4) (l : Fin 128) (v : Word) :
    KeptR s₀ (execEyeScanGo m be l v s) := by
  unfold execEyeScanGo
  repeat' first | with_reducible assumption | with_reducible apply KeptR.ite | with_reducible apply KeptR.next | with_reducible apply kept_busWrite

theorem kept_execEyeScanStop {s₀ s : State} (h : Kept s₀ s) (m : Master) (be : BitVec 4) (l : Fin 128) (v : Word) :
    KeptR s₀ (execEyeScanStop m be l v s) := by
  unfold execEyeScanStop
  repeat' first | with_reducible assumption | with_reducible apply KeptR.ite | with_reducible apply KeptR.next | with_reducible apply kept_busWrite

theorem kept_execGnssDisable {s₀ s : State} (h : Kept s₀ s) (m : Master) (be : BitVec 4) (v : Word) : KeptR s₀ (execGnssDisable m be v s) := by
  unfold execGnssDisable
  repeat' first | with_reducible assumption | with_reducible apply KeptR.ite | with_reducible apply KeptR.next | with_reducible apply kept_busWrite

theorem kept_execGrottoCancel {s₀ s : State} (h : Kept s₀ s) (m : Master) (be : BitVec 4) (j : Fin 8) (v : Word) :
    KeptR s₀ (execGrottoCancel m be j v s) := by
  unfold execGrottoCancel
  repeat' first | with_reducible assumption | with_reducible apply KeptR.ite | with_reducible apply KeptR.next | with_reducible apply kept_busWrite

theorem kept_execGrottoGo {s₀ s : State} (h : Kept s₀ s) (m : Master) (be : BitVec 4) (j : Fin 8) (v : Word) :
    KeptR s₀ (execGrottoGo m be j v s) := by
  unfold execGrottoGo
  repeat' first | with_reducible assumption | with_reducible apply KeptR.ite | with_reducible apply KeptR.next | with_reducible apply kept_busWrite

theorem kept_execHistogramDisable {s₀ s : State} (h : Kept s₀ s) (m : Master) (be : BitVec 4) (pav : Option (Fin 8)) (u : Fin 8) (v : Word) :
    KeptR s₀ (execHistogramDisable m be pav u v s) := by
  unfold execHistogramDisable
  repeat' first | with_reducible assumption | with_reducible apply KeptR.ite | with_reducible apply KeptR.next | with_reducible apply kept_busWrite

theorem kept_execHistogramEnable {s₀ s : State} (h : Kept s₀ s) (m : Master) (be : BitVec 4) (pav : Option (Fin 8)) (u : Fin 8) (v : Word) :
    KeptR s₀ (execHistogramEnable m be pav u v s) := by
  unfold execHistogramEnable
  repeat' first | with_reducible assumption | with_reducible apply KeptR.ite | with_reducible apply KeptR.next | with_reducible apply kept_busWrite

theorem kept_execIrqClaim {s₀ s : State} (h : Kept s₀ s) (m : Master) (be : BitVec 4) (t : Fin 260) : KeptR s₀ (execIrqClaim m be t s) := by
  unfold execIrqClaim
  repeat' first | with_reducible assumption | with_reducible apply KeptR.ite | with_reducible apply KeptR.next | with_reducible apply kept_busRead

theorem kept_execIrqEoi {s₀ s : State} (h : Kept s₀ s) (m : Master) (be : BitVec 4) (t : Fin 260) (v : Word) : KeptR s₀ (execIrqEoi m be t v s) := by
  unfold execIrqEoi
  repeat' first | with_reducible assumption | with_reducible apply KeptR.ite | with_reducible apply KeptR.next | with_reducible apply kept_busWrite

theorem kept_execIrqTargetWrite {s₀ s : State} (h : Kept s₀ s) (m : Master) (be : BitVec 4) (n : Fin 512) (v : Word) :
    KeptR s₀ (execIrqTargetWrite m be n v s) := by
  unfold execIrqTargetWrite
  repeat' first | with_reducible assumption | with_reducible apply KeptR.ite | with_reducible apply KeptR.next | with_reducible apply kept_busWrite

theorem kept_execMaskClrWrite {s₀ s : State} (h : Kept s₀ s) (m : Master) (be : BitVec 4) (w : Fin 16) (v : Word) :
    KeptR s₀ (execMaskClrWrite m be w v s) := by
  unfold execMaskClrWrite
  repeat' first | with_reducible assumption | with_reducible apply KeptR.ite | with_reducible apply KeptR.next | with_reducible apply kept_busWrite

theorem kept_execMaskSetWrite {s₀ s : State} (h : Kept s₀ s) (m : Master) (be : BitVec 4) (w : Fin 16) (v : Word) :
    KeptR s₀ (execMaskSetWrite m be w v s) := by
  unfold execMaskSetWrite
  repeat' first | with_reducible assumption | with_reducible apply KeptR.ite | with_reducible apply KeptR.next | with_reducible apply kept_busWrite

theorem kept_execModeChange {s₀ s : State} (h : Kept s₀ s) (m : Master) (be : BitVec 4) (v : Word) : KeptR s₀ (execModeChange m be v s) := by
  unfold execModeChange
  repeat' first | with_reducible assumption | with_reducible apply KeptR.ite | with_reducible apply KeptR.next | with_reducible apply kept_busWrite

theorem kept_execModeKeyExpiry {s₀ s : State} (h : Kept s₀ s) (m : Master) : KeptR s₀ (execModeKeyExpiry m s) := by
  unfold execModeKeyExpiry
  repeat' first
    | with_reducible assumption | with_reducible apply KeptR.ite | with_reducible apply KeptR.next | with_reducible exact Nat.le_refl _
    | with_reducible apply Kept.upd

theorem kept_execModeKeyWrite {s₀ s : State} (h : Kept s₀ s) (m : Master) (be : BitVec 4) (v : Word) : KeptR s₀ (execModeKeyWrite m be v s) := by
  unfold execModeKeyWrite
  repeat' first | with_reducible assumption | with_reducible apply KeptR.ite | with_reducible apply KeptR.next | with_reducible apply kept_busWrite

theorem kept_execNvmWindowWrite {s₀ s : State} (h : Kept s₀ s) (m : Master) (be : BitVec 4) (o : BitVec 15) (v : Word) :
    KeptR s₀ (execNvmWindowWrite m be o v s) := by
  unfold execNvmWindowWrite
  repeat' first | with_reducible assumption | with_reducible apply KeptR.ite | with_reducible apply KeptR.next | with_reducible apply kept_busWrite

theorem kept_execOutputAdjWrite {s₀ s : State} (h : Kept s₀ s) (m : Master) (be : BitVec 4) (k : Fin 8) (v : Word) :
    KeptR s₀ (execOutputAdjWrite m be k v s) := by
  unfold execOutputAdjWrite
  repeat' first | with_reducible assumption | with_reducible apply KeptR.ite | with_reducible apply KeptR.next | with_reducible apply kept_busWrite

theorem kept_execOutputDelayWrite {s₀ s : State} (h : Kept s₀ s) (m : Master) (be : BitVec 4) (k : Fin 8) (v : Word) :
    KeptR s₀ (execOutputDelayWrite m be k v s) := by
  unfold execOutputDelayWrite
  repeat' first | with_reducible assumption | with_reducible apply KeptR.ite | with_reducible apply KeptR.next | with_reducible apply kept_busWrite

theorem kept_execOutputEnableClear {s₀ s : State} (h : Kept s₀ s) (m : Master) (be : BitVec 4) (v : Word) :
    KeptR s₀ (execOutputEnableClear m be v s) := by
  unfold execOutputEnableClear
  repeat' first | with_reducible assumption | with_reducible apply KeptR.ite | with_reducible apply KeptR.next | with_reducible apply kept_busWrite

theorem kept_execOutputEnableSet {s₀ s : State} (h : Kept s₀ s) (m : Master) (be : BitVec 4) (v : Word) :
    KeptR s₀ (execOutputEnableSet m be v s) := by
  unfold execOutputEnableSet
  repeat' first | with_reducible assumption | with_reducible apply KeptR.ite | with_reducible apply KeptR.next | with_reducible apply kept_busWrite

theorem kept_execOwnerWrite {s₀ s : State} (h : Kept s₀ s) (m : Master) (be : BitVec 4) (c : Fin 64) (v : Word) :
    KeptR s₀ (execOwnerWrite m be c v s) := by
  unfold execOwnerWrite
  repeat' first | with_reducible assumption | with_reducible apply KeptR.ite | with_reducible apply KeptR.next | with_reducible apply kept_busWrite

theorem kept_execPendClrWrite {s₀ s : State} (h : Kept s₀ s) (m : Master) (be : BitVec 4) (w : Fin 16) (v : Word) :
    KeptR s₀ (execPendClrWrite m be w v s) := by
  unfold execPendClrWrite
  repeat' first | with_reducible assumption | with_reducible apply KeptR.ite | with_reducible apply KeptR.next | with_reducible apply kept_busWrite

theorem kept_execPendSetWrite {s₀ s : State} (h : Kept s₀ s) (m : Master) (be : BitVec 4) (w : Fin 16) (v : Word) :
    KeptR s₀ (execPendSetWrite m be w v s) := by
  unfold execPendSetWrite
  repeat' first | with_reducible assumption | with_reducible apply KeptR.ite | with_reducible apply KeptR.next | with_reducible apply kept_busWrite

theorem kept_execPortDisable {s₀ s : State} (h : Kept s₀ s) (m : Master) (be : BitVec 4) (p : Fin 128) (v : Word) :
    KeptR s₀ (execPortDisable m be p v s) := by
  unfold execPortDisable
  repeat' first | with_reducible assumption | with_reducible apply KeptR.ite | with_reducible apply KeptR.next | with_reducible apply kept_busWrite

theorem kept_execPortEnable {s₀ s : State} (h : Kept s₀ s) (m : Master) (be : BitVec 4) (p : Fin 128) (v : Word) :
    KeptR s₀ (execPortEnable m be p v s) := by
  unfold execPortEnable
  repeat' first | with_reducible assumption | with_reducible apply KeptR.ite | with_reducible apply KeptR.next | with_reducible apply kept_busWrite

theorem kept_execPowerRequestP0 {s₀ s : State} (h : Kept s₀ s) (m : Master) (be : BitVec 4) (key : Byte) :
    KeptR s₀ (execPowerRequestP0 m be key s) := by
  unfold execPowerRequestP0
  repeat' first | with_reducible assumption | with_reducible apply KeptR.ite | with_reducible apply KeptR.next | with_reducible apply kept_busWrite

theorem kept_execPowerRequestP1 {s₀ s : State} (h : Kept s₀ s) (m : Master) (be : BitVec 4) (key : Byte) :
    KeptR s₀ (execPowerRequestP1 m be key s) := by
  unfold execPowerRequestP1
  repeat' first | with_reducible assumption | with_reducible apply KeptR.ite | with_reducible apply KeptR.next | with_reducible apply kept_busWrite

theorem kept_execPowerRequestP2 {s₀ s : State} (h : Kept s₀ s) (m : Master) (be : BitVec 4) (key : Byte) :
    KeptR s₀ (execPowerRequestP2 m be key s) := by
  unfold execPowerRequestP2
  repeat' first | with_reducible assumption | with_reducible apply KeptR.ite | with_reducible apply KeptR.next | with_reducible apply kept_busWrite

theorem kept_execPowerRequestP3 {s₀ s : State} (h : Kept s₀ s) (m : Master) (be : BitVec 4) (key : Byte) :
    KeptR s₀ (execPowerRequestP3 m be key s) := by
  unfold execPowerRequestP3
  repeat' first | with_reducible assumption | with_reducible apply KeptR.ite | with_reducible apply KeptR.next | with_reducible apply kept_busWrite

theorem kept_execPtpConfigWrite {s₀ s : State} (h : Kept s₀ s) (m : Master) (be : BitVec 4) (p : Fin 128) (v : Word) :
    KeptR s₀ (execPtpConfigWrite m be p v s) := by
  unfold execPtpConfigWrite
  repeat' first | with_reducible assumption | with_reducible apply KeptR.ite | with_reducible apply KeptR.next | with_reducible apply kept_busWrite

theorem kept_execRefConfigWrite {s₀ s : State} (h : Kept s₀ s) (m : Master) (be : BitVec 4) (n : Fin 8) (nom : Bool) (v : Word) :
    KeptR s₀ (execRefConfigWrite m be n nom v s) := by
  unfold execRefConfigWrite
  repeat' first | with_reducible assumption | with_reducible apply KeptR.ite | with_reducible apply KeptR.next | with_reducible apply kept_busWrite

theorem kept_execRegisterReadParityError {s₀ s : State} (h : Kept s₀ s) (m : Master) (be : BitVec 4) (a : BitVec 25) :
    KeptR s₀ (execRegisterReadParityError m be a s) := by
  unfold execRegisterReadParityError
  repeat' first | with_reducible assumption | with_reducible apply KeptR.ite | with_reducible apply KeptR.next | with_reducible apply kept_busRead

theorem kept_execRegisterWrite {s₀ s : State} (h : Kept s₀ s) (m : Master) (be : BitVec 4) (a : BitVec 25) (v : Word) (rest : WriteRest) :
    KeptR s₀ (execRegisterWrite m be a v rest s) := by
  unfold execRegisterWrite
  repeat' first
    | with_reducible assumption | with_reducible apply KeptR.ite | with_reducible apply KeptR.next | with_reducible apply kept_busWriteMore
    | with_reducible apply kept_busWrite

theorem kept_execReservedRangeAccess {s₀ s : State} (h : Kept s₀ s) (m : Master) (wr : Bool) (be : BitVec 4) (a : BitVec 25) :
    KeptR s₀ (execReservedRangeAccess m wr be a s) := by
  unfold execReservedRangeAccess
  repeat' first
    | with_reducible assumption | with_reducible apply KeptR.ite | with_reducible apply KeptR.next | with_reducible apply kept_busWrite
    | with_reducible apply kept_busRead | split

theorem kept_execRingDisable {s₀ s : State} (h : Kept s₀ s) (m : Master) (be : BitVec 4) (n : Fin 256) (v : Word) :
    KeptR s₀ (execRingDisable m be n v s) := by
  unfold execRingDisable
  repeat' first | with_reducible assumption | with_reducible apply KeptR.ite | with_reducible apply KeptR.next | with_reducible apply kept_busWrite

theorem kept_execRingEnable {s₀ s : State} (h : Kept s₀ s) (m : Master) (be : BitVec 4) (n : Fin 256) (v : Word) :
    KeptR s₀ (execRingEnable m be n v s) := by
  unfold execRingEnable
  repeat' first | with_reducible assumption | with_reducible apply KeptR.ite | with_reducible apply KeptR.next | with_reducible apply kept_busWrite

theorem kept_execSchedulerDisable {s₀ s : State} (h : Kept s₀ s) (m : Master) (be : BitVec 4) (p : Fin 128) (v : Word) :
    KeptR s₀ (execSchedulerDisable m be p v s) := by
  unfold execSchedulerDisable
  repeat' first | with_reducible assumption | with_reducible apply KeptR.ite | with_reducible apply KeptR.next | with_reducible apply kept_busWrite

theorem kept_execSchedulerEnable {s₀ s : State} (h : Kept s₀ s) (m : Master) (be : BitVec 4) (p : Fin 128) (v : Word) :
    KeptR s₀ (execSchedulerEnable m be p v s) := by
  unfold execSchedulerEnable
  repeat' first | with_reducible assumption | with_reducible apply KeptR.ite | with_reducible apply KeptR.next | with_reducible apply kept_busWrite

theorem kept_execSnapshotChip {s₀ s : State} (h : Kept s₀ s) (m : Master) (be : BitVec 4) (a : BitVec 25) (target : Byte) :
    KeptR s₀ (execSnapshotChip m be a target s) := by
  unfold execSnapshotChip
  repeat' first | with_reducible assumption | with_reducible apply KeptR.ite | with_reducible apply KeptR.next | with_reducible apply kept_busWrite

theorem kept_execSnapshotGo {s₀ s : State} (h : Kept s₀ s) (m : Master) (be : BitVec 4) (v : Word) : KeptR s₀ (execSnapshotGo m be v s) := by
  unfold execSnapshotGo
  repeat' first | with_reducible assumption | with_reducible apply KeptR.ite | with_reducible apply KeptR.next | with_reducible apply kept_busWrite

theorem kept_execSnapshotPavilion {s₀ s : State} (h : Kept s₀ s) (m : Master) (be : BitVec 4) (a : BitVec 25) (target : Byte) :
    KeptR s₀ (execSnapshotPavilion m be a target s) := by
  unfold execSnapshotPavilion
  repeat' first | with_reducible assumption | with_reducible apply KeptR.ite | with_reducible apply KeptR.next | with_reducible apply kept_busWrite

theorem kept_execSnapshotPort {s₀ s : State} (h : Kept s₀ s) (m : Master) (be : BitVec 4) (a : BitVec 25) (target : Byte) :
    KeptR s₀ (execSnapshotPort m be a target s) := by
  unfold execSnapshotPort
  repeat' first | with_reducible assumption | with_reducible apply KeptR.ite | with_reducible apply KeptR.next | with_reducible apply kept_busWrite

theorem kept_execSnapshotRelease {s₀ s : State} (h : Kept s₀ s) (m : Master) (be : BitVec 4) (v : Word) :
    KeptR s₀ (execSnapshotRelease m be v s) := by
  unfold execSnapshotRelease
  repeat' first | with_reducible assumption | with_reducible apply KeptR.ite | with_reducible apply KeptR.next | with_reducible apply kept_busWrite

theorem kept_execStackClear {s₀ s : State} (h : Kept s₀ s) (m : Master) (be : BitVec 4) (v : Word) : KeptR s₀ (execStackClear m be v s) := by
  unfold execStackClear
  repeat' first | with_reducible assumption | with_reducible apply KeptR.ite | with_reducible apply KeptR.next | with_reducible apply kept_busWrite

theorem kept_execTblLockClr {s₀ s : State} (h : Kept s₀ s) (m : Master) (be : BitVec 4) (v : Word) : KeptR s₀ (execTblLockClr m be v s) := by
  unfold execTblLockClr
  repeat' first | with_reducible assumption | with_reducible apply KeptR.ite | with_reducible apply KeptR.next | with_reducible apply kept_busWrite

theorem kept_execTblLockSet {s₀ s : State} (h : Kept s₀ s) (m : Master) (be : BitVec 4) (v : Word) : KeptR s₀ (execTblLockSet m be v s) := by
  unfold execTblLockSet
  repeat' first | with_reducible assumption | with_reducible apply KeptR.ite | with_reducible apply KeptR.next | with_reducible apply kept_busWrite

theorem kept_execTdcArmCompare {s₀ s : State} (h : Kept s₀ s) (m : Master) (be : BitVec 4) (n : Fin 16) (v : Word) :
    KeptR s₀ (execTdcArmCompare m be n v s) := by
  unfold execTdcArmCompare
  repeat' first | with_reducible assumption | with_reducible apply KeptR.ite | with_reducible apply KeptR.next | with_reducible apply kept_busWrite

theorem kept_execTdcArmContinuous {s₀ s : State} (h : Kept s₀ s) (m : Master) (be : BitVec 4) (n : Fin 16) (v : Word) :
    KeptR s₀ (execTdcArmContinuous m be n v s) := by
  unfold execTdcArmContinuous
  repeat' first | with_reducible assumption | with_reducible apply KeptR.ite | with_reducible apply KeptR.next | with_reducible apply kept_busWrite

theorem kept_execTdcArmGate {s₀ s : State} (h : Kept s₀ s) (m : Master) (be : BitVec 4) (n : Fin 16) (v : Word) :
    KeptR s₀ (execTdcArmGate m be n v s) := by
  unfold execTdcArmGate
  repeat' first | with_reducible assumption | with_reducible apply KeptR.ite | with_reducible apply KeptR.next | with_reducible apply kept_busWrite

theorem kept_execTdcDiffConfigWrite {s₀ s : State} (h : Kept s₀ s) (m : Master) (be : BitVec 4) (u : Fin 8) (v : Word) :
    KeptR s₀ (execTdcDiffConfigWrite m be u v s) := by
  unfold execTdcDiffConfigWrite
  repeat' first | with_reducible assumption | with_reducible apply KeptR.ite | with_reducible apply KeptR.next | with_reducible apply kept_busWrite

theorem kept_execTdcDisarm {s₀ s : State} (h : Kept s₀ s) (m : Master) (be : BitVec 4) (n : Fin 16) (v : Word) :
    KeptR s₀ (execTdcDisarm m be n v s) := by
  unfold execTdcDisarm
  repeat' first | with_reducible assumption | with_reducible apply KeptR.ite | with_reducible apply KeptR.next | with_reducible apply kept_busWrite

theorem kept_execTdcResultRead {s₀ s : State} (h : Kept s₀ s) (m : Master) (be : BitVec 4) (n : Fin 16) : KeptR s₀ (execTdcResultRead m be n s) := by
  unfold execTdcResultRead
  repeat' first | with_reducible assumption | with_reducible apply KeptR.ite | with_reducible apply KeptR.next | with_reducible apply kept_busRead

theorem kept_execTimeOutputDisable {s₀ s : State} (h : Kept s₀ s) (m : Master) (be : BitVec 4) (k : Fin 8) (v : Word) :
    KeptR s₀ (execTimeOutputDisable m be k v s) := by
  unfold execTimeOutputDisable
  repeat' first | with_reducible assumption | with_reducible apply KeptR.ite | with_reducible apply KeptR.next | with_reducible apply kept_busWrite

theorem kept_execTimeOutputEnable {s₀ s : State} (h : Kept s₀ s) (m : Master) (be : BitVec 4) (k : Fin 8) (v : Word) :
    KeptR s₀ (execTimeOutputEnable m be k v s) := by
  unfold execTimeOutputEnable
  repeat' first | with_reducible assumption | with_reducible apply KeptR.ite | with_reducible apply KeptR.next | with_reducible apply kept_busWrite

theorem kept_execTimeSetSlew {s₀ s : State} (h : Kept s₀ s) (m : Master) (be : BitVec 4) (v : Word) : KeptR s₀ (execTimeSetSlew m be v s) := by
  unfold execTimeSetSlew
  repeat' first | with_reducible assumption | with_reducible apply KeptR.ite | with_reducible apply KeptR.next | with_reducible apply kept_busWrite

theorem kept_execTimeSetStep {s₀ s : State} (h : Kept s₀ s) (m : Master) (be : BitVec 4) (v : Word) : KeptR s₀ (execTimeSetStep m be v s) := by
  unfold execTimeSetStep
  repeat' first | with_reducible assumption | with_reducible apply KeptR.ite | with_reducible apply KeptR.next | with_reducible apply kept_busWrite

theorem kept_execTrunkWakeSend {s₀ s : State} (h : Kept s₀ s) (m : Master) (be : BitVec 4) (v : Word) : KeptR s₀ (execTrunkWakeSend m be v s) := by
  unfold execTrunkWakeSend
  repeat' first | with_reducible assumption | with_reducible apply KeptR.ite | with_reducible apply KeptR.next | with_reducible apply kept_busWrite

theorem kept_execWakeEntryWrite {s₀ s : State} (h : Kept s₀ s) (m : Master) (be : BitVec 4) (i : Fin 32) (v : Word) :
    KeptR s₀ (execWakeEntryWrite m be i v s) := by
  unfold execWakeEntryWrite
  repeat' first | with_reducible assumption | with_reducible apply KeptR.ite | with_reducible apply KeptR.next | with_reducible apply kept_busWrite

theorem kept_applyReg {s₀ s : State} (h : Kept s₀ s) (d : List Word) : Kept s₀ (applyReg s d) := by
  unfold applyReg
  repeat' first
    | with_reducible assumption | with_reducible apply kept_storeWrite | with_reducible exact Nat.le_refl _ | split | with_reducible apply Kept.upd

theorem kept_applyTable {s₀ s : State} (h : Kept s₀ s) (a : Act) : Kept s₀ (applyTable s a) := by
  unfold applyTable
  repeat' first
    | with_reducible assumption | with_reducible apply kept_putGroup | with_reducible apply kept_endFreeze | with_reducible apply kept_putEntry
    | with_reducible apply kept_deleteEntry | with_reducible apply kept_engineCommits | with_reducible exact Nat.le_refl _ | split
    | with_reducible apply Kept.upd

theorem kept_applyParam {s₀ s : State} (h : Kept s₀ s) (d : List Word) : Kept s₀ (applyParam s d) := by
  unfold applyParam
  try dsimp only
  repeat' first | with_reducible assumption | with_reducible apply kept_judgeLoads | with_reducible apply kept_setJob | split

theorem kept_applyCsw {s₀ s : State} (h : Kept s₀ s) (k : Nat) (d : List Word) : Kept s₀ (applyCsw s k d) := by
  unfold applyCsw
  repeat' first | with_reducible assumption | with_reducible exact Nat.le_refl _ | with_reducible apply Kept.upd

theorem kept_applyAct {s₀ s : State} (h : Kept s₀ s) (k : Nat) (a : Act) : Kept s₀ (applyAct s k a) := by
  unfold applyAct
  repeat' first
    | with_reducible assumption | with_reducible apply kept_applyReg | with_reducible apply kept_applyTable | with_reducible apply kept_applyParam
    | with_reducible apply kept_applyCsw | with_reducible apply kept_State_setFld | with_reducible apply kept_perfCount | split

theorem kept_safeAct {s₀ : State} {x : State × Bool} (h : Kept s₀ x.1) (k : Nat) (a : Act) : Kept s₀ (safeAct k x a).1 := by
  unfold safeAct
  with_reducible apply Kept.ite1
  · with_reducible apply kept_State_count h
  · with_reducible apply kept_applyAct h

theorem kept_applySafe {s₀ s : State} (h : Kept s₀ s) (k : Nat) (c : Cue) : Kept s₀ (applySafe s k c) := by
  unfold applySafe
  extract_lets r
  have hr : Kept s₀ r.1 := kept_foldl1 _ _ (x := (s, false)) h fun y b hy => kept_safeAct hy k b
  clear_value r
  with_reducible apply Kept.ite
  · with_reducible apply kept_cueEvent hr
  · exact hr

theorem kept_commitCue {s₀ s : State} (h : Kept s₀ s) (k : Nat) (c : Cue) : Kept s₀ (commitCue s k c) := by
  unfold commitCue
  try dsimp only
  repeat' first
    | with_reducible assumption | with_reducible apply kept_endPart | with_reducible apply kept_forEach | with_reducible apply kept_applyAct
    | with_reducible apply kept_applySafe | intro _ _ _ | split

theorem kept_endAllCues {s₀ s : State} (h : Kept s₀ s) (all : Bool) : Kept s₀ (endAllCues s all) := by
  unfold endAllCues
  repeat' first
    | with_reducible assumption | with_reducible apply kept_forEach | with_reducible apply kept_applySafe | with_reducible apply kept_endPart
    | intro _ _ _ | split

theorem kept_holdActs {s₀ : State} {x2 : State} (h : Kept s₀ x2) (k : Nat) (x1 : List (List Word)) (x3 : List Act) :
    Kept s₀ (holdActs k x1 x2 x3).1 := by
  induction x1 generalizing x2 x3 with
  | nil => exact h
  | cons b l ih =>
    unfold holdActs
    with_reducible apply Kept.ite1
    · cases hh : holdSlot x2 (actTable b == 1) (keyOf (actTable b == 1) (actEntry b)) k with
      | none => exact kept_tblEvent h _
      | some p => exact ih (kept_holdSlot h _ _ _ _ hh) _
    · exact ih h _

theorem kept_regStored {s₀ s : State} (h : Kept s₀ s) (d : List Word) : Kept s₀ (regStored s d) := by
  unfold regStored
  repeat' first | with_reducible assumption | with_reducible apply kept_State_wr | split

theorem kept_stageCsws {s₀ s : State} (h : Kept s₀ s) (k : Nat) (l : List (List Word)) : Kept s₀ (stageCsws s k l) := by
  unfold stageCsws
  repeat' first
    | with_reducible assumption | with_reducible apply kept_forEach | with_reducible exact Nat.le_refl _ | intro _ _ _
    | with_reducible apply Kept.upd

theorem kept_stageCue {s₀ s : State} (h : Kept s₀ s) (k : Nat) (c : Cue) (st : Nat) : Kept s₀ (stageCue s k c st) := by
  unfold stageCue
  repeat' first
    | with_reducible assumption | with_reducible apply kept_stageCsws | with_reducible apply kept_setCue | with_reducible apply kept_State_wr
    | with_reducible exact Nat.le_refl _ | with_reducible apply Kept.upd

theorem kept_validate {s₀ s : State} (h : Kept s₀ s) (w : List Word) (len : Nat) (k : Option Nat) (root : Bool) :
    Kept s₀ (validate s w len k root).1 := by
  unfold validate
  try dsimp only
  repeat' first | with_reducible assumption | with_reducible apply kept_holdActs | with_reducible apply kept_releaseHeld | split

end Sys2Proof.Machine
end

