-- ==== Sys2Proof/Laws/KeptRest.lean ====
section
/-!
SUPPORT. Laws/KeptRest.lean: `Kept` of the operations and commands of cues, containment, power, resets and the line.
-/
namespace Sys2Proof.Machine

theorem kept_dropGather {s₀ s : State} (h : Kept s₀ s) (m : CueMsg) : Kept s₀ (dropGather s m) := by
  unfold dropGather
  repeat' first | with_reducible assumption | with_reducible exact Nat.le_refl _ | with_reducible apply Kept.upd

theorem kept_sendPrepare {s₀ s : State} (h : Kept s₀ s) (c : Cue) : Kept s₀ (sendPrepare s c) := by
  unfold sendPrepare
  repeat' first | with_reducible assumption | with_reducible apply kept_forEach | with_reducible apply kept_floodMsg | intro _ _ _

theorem kept_rootStart {s₀ s : State} (h : Kept s₀ s) (k : Nat) (c : Cue) : Kept s₀ (rootStart s k c) := by
  unfold rootStart
  repeat' first
    | with_reducible assumption | with_reducible apply kept_State_wr | with_reducible apply kept_showAnswers | with_reducible apply kept_recordReady
    | with_reducible apply kept_sendPrepare

theorem kept_endValidation {s₀ s : State} (h : Kept s₀ s) (x : Waiting) : Kept s₀ (endValidation s x) := by
  unfold endValidation
  try dsimp only
  repeat' first
    | with_reducible assumption | with_reducible apply kept_validate | with_reducible apply kept_stageCue | with_reducible apply kept_complete
    | with_reducible apply kept_rootStart | with_reducible apply kept_State_wr | with_reducible apply kept_State_count
    | with_reducible exact Nat.le_refl _ | split | with_reducible apply Kept.upd

theorem kept_stagePrepare {s₀ s : State} (h : Kept s₀ s) (m : CueMsg) (img : List Byte) : Kept s₀ (stagePrepare s m img) := by
  unfold stagePrepare
  try dsimp only
  repeat' first
    | with_reducible assumption | with_reducible apply kept_validate | with_reducible apply kept_sendUp | with_reducible apply kept_State_count
    | with_reducible apply kept_releaseHeld | with_reducible apply kept_stageCue | split

theorem kept_takePrepare {s₀ s : State} (h : Kept s₀ s) (p : Nat) (m : CueMsg) : Kept s₀ (takePrepare s p m) := by
  unfold takePrepare
  repeat' first
    | with_reducible assumption | with_reducible apply kept_passOn | with_reducible apply kept_dropGather | with_reducible apply kept_stagePrepare
    | with_reducible exact Nat.le_refl _ | split | with_reducible apply Kept.upd

theorem kept_takeReady {s₀ s : State} (h : Kept s₀ s) (m : CueMsg) : Kept s₀ (takeReady s m) := by
  unfold takeReady
  repeat' first | with_reducible assumption | with_reducible apply kept_sendUp | with_reducible apply kept_recordReady | split

theorem kept_takeArm {s₀ s : State} (h : Kept s₀ s) (p : Nat) (m : CueMsg) : Kept s₀ (takeArm s p m) := by
  unfold takeArm
  try dsimp only
  repeat' first
    | with_reducible assumption | with_reducible apply kept_passOn | with_reducible apply kept_setSlotState | with_reducible apply kept_setCue
    | with_reducible apply kept_State_count | split

theorem kept_takeAbort {s₀ s : State} (h : Kept s₀ s) (p : Nat) (m : CueMsg) : Kept s₀ (takeAbort s p m) := by
  unfold takeAbort
  try dsimp only
  repeat' first
    | with_reducible assumption | with_reducible apply kept_dropGather | with_reducible apply kept_passOn | with_reducible apply kept_abandonCue
    | split

theorem kept_lateResult {s₀ s : State} (h : Kept s₀ s) (m : CueMsg) : Kept s₀ (lateResult s m) := by
  unfold lateResult
  repeat' first
    | with_reducible assumption | with_reducible apply kept_State_wr | with_reducible exact Nat.le_refl _ | split | with_reducible apply Kept.upd

theorem kept_takeResult {s₀ s : State} (h : Kept s₀ s) (m : CueMsg) : Kept s₀ (takeResult s m) := by
  unfold takeResult
  repeat' first
    | with_reducible assumption | with_reducible apply kept_sendUp | with_reducible apply kept_recordResult | with_reducible apply kept_lateResult
    | split

theorem kept_takePresence {s₀ s : State} (h : Kept s₀ s) (m : CueMsg) : Kept s₀ (takePresence s m) := by
  unfold takePresence
  repeat' first
    | with_reducible assumption | with_reducible apply kept_sendOn | with_reducible apply kept_cueEvent | with_reducible exact Nat.le_refl _ | split
    | with_reducible apply Kept.upd

theorem kept_takeCueMsg {s₀ s : State} (h : Kept s₀ s) (p : Nat) (m : CueMsg) : Kept s₀ (takeCueMsg s p m) := by
  unfold takeCueMsg
  repeat' first
    | with_reducible assumption | with_reducible apply kept_discardMsg | with_reducible apply kept_takePrepare | with_reducible apply kept_takeReady
    | with_reducible apply kept_takeArm | with_reducible apply kept_takeAbort | with_reducible apply kept_takeResult
    | with_reducible apply kept_takePresence | split

theorem kept_messageOn {s₀ s : State} (h : Kept s₀ s) (p : Nat) (ty : Nat) (m : CueMsg) : Kept s₀ (messageOn s p ty m) := by
  unfold messageOn
  repeat' first | with_reducible assumption | with_reducible apply kept_takeCueMsg | split

theorem kept_execAbortReceive {s₀ s : State} (h : Kept s₀ s) (p : Fin 128) (hdr : List Word) (payload : List Byte) :
    KeptR s₀ (execAbortReceive p hdr payload s) := by
  unfold execAbortReceive
  repeat' first | with_reducible assumption | with_reducible apply KeptR.ite | with_reducible apply KeptR.next | with_reducible apply kept_messageOn

theorem kept_execArmDeadline {s₀ s : State} (h : Kept s₀ s) : KeptR s₀ (execArmDeadline s) := by
  unfold execArmDeadline
  repeat' first
    | with_reducible assumption | with_reducible apply KeptR.ite | with_reducible apply KeptR.next | with_reducible apply kept_rootAbort | split

theorem kept_execArmReceive {s₀ s : State} (h : Kept s₀ s) (p : Fin 128) (hdr : List Word) (payload : List Byte) :
    KeptR s₀ (execArmReceive p hdr payload s) := by
  unfold execArmReceive
  repeat' first | with_reducible assumption | with_reducible apply KeptR.ite | with_reducible apply KeptR.next | with_reducible apply kept_messageOn

theorem kept_execCleanSwitchPoint {s₀ s : State} (h : Kept s₀ s) : KeptR s₀ (execCleanSwitchPoint s) := by
  unfold execCleanSwitchPoint
  repeat' first
    | with_reducible assumption | with_reducible apply KeptR.ite | with_reducible apply KeptR.next | with_reducible exact Nat.le_refl _
    | with_reducible apply Kept.upd

theorem kept_forceSwitch {s₀ s : State} (h : Kept s₀ s) (x : Csw) : Kept s₀ (forceSwitch s x) := by
  unfold forceSwitch
  repeat' first
    | with_reducible assumption | with_reducible apply kept_cueEvent | with_reducible apply kept_State_count | with_reducible apply kept_switchSides

theorem kept_execCswForced {s₀ s : State} (h : Kept s₀ s) : KeptR s₀ (execCswForced s) := by
  unfold execCswForced
  repeat' first
    | with_reducible assumption | with_reducible apply KeptR.ite | with_reducible apply KeptR.next | with_reducible apply kept_forEach
    | with_reducible apply kept_forceSwitch | intro _ _ _

theorem kept_execCueCommit {s₀ s : State} (h : Kept s₀ s) : KeptR s₀ (execCueCommit s) := by
  unfold execCueCommit
  repeat' first
    | with_reducible assumption | with_reducible apply KeptR.ite | with_reducible apply KeptR.next | with_reducible apply kept_commitCue | split

theorem kept_execCueCommitting {s₀ s : State} (h : Kept s₀ s) : KeptR s₀ (execCueCommitting s) := by
  unfold execCueCommitting
  repeat' first
    | with_reducible assumption | with_reducible apply KeptR.ite | with_reducible apply KeptR.next | with_reducible apply kept_forEach
    | with_reducible apply kept_setSlotState | intro _ _ _

theorem kept_execCueSubmit {s₀ s : State} (h : Kept s₀ s) (n : Fin 256) (d : List Word) (img : List Byte) : KeptR s₀ (execCueSubmit n d img s) := by
  unfold execCueSubmit
  repeat' first
    | with_reducible assumption | with_reducible apply KeptR.ite | with_reducible apply KeptR.next | with_reducible apply kept_takeDesc
    | with_reducible apply kept_setSlotState | with_reducible exact Nat.le_refl _ | split | with_reducible apply Kept.upd

theorem kept_execCueValidated {s₀ s : State} (h : Kept s₀ s) (n : Fin 256) : KeptR s₀ (execCueValidated n s) := by
  unfold execCueValidated
  try dsimp only
  repeat' first
    | with_reducible assumption | with_reducible apply KeptR.ite | with_reducible apply KeptR.next | with_reducible apply kept_endValidation
    | with_reducible exact Nat.le_refl _ | split | with_reducible apply Kept.upd

theorem kept_execFabricCueTimeout {s₀ s : State} (h : Kept s₀ s) : KeptR s₀ (execFabricCueTimeout s) := by
  unfold execFabricCueTimeout
  repeat' first
    | with_reducible assumption | with_reducible apply KeptR.ite | with_reducible apply KeptR.next | with_reducible apply kept_endPart
    | with_reducible apply kept_applySafe | split

theorem kept_execPrepareReceive {s₀ s : State} (h : Kept s₀ s) (p : Fin 128) (hdr : List Word) (payload : List Byte) :
    KeptR s₀ (execPrepareReceive p hdr payload s) := by
  unfold execPrepareReceive
  repeat' first | with_reducible assumption | with_reducible apply KeptR.ite | with_reducible apply KeptR.next | with_reducible apply kept_messageOn

theorem kept_execPresenceReceive {s₀ s : State} (h : Kept s₀ s) (p : Fin 128) (hdr : List Word) (payload : List Byte) :
    KeptR s₀ (execPresenceReceive p hdr payload s) := by
  unfold execPresenceReceive
  repeat' first | with_reducible assumption | with_reducible apply KeptR.ite | with_reducible apply KeptR.next | with_reducible apply kept_messageOn

theorem kept_execPresenceSend {s₀ s : State} (h : Kept s₀ s) : KeptR s₀ (execPresenceSend s) := by
  unfold execPresenceSend
  repeat' first
    | with_reducible assumption | with_reducible apply KeptR.ite | with_reducible apply KeptR.next | with_reducible apply kept_sendOn
    | with_reducible apply kept_flushOutbox | with_reducible exact Nat.le_refl _ | split | with_reducible apply Kept.upd

theorem kept_execReadyReceive {s₀ s : State} (h : Kept s₀ s) (p : Fin 128) (hdr : List Word) (payload : List Byte) :
    KeptR s₀ (execReadyReceive p hdr payload s) := by
  unfold execReadyReceive
  repeat' first | with_reducible assumption | with_reducible apply KeptR.ite | with_reducible apply KeptR.next | with_reducible apply kept_messageOn

theorem kept_execResultReceive {s₀ s : State} (h : Kept s₀ s) (p : Fin 128) (hdr : List Word) (payload : List Byte) :
    KeptR s₀ (execResultReceive p hdr payload s) := by
  unfold execResultReceive
  repeat' first | with_reducible assumption | with_reducible apply KeptR.ite | with_reducible apply KeptR.next | with_reducible apply kept_messageOn

theorem kept_execResultWindowExpiry {s₀ s : State} (h : Kept s₀ s) : KeptR s₀ (execResultWindowExpiry s) := by
  unfold execResultWindowExpiry
  repeat' first
    | with_reducible assumption | with_reducible apply KeptR.ite | with_reducible apply KeptR.next | with_reducible apply kept_deliverFab | split

theorem kept_schedWrite {s₀ s : State} (h : Kept s₀ s) (w : Nat × Word × Word) : Kept s₀ (schedWrite s w) := by
  unfold schedWrite
  repeat' first | with_reducible assumption | with_reducible apply kept_storeWrite | split

theorem kept_execScheduleChangeAtB {s₀ s : State} (h : Kept s₀ s) (p : Fin 128) : KeptR s₀ (execScheduleChangeAtB p s) := by
  unfold execScheduleChangeAtB
  try dsimp only
  repeat' first
    | with_reducible assumption | with_reducible apply KeptR.ite | with_reducible apply KeptR.next | with_reducible apply kept_forEach
    | with_reducible apply kept_schedWrite | with_reducible apply kept_showGate | with_reducible apply kept_setPortSw
    | with_reducible exact Nat.le_refl _ | intro _ _ _ | split | with_reducible apply Kept.upd

theorem kept_execBringupTimeout {s₀ s : State} (h : Kept s₀ s) (p : Fin 128) : KeptR s₀ (execBringupTimeout p s) := by
  unfold execBringupTimeout
  repeat' first
    | with_reducible assumption | with_reducible apply KeptR.ite | with_reducible apply KeptR.next | with_reducible apply kept_restartTrk

theorem kept_execCdrLock {s₀ s : State} (h : Kept s₀ s) (l : Fin 128) : KeptR s₀ (execCdrLock l s) := by
  unfold execCdrLock
  repeat' first
    | with_reducible assumption | with_reducible apply KeptR.ite | with_reducible apply KeptR.next | with_reducible apply kept_State_orReg
    | with_reducible apply kept_setTrk | split

theorem kept_execCdrLoss {s₀ s : State} (h : Kept s₀ s) (l : Fin 128) : KeptR s₀ (execCdrLoss l s) := by
  unfold execCdrLoss
  repeat' first | with_reducible assumption | with_reducible apply KeptR.ite | with_reducible apply KeptR.next | with_reducible apply kept_loseCdr

theorem kept_execEthLinkDown {s₀ s : State} (h : Kept s₀ s) (p : Fin 128) (lf : Bool) (rf : Bool) : KeptR s₀ (execEthLinkDown p lf rf s) := by
  unfold execEthLinkDown
  repeat' first
    | with_reducible assumption | with_reducible apply KeptR.ite | with_reducible apply KeptR.next | with_reducible apply kept_State_setFlag
    | with_reducible apply kept_portDown | with_reducible apply kept_setPortRec | with_reducible apply kept_State_emit | split

theorem kept_execEthLinkUp {s₀ s : State} (h : Kept s₀ s) (p : Fin 128) : KeptR s₀ (execEthLinkUp p s) := by
  unfold execEthLinkUp
  repeat' first
    | with_reducible assumption | with_reducible apply KeptR.ite | with_reducible apply KeptR.next | with_reducible apply kept_forEach
    | with_reducible apply kept_State_setFlag | with_reducible apply kept_portComesUp | intro _ _ _

theorem kept_execEyeScanDone {s₀ s : State} (h : Kept s₀ s) (l : Fin 128) (err : BitVec 64) : KeptR s₀ (execEyeScanDone l err s) := by
  unfold execEyeScanDone
  repeat' first
    | with_reducible assumption | with_reducible apply KeptR.ite | with_reducible apply KeptR.next | with_reducible apply kept_State_wr
    | with_reducible apply kept_State_wr64 | with_reducible apply kept_lanEvent

theorem kept_execLocalTimeMessage {s₀ s : State} (h : Kept s₀ s) (p : Fin 128) (sec : BitVec 48) (utc : Word) :
    KeptR s₀ (execLocalTimeMessage p sec utc s) := by
  unfold execLocalTimeMessage
  repeat' first
    | with_reducible assumption | with_reducible apply KeptR.ite | with_reducible apply KeptR.next | with_reducible apply kept_judgeSlot
    | with_reducible apply kept_State_setFlag | with_reducible apply kept_takeSet | with_reducible apply kept_dropPhase
    | with_reducible apply kept_loadUtc | split

theorem kept_execNegWordReceive {s₀ s : State} (h : Kept s₀ s) (p : Fin 128) (w : BitVec 64) (ppt : Int) :
    KeptR s₀ (execNegWordReceive p w ppt s) := by
  unfold execNegWordReceive
  repeat' first | with_reducible assumption | with_reducible apply KeptR.ite | with_reducible apply KeptR.next | with_reducible apply kept_takeNeg

theorem kept_execPhaseSlip {s₀ s : State} (h : Kept s₀ s) (p : Fin 128) : KeptR s₀ (execPhaseSlip p s) := by
  unfold execPhaseSlip
  repeat' first
    | with_reducible assumption | with_reducible apply KeptR.ite | with_reducible apply KeptR.next | with_reducible apply kept_restartTrk
    | with_reducible apply kept_State_count

theorem kept_execRateFallback {s₀ s : State} (h : Kept s₀ s) (p : Fin 128) : KeptR s₀ (execRateFallback p s) := by
  unfold execRateFallback
  repeat' first
    | with_reducible assumption | with_reducible apply KeptR.ite | with_reducible apply KeptR.next | with_reducible apply kept_State_setFlag
    | with_reducible apply kept_restartTrk | with_reducible apply kept_macEvent | split

theorem kept_execRateStep {s₀ s : State} (h : Kept s₀ s) (p : Fin 128) : KeptR s₀ (execRateStep p s) := by
  unfold execRateStep
  repeat' first
    | with_reducible assumption | with_reducible apply KeptR.ite | with_reducible apply KeptR.next | with_reducible apply kept_stepRateNow

theorem kept_execTrainComplete {s₀ s : State} (h : Kept s₀ s) (p : Fin 128) : KeptR s₀ (execTrainComplete p s) := by
  unfold execTrainComplete
  repeat' first
    | with_reducible assumption | with_reducible apply KeptR.ite | with_reducible apply KeptR.next | with_reducible apply kept_setTrk
    | with_reducible apply kept_State_wr

theorem kept_execTxpllLock {s₀ s : State} (h : Kept s₀ s) (p : Fin 128) : KeptR s₀ (execTxpllLock p s) := by
  unfold execTxpllLock
  repeat' first
    | with_reducible assumption | with_reducible apply KeptR.ite | with_reducible apply KeptR.next | with_reducible apply kept_forEach
    | with_reducible apply kept_State_setFlag | with_reducible apply kept_setTrk | intro _ _ _ | split

theorem kept_execTxpllLoss {s₀ s : State} (h : Kept s₀ s) (l : Fin 128) : KeptR s₀ (execTxpllLoss l s) := by
  unfold execTxpllLoss
  repeat' first | with_reducible assumption | with_reducible apply KeptR.ite | with_reducible apply KeptR.next | with_reducible apply kept_loseTxPll

theorem kept_execUpstreamSelect {s₀ s : State} (h : Kept s₀ s) : KeptR s₀ (execUpstreamSelect s) := by
  unfold execUpstreamSelect
  repeat' first
    | with_reducible assumption | with_reducible apply KeptR.ite | with_reducible apply KeptR.next | with_reducible apply kept_flushOutbox
    | with_reducible apply kept_setUpstream | with_reducible exact Nat.le_refl _ | split | with_reducible apply Kept.upd

theorem kept_execVerifyComplete {s₀ s : State} (h : Kept s₀ s) (p : Fin 128) : KeptR s₀ (execVerifyComplete p s) := by
  unfold execVerifyComplete
  repeat' first
    | with_reducible assumption | with_reducible apply KeptR.ite | with_reducible apply KeptR.next | with_reducible apply kept_flushOutbox
    | with_reducible apply kept_setTrk

theorem kept_dropRails {s₀ s : State} (h : Kept s₀ s) : Kept s₀ (dropRails s) := by
  unfold dropRails
  repeat' first
    | with_reducible assumption | with_reducible apply kept_State_emit | with_reducible exact Nat.le_refl _ | split | with_reducible apply Kept.upd

theorem kept_endChange {s₀ s : State} (h : Kept s₀ s) : Kept s₀ (endChange s) := by
  unfold endChange
  repeat' first
    | with_reducible assumption | with_reducible apply kept_setResult | with_reducible apply kept_State_setFld | with_reducible apply kept_setChange

theorem kept_feedFault {s₀ s : State} (h : Kept s₀ s) : Kept s₀ (feedFault s) := by
  unfold feedFault
  repeat' first | with_reducible assumption | with_reducible apply kept_pwrEvent

theorem kept_resetBalls {s₀ s : State} (h : Kept s₀ s) : Kept s₀ (resetBalls s) := by
  unfold resetBalls
  repeat' first | with_reducible assumption | with_reducible apply kept_State_emit | split

theorem kept_resetBlocks {s₀ s : State} (h : Kept s₀ s) : Kept s₀ (resetBlocks s) :=
  ⟨h.queue, fun x => ⟨AMap.rising_filter _ _ (h.regs x).1, AMap.clean_filter _ _ _ (h.regs x).2⟩, h.bytes, (kept_resetBalls h).sent, h.fresh, h.time,
    fun _ => rfl⟩

theorem kept_lodgeTakes {s₀ s : State} (h : Kept s₀ s) (k : Nat) : Kept s₀ (lodgeTakes s k) := by
  unfold lodgeTakes
  repeat' first | with_reducible assumption | with_reducible exact Nat.le_refl _ | split | with_reducible apply Kept.upd

theorem kept_sundialStops {s₀ s : State} (h : Kept s₀ s) : Kept s₀ (sundialStops s) := by
  unfold sundialStops
  repeat' first
    | with_reducible assumption | with_reducible apply kept_State_emit | with_reducible apply kept_cutOuts | with_reducible apply kept_setOutRec
    | with_reducible apply kept_lodgeTakes | with_reducible exact Nat.le_refl _ | split | with_reducible apply Kept.upd

theorem kept_holdChip {s₀ s : State} (h : Kept s₀ s) : Kept s₀ (holdChip s) := by
  unfold holdChip
  repeat' first | with_reducible assumption | with_reducible apply kept_resetBlocks | with_reducible apply kept_sundialStops

theorem kept_loadSundial {s₀ s : State} (h : Kept s₀ s) : Kept s₀ (loadSundial s) := by
  unfold loadSundial
  repeat' first
    | with_reducible assumption | with_reducible apply kept_refreshQc | with_reducible apply kept_settleOuts | with_reducible exact Nat.le_refl _
    | with_reducible apply Kept.upd

theorem kept_raiseRails {s₀ s : State} (h : Kept s₀ s) : Kept s₀ (raiseRails s) := by
  unfold raiseRails
  repeat' first
    | with_reducible assumption | with_reducible apply kept_State_emit | with_reducible exact Nat.le_refl _ | split | with_reducible apply Kept.upd

theorem kept_reachLodge {s₀ s : State} (h : Kept s₀ s) (t : Nat) : Kept s₀ (reachLodge s t) := by
  unfold reachLodge
  extract_lets inc n
  with_reducible apply Kept.ite
  · with_reducible apply Kept.upd h
    · exact Nat.le_refl _
    · exact Nat.le_max_left _ _
  · exact h

theorem kept_syncLodge {s₀ s : State} (h : Kept s₀ s) : Kept s₀ (syncLodge s) := by
  unfold syncLodge
  repeat' first
    | with_reducible assumption | with_reducible apply kept_State_wr64 | with_reducible apply kept_setLodge | with_reducible apply kept_setLodgeSet
    | split

theorem kept_alignLodge {s₀ s : State} (h : Kept s₀ s) (committed : Bool) : Kept s₀ (alignLodge s committed) := by
  unfold alignLodge
  repeat' first
    | with_reducible assumption | with_reducible apply kept_setResult | with_reducible apply kept_syncLodge | with_reducible apply kept_setChange
    | with_reducible exact Nat.le_refl _ | split | with_reducible apply Kept.upd

theorem kept_endIn {s₀ s : State} (h : Kept s₀ s) (st : Nat) : Kept s₀ (endIn s st) := by
  unfold endIn
  repeat' first
    | with_reducible assumption | with_reducible apply kept_setResult | with_reducible apply kept_State_setFld | with_reducible apply kept_setChange

theorem kept_brighten {s₀ s : State} (h : Kept s₀ s) (st : Nat) : Kept s₀ (brighten s st) := by
  unfold brighten
  repeat' first
    | with_reducible assumption | with_reducible apply kept_endIn | with_reducible apply kept_stateDone | with_reducible apply kept_startPorts
    | with_reducible exact Nat.le_refl _ | with_reducible apply Kept.upd

theorem kept_charge {s₀ s : State} (h : Kept s₀ s) : Kept s₀ (charge s) := by
  unfold charge
  repeat' first | with_reducible assumption | with_reducible exact Nat.le_refl _ | split | with_reducible apply Kept.upd

theorem kept_cutField {s₀ s : State} (h : Kept s₀ s) (b : Nat) : Kept s₀ (cutField s b) := by
  unfold cutField
  repeat' first
    | with_reducible assumption | with_reducible apply kept_State_emit | with_reducible apply kept_setOutRec | with_reducible exact Nat.le_refl _
    | split | with_reducible apply Kept.upd

theorem kept_saveTables {s₀ s : State} (h : Kept s₀ s) : Kept s₀ (saveTables s) := by
  unfold saveTables
  repeat' first | with_reducible assumption | with_reducible exact Nat.le_refl _ | with_reducible apply Kept.upd

theorem kept_sleepGns {s₀ s : State} (h : Kept s₀ s) : Kept s₀ (sleepGns s) := by
  unfold sleepGns
  repeat' first
    | with_reducible assumption | with_reducible apply kept_abortGrotto | with_reducible apply kept_cutCaptures | with_reducible apply kept_gnsOff
    | split

theorem kept_sleepJob {s₀ s : State} (h : Kept s₀ s) (h' : Nat) : Kept s₀ (sleepJob s h') := by
  unfold sleepJob
  try dsimp only
  repeat' first | with_reducible assumption | with_reducible apply kept_abandonMove | with_reducible apply kept_setJob | split

theorem kept_sleepJobs {s₀ s : State} (h : Kept s₀ s) : Kept s₀ (sleepJobs s) := by
  unfold sleepJobs
  repeat' first
    | with_reducible assumption | with_reducible apply kept_forEach | with_reducible apply kept_sleepJob | with_reducible exact Nat.le_refl _
    | intro _ _ _ | with_reducible apply Kept.upd

theorem kept_darken {s₀ s : State} (h : Kept s₀ s) : Kept s₀ (darken s) := by
  unfold darken
  repeat' first
    | with_reducible assumption | with_reducible apply kept_forEach | with_reducible apply kept_restartTrk | with_reducible apply kept_saveTables
    | with_reducible apply kept_sleepGns | with_reducible apply kept_sleepJobs | with_reducible apply kept_endAllCues
    | with_reducible apply kept_stopPort | intro _ _ _ | split

theorem kept_deferredWake {s₀ s : State} (h : Kept s₀ s) : Kept s₀ (deferredWake s) := by
  unfold deferredWake
  repeat' first
    | with_reducible assumption | with_reducible apply kept_startWake | with_reducible exact Nat.le_refl _ | split | with_reducible apply Kept.upd

theorem kept_emitPps {s₀ s : State} (h : Kept s₀ s) : Kept s₀ (emitPps s) := by
  unfold emitPps
  repeat' first
    | with_reducible assumption | with_reducible apply kept_State_emit | with_reducible exact Nat.le_refl _ | exact Nat.le_max_left _ _ | split
    | with_reducible apply Kept.upd

theorem kept_fetOff {s₀ s : State} (h : Kept s₀ s) (x : Nat) : Kept s₀ (fetOff s x) := by
  unfold fetOff
  repeat' first
    | with_reducible assumption | with_reducible apply kept_State_emit | with_reducible exact Nat.le_refl _ | with_reducible apply Kept.upd

theorem kept_fetOn {s₀ s : State} (h : Kept s₀ s) (x : Nat) : Kept s₀ (fetOn s x) := by
  unfold fetOn
  repeat' first
    | with_reducible assumption | with_reducible apply kept_State_emit | with_reducible apply kept_State_setFlag
    | with_reducible apply kept_State_setFld | with_reducible exact Nat.le_refl _ | with_reducible apply Kept.upd

theorem kept_gatePav {s₀ s : State} (h : Kept s₀ s) (r : Nat) : Kept s₀ (gatePav s r) := by
  unfold gatePav
  repeat' first
    | with_reducible assumption | with_reducible apply kept_forEach | with_reducible apply kept_setCell | with_reducible exact Nat.le_refl _
    | intro _ _ _ | with_reducible apply Kept.upd

theorem kept_gateIdle {s₀ s : State} (h : Kept s₀ s) : Kept s₀ (gateIdle s) := by
  unfold gateIdle
  repeat' first
    | with_reducible assumption | with_reducible apply kept_forEach | with_reducible apply kept_settleCell | with_reducible apply kept_gatePav
    | intro _ _ _

theorem kept_handBack {s₀ s : State} (h : Kept s₀ s) : Kept s₀ (handBack s) := by
  unfold handBack
  repeat' first
    | with_reducible assumption | with_reducible apply kept_beginChange | with_reducible apply kept_stateDone | with_reducible apply kept_endIn
    | with_reducible exact Nat.le_refl _ | split | with_reducible apply Kept.upd

theorem kept_lastPps {s₀ s : State} (h : Kept s₀ s) : Kept s₀ (lastPps s) := by
  unfold lastPps
  repeat' first
    | with_reducible assumption | with_reducible apply kept_lodgeTakes | with_reducible apply kept_setChange | with_reducible exact Nat.le_refl _
    | with_reducible apply Kept.upd

theorem kept_setFeedOk {s₀ s : State} (h : Kept s₀ s) (x : Nat) (b : Bool) : Kept s₀ (setFeedOk s x b) := by
  unfold setFeedOk
  repeat' first | with_reducible assumption | with_reducible apply kept_State_setFlag

theorem kept_loseFeed {s₀ s : State} (h : Kept s₀ s) (x : Nat) : Kept s₀ (loseFeed s x) := by
  unfold loseFeed
  repeat' first
    | with_reducible assumption | with_reducible apply kept_setFeedOk | with_reducible apply kept_pwrEvent | with_reducible apply kept_State_count
    | with_reducible apply kept_fetOn | with_reducible apply kept_fetOff | with_reducible apply kept_State_setFlag
    | with_reducible apply kept_feedFault | with_reducible exact Nat.le_refl _ | split | with_reducible apply Kept.upd

theorem kept_reachP2 {s₀ s : State} (h : Kept s₀ s) (toP3 : Bool) : Kept s₀ (reachP2 s toP3) := by
  unfold reachP2
  repeat' first
    | with_reducible assumption | with_reducible apply kept_setChange | with_reducible apply kept_State_setFld
    | with_reducible apply kept_deferredWake | with_reducible apply kept_stateDone | with_reducible apply kept_endIn
    | with_reducible exact Nat.le_refl _ | split | with_reducible apply Kept.upd

theorem kept_takeFeed {s₀ s : State} (h : Kept s₀ s) (x : Nat) : Kept s₀ (takeFeed s x) := by
  unfold takeFeed
  try dsimp only
  repeat' first
    | with_reducible assumption | with_reducible apply kept_charge | with_reducible apply kept_fetOn | with_reducible apply kept_State_count | split

theorem kept_regainFeed {s₀ s : State} (h : Kept s₀ s) (x : Nat) (other : Bool) : Kept s₀ (regainFeed s x other) := by
  unfold regainFeed
  repeat' first
    | with_reducible assumption | with_reducible apply kept_setFeedOk | with_reducible apply kept_takeFeed | with_reducible exact Nat.le_refl _
    | split | with_reducible apply Kept.upd

theorem kept_rest {s₀ s : State} (h : Kept s₀ s) : Kept s₀ (rest s) := by
  unfold rest
  repeat' first
    | with_reducible assumption | with_reducible apply kept_State_emit | with_reducible apply kept_calStop | with_reducible apply kept_cutOuts
    | with_reducible apply kept_setOutRec | with_reducible apply kept_endIn | with_reducible apply kept_dropRails
    | with_reducible apply kept_State_orReg | with_reducible apply kept_deferredWake | with_reducible exact Nat.le_refl _ | split
    | with_reducible apply Kept.upd

theorem kept_takeVolts {s₀ s : State} (h : Kept s₀ s) (va : BitVec 16) (vb : BitVec 16) : Kept s₀ (takeVolts s va vb) := by
  unfold takeVolts
  repeat' first | with_reducible assumption | with_reducible apply kept_State_wr

theorem kept_badAct {s₀ s : State} (h : Kept s₀ s) (k : Nat) (i : Nat) : Kept s₀ (badAct s k i) := by
  unfold badAct
  repeat' first | with_reducible assumption | with_reducible apply kept_setCue | split

theorem kept_badEntry {s₀ s : State} (h : Kept s₀ s) (r : Nat) (pl : Nat) : Kept s₀ (badEntry s r pl) := by
  unfold badEntry
  repeat' first | with_reducible assumption | with_reducible exact Nat.le_refl _ | split | with_reducible apply Kept.upd

theorem kept_safeStates {s₀ s : State} (h : Kept s₀ s) : Kept s₀ (safeStates s) := by
  unfold safeStates
  repeat' first
    | with_reducible assumption | with_reducible apply kept_gnsOff | with_reducible apply kept_cutOuts | with_reducible apply kept_forEach
    | with_reducible apply kept_stopPort | with_reducible apply kept_endAllCues | with_reducible exact Nat.le_refl _ | intro _ _ _
    | with_reducible apply Kept.upd

theorem kept_chipFatal {s₀ s : State} (h : Kept s₀ s) (cause : Nat) (detail : Nat) : Kept s₀ (chipFatal s cause detail) := by
  unfold chipFatal
  repeat' first
    | with_reducible assumption | with_reducible apply kept_State_setFlag | with_reducible apply kept_State_wr
    | with_reducible apply kept_safeStates | with_reducible apply kept_State_orReg | with_reducible apply kept_State_setFld
    | with_reducible apply kept_State_emit | with_reducible apply kept_latchSource | split

theorem kept_isolatePav {s₀ s : State} (h : Kept s₀ s) (r : Nat) : Kept s₀ (isolatePav s r) := by
  unfold isolatePav
  repeat' first
    | with_reducible assumption | with_reducible apply kept_State_orReg | with_reducible apply kept_State_setFlag
    | with_reducible apply kept_forEach | with_reducible apply kept_stopPort | with_reducible apply kept_flushPort
    | with_reducible apply kept_setPortSw | with_reducible apply kept_evictCell | with_reducible apply kept_setCell
    | with_reducible apply kept_latchSource | with_reducible apply kept_chipFatal | with_reducible exact Nat.le_refl _ | intro _ _ _ | split
    | with_reducible apply Kept.upd

theorem kept_isolateBlock {s₀ s : State} (h : Kept s₀ s) (ty : BlkTy) (r : Nat) (code : Nat) : Kept s₀ (isolateBlock s ty r code) := by
  unfold isolateBlock
  repeat' first
    | with_reducible assumption | with_reducible apply kept_recordIsolate | with_reducible apply kept_isolateBst | with_reducible apply kept_forEach
    | with_reducible apply kept_markIsolated | with_reducible apply kept_stopPort | with_reducible apply kept_isolatePav | intro _ _ _ | split

theorem kept_blockError {s₀ s : State} (h : Kept s₀ s) (ty : BlkTy) (r : Nat) : Kept s₀ (blockError s ty r) := by
  unfold blockError
  try dsimp only
  repeat' first | with_reducible assumption | with_reducible apply kept_windowHit | with_reducible apply kept_isolateBlock | split

theorem kept_chipError {s₀ s : State} (h : Kept s₀ s) (ty : BlkTy) : Kept s₀ (chipError s ty) := by
  unfold chipError
  repeat' first | with_reducible assumption | with_reducible apply kept_windowHit

theorem kept_dropQueue {s₀ s : State} (h : Kept s₀ s) (p : Nat) (t : Nat) : Kept s₀ (dropQueue s p t) := by
  unfold dropQueue
  repeat' first
    | with_reducible assumption | with_reducible apply kept_State_count | with_reducible apply kept_setQueue | with_reducible apply kept_forEach
    | with_reducible apply kept_abortStamped | with_reducible apply kept_releaseCopy | intro _ _ _

theorem kept_eccCorrected {s₀ s : State} (h : Kept s₀ s) (c : Option (Fin 128)) : Kept s₀ (eccCorrected s c) := by
  unfold eccCorrected
  repeat' first
    | with_reducible assumption | with_reducible apply kept_perfCount | with_reducible apply kept_bstEvent | with_reducible apply kept_State_count
    | split

theorem kept_frameError {s₀ s : State} (h : Kept s₀ s) (ty : BlkTy) (p : Nat) : Kept s₀ (frameError s ty p) := by
  unfold frameError
  repeat' first | with_reducible assumption | with_reducible apply kept_chipError | with_reducible apply kept_blockError | split

theorem kept_loseHeader {s₀ s : State} (h : Kept s₀ s) (ing : Nat) (e : Nat) (l : Nat) (i : Nat) : Kept s₀ (loseHeader s ing e l i) := by
  unfold loseHeader
  repeat' first
    | with_reducible assumption | with_reducible apply kept_popFifo | with_reducible apply kept_frameError | with_reducible apply kept_abortStamped
    | with_reducible exact Nat.le_refl _ | split | with_reducible apply Kept.upd

theorem kept_loseCopy {s₀ s : State} (h : Kept s₀ s) (p : Nat) (t : Nat) (i : Nat) : Kept s₀ (loseCopy s p t i) := by
  unfold loseCopy
  repeat' first
    | with_reducible assumption | with_reducible apply kept_frameError | with_reducible apply kept_abortStamped
    | with_reducible apply kept_releaseCopy | with_reducible apply kept_setQueue | split

theorem kept_showBank {s₀ s : State} (h : Kept s₀ s) (que : Bool) (r : Nat) : Kept s₀ (showBank s que r) := by
  unfold showBank
  repeat' first | with_reducible assumption | with_reducible apply kept_State_setFld

theorem kept_isolateBank {s₀ s : State} (h : Kept s₀ s) (que : Bool) (r : Nat) : Kept s₀ (isolateBank s que r) := by
  unfold isolateBank
  try dsimp only
  repeat' first
    | with_reducible assumption | with_reducible apply kept_markIsolated | with_reducible apply kept_recordIsolate
    | with_reducible apply kept_isolatePav | split

theorem kept_retireBank {s₀ s : State} (h : Kept s₀ s) (que : Bool) (r : Nat) (b : Nat) : Kept s₀ (retireBank s que r b) := by
  unfold retireBank
  repeat' first
    | with_reducible assumption | with_reducible apply kept_showBank | with_reducible apply kept_pavRetire | with_reducible apply kept_recordRetire
    | with_reducible apply kept_State_setFlag | with_reducible apply kept_reloadReplica | with_reducible apply kept_isolateBank
    | with_reducible exact Nat.le_refl _ | split | with_reducible apply Kept.upd

theorem kept_eccError {s₀ s : State} (h : Kept s₀ s) (x : EccWhere) : Kept s₀ (eccError s x) := by
  unfold eccError
  try dsimp only
  repeat' first
    | with_reducible assumption | with_reducible apply kept_loseHeader | with_reducible apply kept_loseCopy | with_reducible apply kept_takeDesc
    | with_reducible apply kept_complete | with_reducible apply kept_chipError | with_reducible apply kept_badEntry
    | with_reducible apply kept_dropQueue | with_reducible apply kept_windowHit | with_reducible apply kept_retireBank
    | with_reducible apply kept_forEach | with_reducible apply kept_badAct | with_reducible apply kept_chipFatal
    | with_reducible apply kept_refreshQc | with_reducible apply kept_setCtr | with_reducible apply kept_retireCompute
    | with_reducible apply kept_isolatePav | with_reducible apply kept_isolateBlock | intro _ _ _ | split

theorem kept_judgeWarn {s₀ s : State} (h : Kept s₀ s) (l : List Nat) (lim : Int) (stands : Bool) (b : Nat) :
    Kept s₀ (judgeWarn s l lim stands b).1 := by
  unfold judgeWarn
  try dsimp only
  repeat' first | with_reducible assumption | with_reducible apply kept_monEvent | split

theorem kept_noteSupply {s₀ s : State} (h : Kept s₀ s) (m : Nat) (v : Nat) : Kept s₀ (noteSupply s m v) := by
  unfold noteSupply
  repeat' first | with_reducible assumption | with_reducible exact Nat.le_refl _ | with_reducible apply Kept.upd

theorem kept_retireWorn {s₀ s : State} (h : Kept s₀ s) : Kept s₀ (retireWorn s) := by
  unfold retireWorn
  repeat' first
    | with_reducible assumption | with_reducible apply kept_forEach | with_reducible apply kept_retireBank | with_reducible exact Nat.le_refl _
    | intro _ _ _ | split | with_reducible apply Kept.upd

theorem kept_takePd {s₀ s : State} (h : Kept s₀ s) (err : Option Nat) : Kept s₀ (takePd s err) := by
  unfold takePd
  repeat' first | with_reducible assumption | with_reducible exact Nat.le_refl _ | split | with_reducible apply Kept.upd

theorem kept_sunTick {s₀ s : State} (h : Kept s₀ s) (x : TickIn) : Kept s₀ (sunTick s x) := by
  unfold sunTick
  repeat' first
    | with_reducible assumption | with_reducible apply kept_forEach | with_reducible apply kept_takePd | with_reducible apply kept_eccCorrected
    | with_reducible apply kept_tickClkOuts | with_reducible apply kept_tickSundial | with_reducible apply kept_tickCells
    | with_reducible apply kept_tickPorts | with_reducible apply kept_gnsTick | with_reducible apply kept_tickGates
    | with_reducible apply kept_retireWorn | with_reducible apply kept_isolatePav | intro _ _ _ | split

theorem kept_takeSupplies {s₀ s : State} (h : Kept s₀ s) (mv : List (BitVec 16)) : Kept s₀ (takeSupplies s mv) := by
  unfold takeSupplies
  repeat' first
    | with_reducible assumption | with_reducible apply kept_forEach | with_reducible apply kept_State_wr | with_reducible apply kept_histSample
    | with_reducible apply kept_noteSupply | intro _ _ _

theorem kept_takeTemps {s₀ s : State} (h : Kept s₀ s) (temps : List (BitVec 16)) : Kept s₀ (takeTemps s temps) := by
  unfold takeTemps
  repeat' first
    | with_reducible assumption | with_reducible apply kept_forEach | with_reducible apply kept_State_wr | with_reducible apply kept_histSample
    | with_reducible apply kept_monEvent | with_reducible apply kept_judgeWarn | with_reducible apply kept_noteTemps
    | with_reducible apply kept_chipFatal | with_reducible exact Nat.le_refl _ | intro _ _ _ | split | with_reducible apply Kept.upd

theorem kept_execEccUncorrectable {s₀ s : State} (h : Kept s₀ s) (x : EccWhere) : KeptR s₀ (execEccUncorrectable x s) := by
  unfold execEccUncorrectable
  repeat' first
    | with_reducible assumption | with_reducible apply KeptR.ite | with_reducible apply KeptR.next | with_reducible apply kept_eccError
    | with_reducible apply kept_perfCount

theorem kept_execOscinLapse {s₀ s : State} (h : Kept s₀ s) : KeptR s₀ (execOscinLapse s) := by
  unfold execOscinLapse
  repeat' first
    | with_reducible assumption | with_reducible apply KeptR.ite | with_reducible apply KeptR.next | with_reducible apply kept_setLodgeSet
    | with_reducible apply kept_setLodge | with_reducible apply kept_chipFatal | with_reducible exact Nat.le_refl _ | split
    | with_reducible apply Kept.upd

theorem kept_execOscinReturn {s₀ s : State} (h : Kept s₀ s) : KeptR s₀ (execOscinReturn s) := by
  unfold execOscinReturn
  repeat' first
    | with_reducible assumption | with_reducible apply KeptR.ite | with_reducible apply KeptR.next | with_reducible apply kept_setLodge
    | with_reducible exact Nat.le_refl _ | with_reducible apply Kept.upd

theorem kept_execSensorRead {s₀ s : State} (h : Kept s₀ s) (temps : List (BitVec 16)) : KeptR s₀ (execSensorRead temps s) := by
  unfold execSensorRead
  repeat' first | with_reducible assumption | with_reducible apply KeptR.ite | with_reducible apply KeptR.next | with_reducible apply kept_takeTemps

theorem kept_execSundialTick {s₀ s : State} (h : Kept s₀ s) (x : TickIn) : KeptR s₀ (execSundialTick x s) := by
  unfold execSundialTick
  repeat' first | with_reducible assumption | with_reducible apply KeptR.ite | with_reducible apply KeptR.next | with_reducible apply kept_sunTick

theorem kept_execSupplyFault {s₀ s : State} (h : Kept s₀ s) (m : Fin 8) : KeptR s₀ (execSupplyFault m s) := by
  unfold execSupplyFault
  repeat' first
    | with_reducible assumption | with_reducible apply KeptR.ite | with_reducible apply KeptR.next | with_reducible apply kept_chipFatal | split

theorem kept_execSupplyRead {s₀ s : State} (h : Kept s₀ s) (mv : List (BitVec 16)) : KeptR s₀ (execSupplyRead mv s) := by
  unfold execSupplyRead
  repeat' first
    | with_reducible assumption | with_reducible apply KeptR.ite | with_reducible apply KeptR.next | with_reducible apply kept_takeSupplies

theorem kept_chipCame {s₀ s : State} (h : Kept s₀ s) (p : Nat) (t : Nat) (chip : Bool) (on : Bool) : Kept s₀ (chipCame s p t chip on) := by
  unfold chipCame
  repeat' first | with_reducible assumption | with_reducible apply kept_setJobRec | split

theorem kept_chipLeft {s₀ s : State} (h : Kept s₀ s) (p : Nat) (sub : Nat) : Kept s₀ (chipLeft s p sub) := by
  unfold chipLeft
  repeat' first | with_reducible assumption | with_reducible apply kept_setJobRec | split

theorem kept_refuseEntry {s₀ s : State} (h : Kept s₀ s) (a : Nat) (code : Nat) : Kept s₀ (refuseEntry s a code) := by
  unfold refuseEntry
  repeat' first | with_reducible assumption | with_reducible apply kept_reservedAccess | with_reducible apply kept_refuse | split

theorem kept_applyEntry {s₀ s : State} (h : Kept s₀ s) (a : Nat) (v : Word) (mask : Word) : Kept s₀ (applyEntry s a v mask) := by
  unfold applyEntry
  try dsimp only
  repeat' first
    | with_reducible assumption | with_reducible apply kept_State_setFld | with_reducible apply kept_refuseEntry
    | with_reducible apply kept_busWrite | split

theorem kept_cfgRead {s₀ s : State} (h : Kept s₀ s) (off : Nat) : Kept s₀ (cfgRead s off).2 := by
  unfold cfgRead
  repeat' first | with_reducible assumption | with_reducible apply kept_State_drawn | split

theorem kept_execChipReset {s₀ s : State} (h : Kept s₀ s) (fails : List (Fin 5 × Fin 8 × Fin 16)) : KeptR s₀ (execChipReset fails s) := by
  unfold execChipReset
  repeat' first
    | with_reducible assumption | with_reducible apply KeptR.ite | with_reducible apply KeptR.next | with_reducible apply kept_setPend
    | with_reducible apply kept_resetBlocks | with_reducible exact Nat.le_refl _ | with_reducible apply Kept.upd

theorem kept_execChipResetPin {s₀ s : State} (h : Kept s₀ s) (low : Bool) : KeptR s₀ (execChipResetPin low s) := by
  unfold execChipResetPin
  repeat' first
    | with_reducible assumption | with_reducible apply KeptR.ite | with_reducible apply KeptR.next | with_reducible apply kept_holdChip
    | with_reducible apply kept_raiseRails | with_reducible apply kept_endChange | with_reducible exact Nat.le_refl _ | split
    | with_reducible apply Kept.upd

theorem kept_failCell {s₀ s : State} (h : Kept s₀ s) (x : Nat) : Kept s₀ (failCell s x) := by
  unfold failCell
  repeat' first
    | with_reducible assumption | with_reducible apply kept_retireLane | with_reducible apply kept_retireBank
    | with_reducible apply kept_retireCompute | with_reducible apply kept_State_drawn | with_reducible apply kept_setTdcCh
    | with_reducible apply kept_recordRetire | with_reducible apply kept_latchErr | split

theorem releaseChip_kept (s : State) : Kept { s with held := false } (releaseChip s) := by
  unfold releaseChip
  extract_lets back t s0 s1 tb s2 pw s3 s4 iq pw2
  have hr {u : State} (h : Kept s u) : Kept { s with held := false } { u with held := false } :=
    ⟨h.queue, h.regs, h.bytes, h.sent, h.fresh, h.time, id⟩
  have h1 : Kept { s with held := false } s1 :=
    hr (u := s0) (kept_State_setFld (kept_State_setFld (Kept.refl s) _ _ _ _) _ _ _ _)
  clear_value s1
  have h2 : Kept { s with held := false } s2 := kept_loadCal (kept_alignVco (kept_loadSundial (Kept.upd h1 (Nat.le_refl _) (Nat.le_refl _))))
  clear_value s2
  have h3 : Kept { s with held := false } s3 :=
    kept_forEach _ _ (fun x y hy => kept_failCell hy x) ⟨h2.queue, h2.regs, h2.bytes, h2.sent, h2.fresh, h2.time, h2.held⟩
  clear_value s3
  have h4 : Kept { s with held := false } s4 := by
    show Kept _ (if back then _ else s3)
    with_reducible apply Kept.ite
    · exact kept_forEach _ _ (fun n y hy => kept_setPend hy n true) h3
    · exact h3
  clear_value s4
  with_reducible apply kept_State_emit
  with_reducible apply Kept.upd h4
  · exact Nat.le_refl _
  · exact Nat.le_refl _

/-- CHIP_RESET_RELEASE is the one command that releases the chip; of everything else it keeps what every command keeps. -/

theorem execChipResetRelease_kept (s : State) : ∃ t, execChipResetRelease s = .next t ∧ Kept { s with held := false } t := by
  unfold execChipResetRelease
  split
  · exact ⟨_, rfl, releaseChip_kept s⟩
  · exact ⟨_, rfl, rfl, id, rfl, List.suffix_refl _, Nat.le_refl _, Nat.le_refl _, fun x => nomatch x⟩

theorem kept_execConfigImageApply {s₀ s : State} (h : Kept s₀ s) : KeptR s₀ (execConfigImageApply s) := by
  unfold execConfigImageApply
  repeat' first
    | with_reducible assumption | with_reducible apply KeptR.ite | with_reducible apply KeptR.next | with_reducible apply kept_State_setFld
    | with_reducible apply kept_forEach | with_reducible apply kept_applyEntry | with_reducible exact Nat.le_refl _ | intro _ _ _ | split
    | with_reducible apply Kept.upd

theorem kept_execFirmwareLoad {s₀ s : State} (h : Kept s₀ s) (x : FlashLoad) : KeptR s₀ (execFirmwareLoad x s) := by
  unfold execFirmwareLoad
  repeat' first
    | with_reducible assumption | with_reducible apply KeptR.ite | with_reducible apply KeptR.next | with_reducible apply kept_forEach
    | with_reducible apply kept_State_emit | with_reducible apply kept_latchSource | with_reducible exact Nat.le_refl _ | intro _ _ _
    | with_reducible apply Kept.upd

theorem kept_resetHif {s₀ s : State} (h : Kept s₀ s) : Kept s₀ (resetHif s) := by
  unfold resetHif
  extract_lets lock status s1 hf s2 s3
  have h0 : Kept s₀ s1 := kept_flushHost h
  clear_value s1
  have h2 : Kept s₀ s2 :=
    ⟨h0.queue, fun x => ⟨AMap.rising_filter _ _ (h0.regs x).1, AMap.clean_filter _ _ _ (h0.regs x).2⟩, h0.bytes, h0.sent, h0.fresh, h0.time, h0.held⟩
  clear_value s2
  have h3 : Kept s₀ s3 := by
    refine kept_forEach _ _ (fun x t ht => ?_) h2
    split
    · exact kept_freeCue ht _ _
    · exact ht
  clear_value s3
  with_reducible apply kept_State_wr
  with_reducible apply kept_State_wr
  with_reducible apply Kept.upd h3
  · exact Nat.le_refl _
  · exact Nat.le_refl _

theorem kept_execFunctionLevelReset {s₀ s : State} (h : Kept s₀ s) : KeptR s₀ (execFunctionLevelReset s) := by
  unfold execFunctionLevelReset
  repeat' first
    | with_reducible assumption | with_reducible apply KeptR.ite | with_reducible apply KeptR.next | with_reducible apply kept_hifEvent
    | with_reducible apply kept_resetHif

theorem kept_execGatehouseReady {s₀ s : State} (h : Kept s₀ s) : KeptR s₀ (execGatehouseReady s) := by
  unfold execGatehouseReady
  repeat' first
    | with_reducible assumption | with_reducible apply KeptR.ite | with_reducible apply KeptR.next | with_reducible exact Nat.le_refl _
    | with_reducible apply Kept.upd

theorem kept_setTap {s₀ s : State} (h : Kept s₀ s) (i : Nat) : Kept s₀ (setTap s i) := by
  unfold setTap
  repeat' first | with_reducible assumption | with_reducible exact Nat.le_refl _ | with_reducible apply Kept.upd

theorem kept_execJtagBypass {s₀ s : State} (h : Kept s₀ s) : KeptR s₀ (execJtagBypass s) := by
  unfold execJtagBypass
  repeat' first
    | with_reducible assumption | with_reducible apply KeptR.ite | with_reducible apply KeptR.next | with_reducible apply kept_State_emit
    | with_reducible apply kept_setTap

theorem kept_execJtagExtest {s₀ s : State} (h : Kept s₀ s) : KeptR s₀ (execJtagExtest s) := by
  unfold execJtagExtest
  repeat' first
    | with_reducible assumption | with_reducible apply KeptR.ite | with_reducible apply KeptR.next | with_reducible apply kept_State_emit
    | with_reducible apply kept_setTap

theorem kept_execJtagHighz {s₀ s : State} (h : Kept s₀ s) : KeptR s₀ (execJtagHighz s) := by
  unfold execJtagHighz
  repeat' first
    | with_reducible assumption | with_reducible apply KeptR.ite | with_reducible apply KeptR.next | with_reducible apply kept_State_emit
    | with_reducible apply kept_setTap

theorem kept_execJtagIdcode {s₀ s : State} (h : Kept s₀ s) : KeptR s₀ (execJtagIdcode s) := by
  unfold execJtagIdcode
  repeat' first
    | with_reducible assumption | with_reducible apply KeptR.ite | with_reducible apply KeptR.next | with_reducible apply kept_State_emit
    | with_reducible apply kept_setTap

theorem kept_execJtagSamplePreload {s₀ s : State} (h : Kept s₀ s) (pins : List Bool) (data : List Bool) :
    KeptR s₀ (execJtagSamplePreload pins data s) := by
  unfold execJtagSamplePreload
  repeat' first
    | with_reducible assumption | with_reducible apply KeptR.ite | with_reducible apply KeptR.next | with_reducible apply kept_setTap
    | with_reducible apply kept_State_emit | with_reducible exact Nat.le_refl _ | with_reducible apply Kept.upd

theorem kept_execLodgePowerOn {s₀ s : State} (h : Kept s₀ s) : KeptR s₀ (execLodgePowerOn s) :=
  KeptR.next ⟨h.queue, fun _ => ⟨trivial, fun _ e => nomatch e⟩, h.bytes, (kept_resetBalls h).sent, h.fresh, h.time, fun _ => rfl⟩

theorem kept_execLodgeStart {s₀ s : State} (h : Kept s₀ s) (va : BitVec 16) (vb : BitVec 16) : KeptR s₀ (execLodgeStart va vb s) := by
  unfold execLodgeStart
  repeat' first
    | with_reducible assumption | with_reducible apply KeptR.ite | with_reducible apply KeptR.next | with_reducible apply kept_takeVolts
    | with_reducible apply kept_setFeedOk | with_reducible apply kept_takeFeed | with_reducible apply kept_feedFault
    | with_reducible exact Nat.le_refl _ | split | with_reducible apply Kept.upd

theorem kept_setFnMask {s₀ s : State} (h : Kept s₀ s) (mask : Bool) : Kept s₀ (setFnMask s mask) := by
  unfold setFnMask
  repeat' first
    | with_reducible assumption | with_reducible apply kept_forEach | with_reducible apply kept_msixEmit | with_reducible exact Nat.le_refl _
    | intro _ _ _ | split | with_reducible apply Kept.upd

theorem kept_execPcieConfigRequest {s₀ s : State} (h : Kept s₀ s) (x : CfgReq) : KeptR s₀ (execPcieConfigRequest x s) := by
  unfold execPcieConfigRequest
  repeat' first
    | with_reducible assumption | with_reducible apply KeptR.ite | with_reducible apply KeptR.next | with_reducible apply kept_State_emit
    | with_reducible apply kept_cfgRead | with_reducible apply kept_setFunction | with_reducible apply kept_setFnMask
    | with_reducible apply kept_hifEvent | with_reducible apply kept_resetHif | with_reducible exact Nat.le_refl _ | split
    | with_reducible apply Kept.upd

theorem kept_execPerstAssert {s₀ s : State} (h : Kept s₀ s) : KeptR s₀ (execPerstAssert s) := by
  unfold execPerstAssert
  repeat' first
    | with_reducible assumption | with_reducible apply KeptR.ite | with_reducible apply KeptR.next | with_reducible apply kept_setLink
    | with_reducible apply kept_resetHif | with_reducible exact Nat.le_refl _ | with_reducible apply Kept.upd

theorem kept_execPerstDeassert {s₀ s : State} (h : Kept s₀ s) : KeptR s₀ (execPerstDeassert s) := by
  unfold execPerstDeassert
  repeat' first
    | with_reducible assumption | with_reducible apply KeptR.ite | with_reducible apply KeptR.next | with_reducible apply kept_pwrEvent
    | with_reducible exact Nat.le_refl _ | with_reducible apply Kept.upd

theorem kept_execRailEnable {s₀ s : State} (h : Kept s₀ s) : KeptR s₀ (execRailEnable s) := by
  unfold execRailEnable
  repeat' first
    | with_reducible assumption | with_reducible apply KeptR.ite | with_reducible apply KeptR.next | with_reducible apply kept_raiseRails

theorem kept_execRailGoodFall {s₀ s : State} (h : Kept s₀ s) : KeptR s₀ (execRailGoodFall s) := by
  unfold execRailGoodFall
  repeat' first
    | with_reducible assumption | with_reducible apply KeptR.ite | with_reducible apply KeptR.next | with_reducible apply kept_feedFault
    | with_reducible apply kept_endChange | with_reducible apply kept_holdChip | with_reducible exact Nat.le_refl _ | with_reducible apply Kept.upd

theorem kept_execRailGoodRise {s₀ s : State} (h : Kept s₀ s) : KeptR s₀ (execRailGoodRise s) := by
  unfold execRailGoodRise
  repeat' first
    | with_reducible assumption | with_reducible apply KeptR.ite | with_reducible apply KeptR.next | with_reducible exact Nat.le_refl _
    | with_reducible apply Kept.upd

theorem kept_execRailGoodTimeout {s₀ s : State} (h : Kept s₀ s) : KeptR s₀ (execRailGoodTimeout s) := by
  unfold execRailGoodTimeout
  repeat' first
    | with_reducible assumption | with_reducible apply KeptR.ite | with_reducible apply KeptR.next | with_reducible apply kept_feedFault
    | with_reducible apply kept_State_setFld | with_reducible apply kept_setChange | with_reducible apply kept_dropRails

theorem kept_execRailOffHoldEnd {s₀ s : State} (h : Kept s₀ s) : KeptR s₀ (execRailOffHoldEnd s) := by
  unfold execRailOffHoldEnd
  repeat' first
    | with_reducible assumption | with_reducible apply KeptR.ite | with_reducible apply KeptR.next | with_reducible apply kept_raiseRails
    | with_reducible exact Nat.le_refl _ | split | with_reducible apply Kept.upd

theorem kept_execTestenHigh {s₀ s : State} (h : Kept s₀ s) (high : Bool) : KeptR s₀ (execTestenHigh high s) := by
  unfold execTestenHigh
  repeat' first
    | with_reducible assumption | with_reducible apply KeptR.ite | with_reducible apply KeptR.next | with_reducible apply kept_endChange
    | with_reducible apply kept_holdChip | with_reducible exact Nat.le_refl _ | with_reducible apply Kept.upd

theorem kept_stompCopy {s₀ s : State} (h : Kept s₀ s) (f : Frame) (q : Nat) : Kept s₀ (stompCopy s f q) := by
  unfold stompCopy
  try dsimp only
  repeat' first
    | with_reducible assumption | with_reducible apply kept_perfCount | with_reducible apply kept_countQueue | with_reducible apply kept_State_count
    | with_reducible apply kept_State_emit | with_reducible apply kept_streamFrame | split

theorem kept_withdrawCopy {s₀ s : State} (h : Kept s₀ s) (f : Frame) (mc : Bool) (q : Nat) : Kept s₀ (withdrawCopy s f mc q) := by
  unfold withdrawCopy
  try dsimp only
  repeat' first
    | with_reducible assumption | with_reducible apply kept_admitCopy | with_reducible apply kept_releaseCopy | with_reducible apply kept_setQueue
    | split

theorem kept_badFrame {s₀ s : State} (h : Kept s₀ s) (p : Nat) (sof : Nat) (bs : List Byte) (sub : Nat) : Kept s₀ (badFrame s p sof bs sub) := by
  unfold badFrame
  repeat' first
    | with_reducible assumption | with_reducible apply kept_portLookup | with_reducible apply kept_State_count | with_reducible apply kept_forEach
    | with_reducible apply kept_stompCopy | with_reducible apply kept_withdrawCopy | with_reducible exact Nat.le_refl _ | intro _ _ _ | split
    | with_reducible apply Kept.upd

theorem kept_takeSample {s₀ s : State} (h : Kept s₀ s) (p : Nat) (f : Frame) : Kept s₀ (takeSample s p f) := by
  unfold takeSample
  repeat' first
    | with_reducible assumption | with_reducible apply kept_State_drawn | with_reducible apply kept_State_count | with_reducible exact Nat.le_refl _
    | split | with_reducible apply Kept.upd

theorem kept_goodFrame {s₀ s : State} (h : Kept s₀ s) (p : Nat) (sof : Nat) (bs : List Byte) (sub : Nat) : Kept s₀ (goodFrame s p sof bs sub) := by
  unfold goodFrame
  repeat' first
    | with_reducible assumption | with_reducible apply kept_State_count64 | with_reducible apply kept_State_count
    | with_reducible apply kept_takeCueMsg | with_reducible apply kept_takeSample | with_reducible apply kept_portLookup
    | with_reducible apply kept_forward | with_reducible apply kept_cswFrame | with_reducible apply kept_retireWorn
    | with_reducible apply kept_queueLearn | with_reducible exact Nat.le_refl _ | split | with_reducible apply Kept.upd

theorem kept_receiveFrame {s₀ s : State} (h : Kept s₀ s) (p : Nat) (bs : List Byte) (code : Bool) (abort : Bool) (sof : Nat) (sub : Nat) :
    Kept s₀ (receiveFrame s p bs code abort sof sub) := by
  unfold receiveFrame
  repeat' first
    | with_reducible assumption | with_reducible apply kept_State_count | with_reducible apply kept_badFrame | with_reducible apply kept_goodFrame
    | split

theorem kept_dropOpen {s₀ s : State} (h : Kept s₀ s) (p : Nat) : Kept s₀ (dropOpen s p) := by
  unfold dropOpen
  repeat' first | with_reducible assumption | with_reducible apply kept_receiveFrame | with_reducible apply kept_setPortRec | split

theorem kept_badWord {s₀ s : State} (h : Kept s₀ s) (p : Nat) : Kept s₀ (badWord s p) := by
  unfold badWord
  repeat' first | with_reducible assumption | with_reducible apply kept_dropOpen | with_reducible apply kept_State_count

theorem kept_closeFrame {s₀ s : State} (h : Kept s₀ s) (p : Nat) (last : Nat) (abort : Bool) : Kept s₀ (closeFrame s p last abort) := by
  unfold closeFrame
  repeat' first | with_reducible assumption | with_reducible apply kept_receiveFrame | with_reducible apply kept_setPortRec | split

theorem kept_openFrame {s₀ s : State} (h : Kept s₀ s) (p : Nat) (cls : Nat) (sub : Nat) : Kept s₀ (openFrame s p cls sub) := by
  unfold openFrame
  repeat' first | with_reducible assumption | with_reducible apply kept_dropOpen | with_reducible apply kept_setPortRec

theorem kept_lineNeg {s₀ s : State} (h : Kept s₀ s) (p : Nat) (w : BitVec 64) (near : Bool) : Kept s₀ (lineNeg s p w near) := by
  unfold lineNeg
  repeat' first | with_reducible assumption | with_reducible apply kept_takeNeg | split

theorem kept_ctlWord {s₀ s : State} (h : Kept s₀ s) (p : Nat) (w : BitVec 64) (near : Bool) (sub : Nat) : Kept s₀ (ctlWord s p w near sub) := by
  unfold ctlWord
  repeat' first
    | with_reducible assumption | with_reducible apply kept_badWord | with_reducible apply kept_openFrame | with_reducible apply kept_closeFrame
    | with_reducible apply kept_lineNeg | with_reducible apply kept_takeWake | split

theorem kept_dataWord {s₀ s : State} (h : Kept s₀ s) (p : Nat) (w : BitVec 64) : Kept s₀ (dataWord s p w) := by
  unfold dataWord
  repeat' first | with_reducible assumption | with_reducible apply kept_setPortRec | with_reducible apply kept_State_count | split

theorem kept_emitLines {s₀ s : State} (h : Kept s₀ s) (p : Nat) (ls : List SbLine) : Kept s₀ (emitLines s p ls) := by
  unfold emitLines
  repeat' first
    | with_reducible assumption | with_reducible apply kept_forEach | with_reducible apply kept_setLaneRec | with_reducible apply kept_State_count
    | with_reducible apply kept_State_emit | intro _ _ _ | split

theorem kept_execFrameReceive {s₀ s : State} (h : Kept s₀ s) (p : Fin 128) (bs : List Byte) (code : Bool) (abort : Bool) (sof : Fin 8) (sub : Nat) :
    KeptR s₀ (execFrameReceive p bs code abort sof sub s) := by
  unfold execFrameReceive
  repeat' first
    | with_reducible assumption | with_reducible apply KeptR.ite | with_reducible apply KeptR.next | with_reducible apply kept_receiveFrame

theorem kept_readLine {s₀ s : State} (h : Kept s₀ s) (p : Nat) (l : Nat) (line : List Bool) (fix : List (Fin 440 × BitVec 10)) :
    Kept s₀ (readLine s p l line fix).1 := by
  unfold readLine
  try dsimp only
  repeat' first | with_reducible assumption | with_reducible apply kept_setLaneRec | with_reducible apply kept_State_count | split

theorem kept_movePhase {s₀ s : State} (h : Kept s₀ s) (p : Nat) (t : Nat) : Kept s₀ (movePhase s p t) := by
  unfold movePhase
  try dsimp only
  repeat' first | with_reducible assumption | with_reducible apply kept_State_wr | with_reducible apply kept_setPortRec | split

theorem kept_judgeLock {s₀ s : State} (h : Kept s₀ s) (l : Nat) (x : SbRead) : Kept s₀ (judgeLock s l x) := by
  unfold judgeLock
  try dsimp only
  repeat' first
    | with_reducible assumption | with_reducible apply kept_setLaneRec | with_reducible apply kept_lanePortLost
    | with_reducible apply kept_State_setFlag | with_reducible apply kept_slot7Loses | with_reducible apply kept_laneLocked | split

theorem kept_takeWord {s₀ s : State} (h : Kept s₀ s) (p : Nat) (near : Bool) (sub : Nat) (w : Option LineWord) :
    Kept s₀ (takeWord s p near sub w) := by
  unfold takeWord
  repeat' first
    | with_reducible assumption | with_reducible apply kept_dropOpen | with_reducible apply kept_ctlWord | with_reducible apply kept_dataWord
    | split

theorem kept_takeWords {s₀ s : State} (h : Kept s₀ s) (p : Nat) (near : Bool) (sub : Nat) (lanes : List (Option (List LineWord))) :
    Kept s₀ (takeWords s p near sub lanes) := by
  unfold takeWords
  repeat' first
    | with_reducible assumption | with_reducible apply kept_takeTimeWord | with_reducible apply kept_forEach | with_reducible apply kept_takeWord
    | intro _ _ _ | split

theorem kept_joinLanes {s₀ s : State} (h : Kept s₀ s) (p : Nat) (q : Nat) (near : Bool) (sub : Nat) : Kept s₀ (joinLanes s p q near sub) := by
  unfold joinLanes
  repeat' first
    | with_reducible assumption | with_reducible apply Kept.ite | with_reducible apply kept_forEach | with_reducible apply kept_setLaneRec
    | with_reducible apply kept_faultTrk | with_reducible apply kept_setPortRec | with_reducible apply kept_setTrk
    | with_reducible apply kept_takeWords | intro _ _ _

theorem kept_execSuperblockReceive {s₀ s : State} (h : Kept s₀ s) (l : Fin 128) (line : LineSig) (fix : List (Fin 440 × BitVec 10)) (ppt : Int) (sub : Nat) :
    KeptR s₀ (execSuperblockReceive l line fix ppt sub s) := by
  unfold execSuperblockReceive
  repeat' first
    | with_reducible assumption | with_reducible apply KeptR.ite | with_reducible apply KeptR.next | with_reducible apply Kept.ite
    | with_reducible apply kept_readLine | with_reducible apply kept_movePhase | with_reducible apply kept_chipCame
    | with_reducible apply kept_State_count | with_reducible apply kept_judgeLock | with_reducible apply kept_setLaneRec
    | with_reducible apply kept_joinLanes | with_reducible apply kept_dropOpen | split

theorem kept_sendSuperblock {s₀ s : State} (h : Kept s₀ s) (p : Nat) (sub : Nat) : Kept s₀ (sendSuperblock s p sub) := by
  unfold sendSuperblock
  try dsimp only
  repeat' first
    | with_reducible assumption | with_reducible apply kept_forEach | with_reducible apply kept_emitLines | with_reducible apply kept_State_count
    | with_reducible apply kept_setPortRec | with_reducible apply kept_chipLeft | with_reducible apply kept_copySent | intro _ _ _ | split

theorem kept_execSuperblockTransmit {s₀ s : State} (h : Kept s₀ s) (x : SbStart) : KeptR s₀ (execSuperblockTransmit x s) := by
  unfold execSuperblockTransmit
  repeat' first
    | with_reducible assumption | with_reducible apply KeptR.ite | with_reducible apply KeptR.next | with_reducible apply kept_sendSuperblock
    | split

theorem kept_execChargeComplete {s₀ s : State} (h : Kept s₀ s) (c : BitVec 16) : KeptR s₀ (execChargeComplete c s) := by
  unfold execChargeComplete
  repeat' first
    | with_reducible assumption | with_reducible apply KeptR.ite | with_reducible apply KeptR.next | with_reducible apply kept_State_wr
    | with_reducible apply kept_State_setFlag | with_reducible exact Nat.le_refl _ | with_reducible apply Kept.upd

theorem kept_execChargeTimeout {s₀ s : State} (h : Kept s₀ s) (v : BitVec 16) : KeptR s₀ (execChargeTimeout v s) := by
  unfold execChargeTimeout
  repeat' first
    | with_reducible assumption | with_reducible apply KeptR.ite | with_reducible apply KeptR.next | with_reducible apply kept_State_setFld
    | with_reducible apply kept_feedFault | with_reducible exact Nat.le_refl _ | split | with_reducible apply Kept.upd

theorem kept_execFeedLost {s₀ s : State} (h : Kept s₀ s) (x : Fin 2) (va : BitVec 16 × BitVec 16) (vb : BitVec 16 × BitVec 16) :
    KeptR s₀ (execFeedLost x va vb s) := by
  unfold execFeedLost
  repeat' first
    | with_reducible assumption | with_reducible apply KeptR.ite | with_reducible apply KeptR.next | with_reducible apply kept_takeVolts
    | with_reducible apply kept_loseFeed

theorem kept_execFeedReturn {s₀ s : State} (h : Kept s₀ s) (x : Fin 2) (va : BitVec 16 × BitVec 16) (vb : BitVec 16 × BitVec 16) :
    KeptR s₀ (execFeedReturn x va vb s) := by
  unfold execFeedReturn
  repeat' first
    | with_reducible assumption | with_reducible apply KeptR.ite | with_reducible apply KeptR.next | with_reducible apply kept_takeVolts
    | with_reducible apply kept_regainFeed

theorem kept_execFeedRevert {s₀ s : State} (h : Kept s₀ s) : KeptR s₀ (execFeedRevert s) := by
  unfold execFeedRevert
  repeat' first
    | with_reducible assumption | with_reducible apply KeptR.ite | with_reducible apply KeptR.next | with_reducible apply kept_pwrEvent
    | with_reducible apply kept_State_count | with_reducible apply kept_State_emit | with_reducible apply kept_fetOn | split

theorem kept_execFieldRetry {s₀ s : State} (h : Kept s₀ s) (b : Fin 12) : KeptR s₀ (execFieldRetry b s) := by
  unfold execFieldRetry
  repeat' first
    | with_reducible assumption | with_reducible apply KeptR.ite | with_reducible apply KeptR.next | with_reducible apply kept_State_setFlag
    | with_reducible exact Nat.le_refl _ | with_reducible apply Kept.upd

theorem kept_execFieldShort {s₀ s : State} (h : Kept s₀ s) (b : Fin 12) : KeptR s₀ (execFieldShort b s) := by
  unfold execFieldShort
  repeat' first
    | with_reducible assumption | with_reducible apply KeptR.ite | with_reducible apply KeptR.next | with_reducible apply kept_State_count
    | with_reducible apply kept_State_setFlag | with_reducible apply kept_cutField | with_reducible exact Nat.le_refl _
    | with_reducible apply Kept.upd

theorem kept_execLodgeAlarm {s₀ s : State} (h : Kept s₀ s) : KeptR s₀ (execLodgeAlarm s) := by
  unfold execLodgeAlarm
  repeat' first
    | with_reducible assumption | with_reducible apply KeptR.ite | with_reducible apply KeptR.next | with_reducible apply kept_reachLodge
    | with_reducible apply kept_pwrEvent | with_reducible apply kept_State_setFlag

theorem kept_execLodgePps {s₀ s : State} (h : Kept s₀ s) : KeptR s₀ (execLodgePps s) := by
  unfold execLodgePps
  repeat' first | with_reducible assumption | with_reducible apply KeptR.ite | with_reducible apply KeptR.next | with_reducible apply kept_emitPps

theorem kept_execLodgeStop {s₀ s : State} (h : Kept s₀ s) : KeptR s₀ (execLodgeStop s) := by
  unfold execLodgeStop
  repeat' first
    | with_reducible assumption | with_reducible apply KeptR.ite | with_reducible apply KeptR.next | with_reducible apply kept_holdChip
    | with_reducible apply kept_setLodge | with_reducible exact Nat.le_refl _ | with_reducible apply Kept.upd

theorem kept_execLodgeSync {s₀ s : State} (h : Kept s₀ s) : KeptR s₀ (execLodgeSync s) := by
  unfold execLodgeSync
  repeat' first | with_reducible assumption | with_reducible apply KeptR.ite | with_reducible apply KeptR.next | with_reducible apply kept_syncLodge

theorem kept_execP0ReturnDone {s₀ s : State} (h : Kept s₀ s) : KeptR s₀ (execP0ReturnDone s) := by
  unfold execP0ReturnDone
  repeat' first
    | with_reducible assumption | with_reducible apply KeptR.ite | with_reducible apply KeptR.next | with_reducible apply kept_endIn
    | with_reducible apply kept_forEach | with_reducible apply kept_setCell | with_reducible apply kept_reloadReplica
    | with_reducible apply kept_stateDone | with_reducible apply kept_startPorts | with_reducible exact Nat.le_refl _ | intro _ _ _
    | with_reducible apply Kept.upd

theorem kept_execP1EntryDone {s₀ s : State} (h : Kept s₀ s) : KeptR s₀ (execP1EntryDone s) := by
  unfold execP1EntryDone
  repeat' first
    | with_reducible assumption | with_reducible apply KeptR.ite | with_reducible apply KeptR.next | with_reducible apply kept_stateDone
    | with_reducible apply kept_gateIdle | with_reducible apply kept_endIn

theorem kept_execP2Commit {s₀ s : State} (h : Kept s₀ s) : KeptR s₀ (execP2Commit s) := by
  unfold execP2Commit
  repeat' first
    | with_reducible assumption | with_reducible apply KeptR.ite | with_reducible apply KeptR.next | with_reducible apply kept_darken
    | with_reducible apply kept_setResult | with_reducible apply kept_setChange | split

theorem kept_execP2DepartureDone {s₀ s : State} (h : Kept s₀ s) : KeptR s₀ (execP2DepartureDone s) := by
  unfold execP2DepartureDone
  repeat' first
    | with_reducible assumption | with_reducible apply KeptR.ite | with_reducible apply KeptR.next | with_reducible apply kept_brighten | split

theorem kept_execP2EntryDone {s₀ s : State} (h : Kept s₀ s) : KeptR s₀ (execP2EntryDone s) := by
  unfold execP2EntryDone
  repeat' first
    | with_reducible assumption | with_reducible apply KeptR.ite | with_reducible apply KeptR.next | with_reducible apply kept_reachP2 | split

theorem kept_execP3EntryDone {s₀ s : State} (h : Kept s₀ s) : KeptR s₀ (execP3EntryDone s) := by
  unfold execP3EntryDone
  repeat' first | with_reducible assumption | with_reducible apply KeptR.ite | with_reducible apply KeptR.next | with_reducible apply kept_rest

theorem kept_execP3LinkReady {s₀ s : State} (h : Kept s₀ s) (ready : Bool) : KeptR s₀ (execP3LinkReady ready s) := by
  unfold execP3LinkReady
  repeat' first
    | with_reducible assumption | with_reducible apply KeptR.ite | with_reducible apply KeptR.next | with_reducible apply kept_alignLodge | split

theorem kept_execP3Restart {s₀ s : State} (h : Kept s₀ s) : KeptR s₀ (execP3Restart s) := by
  unfold execP3Restart
  repeat' first
    | with_reducible assumption | with_reducible apply KeptR.ite | with_reducible apply KeptR.next | with_reducible apply kept_raiseRails
    | with_reducible apply kept_resetBlocks

theorem kept_execP3RestartDone {s₀ s : State} (h : Kept s₀ s) : KeptR s₀ (execP3RestartDone s) := by
  unfold execP3RestartDone
  repeat' first
    | with_reducible assumption | with_reducible apply KeptR.ite | with_reducible apply KeptR.next | with_reducible apply kept_handBack | split

theorem kept_execP3SundialLastPps {s₀ s : State} (h : Kept s₀ s) : KeptR s₀ (execP3SundialLastPps s) := by
  unfold execP3SundialLastPps
  repeat' first | with_reducible assumption | with_reducible apply KeptR.ite | with_reducible apply KeptR.next | with_reducible apply kept_lastPps

theorem kept_execPavilionGate {s₀ s : State} (h : Kept s₀ s) (r : Fin 8) : KeptR s₀ (execPavilionGate r s) := by
  unfold execPavilionGate
  repeat' first | with_reducible assumption | with_reducible apply KeptR.ite | with_reducible apply KeptR.next | with_reducible apply kept_gatePav

theorem kept_execPavilionUngateDone {s₀ s : State} (h : Kept s₀ s) (r : Fin 8) : KeptR s₀ (execPavilionUngateDone r s) := by
  unfold execPavilionUngateDone
  repeat' first
    | with_reducible assumption | with_reducible apply KeptR.ite | with_reducible apply KeptR.next | with_reducible apply kept_startPorts
    | with_reducible apply kept_reloadReplica | with_reducible exact Nat.le_refl _ | with_reducible apply Kept.upd

theorem kept_execSundialLodgeLoad {s₀ s : State} (h : Kept s₀ s) : KeptR s₀ (execSundialLodgeLoad s) := by
  unfold execSundialLodgeLoad
  repeat' first
    | with_reducible assumption | with_reducible apply KeptR.ite | with_reducible apply KeptR.next | with_reducible apply kept_reachLodge
    | with_reducible apply kept_loadSundial | with_reducible exact Nat.le_refl _ | with_reducible apply Kept.upd

theorem kept_execTrunkWakeReceive {s₀ s : State} (h : Kept s₀ s) (p : Fin 128) (w : BitVec 64) : KeptR s₀ (execTrunkWakeReceive p w s) := by
  unfold execTrunkWakeReceive
  repeat' first | with_reducible assumption | with_reducible apply KeptR.ite | with_reducible apply KeptR.next | with_reducible apply kept_takeWake

theorem kept_execTrunkWakeSendDone {s₀ s : State} (h : Kept s₀ s) : KeptR s₀ (execTrunkWakeSendDone s) := by
  unfold execTrunkWakeSendDone
  repeat' first
    | with_reducible assumption | with_reducible apply KeptR.ite | with_reducible apply KeptR.next | with_reducible exact Nat.le_refl _
    | with_reducible apply Kept.upd

theorem kept_execWakePinEdge {s₀ s : State} (h : Kept s₀ s) (pin : Fin 2) : KeptR s₀ (execWakePinEdge pin s) := by
  unfold execWakePinEdge
  repeat' first | with_reducible assumption | with_reducible apply KeptR.ite | with_reducible apply KeptR.next | with_reducible apply kept_pwrEvent

theorem kept_execTdcEdge {s₀ s : State} (h : Kept s₀ s) (n : Fin 16) (fall : Bool) (c : BitVec 12) (c1 : BitVec 12) (c2 : BitVec 12) :
    KeptR s₀ (execTdcEdge n fall c c1 c2 s) := by
  unfold execTdcEdge
  repeat' first
    | with_reducible assumption | with_reducible apply KeptR.ite | with_reducible apply KeptR.next | with_reducible apply kept_measureEdge

theorem kept_execTdcGateFall {s₀ s : State} (h : Kept s₀ s) (g : Fin 4) : KeptR s₀ (execTdcGateFall g s) := by
  unfold execTdcGateFall
  repeat' first
    | with_reducible assumption | with_reducible apply KeptR.ite | with_reducible apply KeptR.next | with_reducible apply kept_forEach
    | with_reducible apply kept_disarmCh | with_reducible exact Nat.le_refl _ | intro _ _ _ | split | with_reducible apply Kept.upd

theorem kept_execTdcGateRise {s₀ s : State} (h : Kept s₀ s) (g : Fin 4) : KeptR s₀ (execTdcGateRise g s) := by
  unfold execTdcGateRise
  repeat' first
    | with_reducible assumption | with_reducible apply KeptR.ite | with_reducible apply KeptR.next | with_reducible apply kept_forEach
    | with_reducible apply kept_gateHigh | with_reducible exact Nat.le_refl _ | intro _ _ _ | split | with_reducible apply Kept.upd

theorem kept_execTdcIdleCalibration {s₀ s : State} (h : Kept s₀ s) (n : Fin 16) (c1 : BitVec 12) (c2 : BitVec 12) :
    KeptR s₀ (execTdcIdleCalibration n c1 c2 s) := by
  unfold execTdcIdleCalibration
  repeat' first
    | with_reducible assumption | with_reducible apply KeptR.ite | with_reducible apply KeptR.next | with_reducible apply kept_takePair
    | with_reducible apply kept_setTdcCh

theorem kept_execTdcPairTimeout {s₀ s : State} (h : Kept s₀ s) (u : Fin 8) : KeptR s₀ (execTdcPairTimeout u s) := by
  unfold execTdcPairTimeout
  repeat' first
    | with_reducible assumption | with_reducible apply KeptR.ite | with_reducible apply KeptR.next | with_reducible apply kept_unpaired
    | with_reducible apply kept_setTdcDiff | split

theorem kept_execTimeBusLatencyMeasured {s₀ s : State} (h : Kept s₀ s) : KeptR s₀ (execTimeBusLatencyMeasured s) := by
  unfold execTimeBusLatencyMeasured
  repeat' first
    | with_reducible assumption | with_reducible apply KeptR.ite | with_reducible apply KeptR.next | with_reducible exact Nat.le_refl _
    | with_reducible apply Kept.upd

end Sys2Proof.Machine
end

