-- ==== Sys2Proof/WellFormed.lean ====
section
/-!
DEFINITION. WellFormed.lean: what makes a command one that the block's interfaces can carry: where the spec gives a record a fixed size, the operand
that carries it has that size. Every other operand is bounded by its type; a value that the block itself judges (a misaligned address, a bad field)
is well formed, and the block answers it with the spec's error.
-/
namespace Sys2Proof

/-- A ring entry is 32 bytes (R610). -/
def descriptorOk (d : List Word) : Bool := d.length == 8

/-- Table entries are 4, 8 or 16 dwords (R451, R486). -/
def entriesOk (data : List Word) : Bool := data.length % 4 == 0

/-- A time word is 32 bytes, eight dwords (R208). -/
def timeWordOk (dws : List Word) : Bool := dws.length == 8

/-- The header of a cue fabric message is 48 bytes (R537). -/
def cueHeaderOk (hdr : List Word) : Bool := hdr.length == 12

/-- A superblock period is 4,096 bits, or with pad and parity 4,400, which are 2,200 symbols (R353, R362). -/
def lineOk : LineSig → Bool
  | .nrz b => b.length == 4096
  | .pam4 x => x.length == 2200

/-- The sums of an epoch lie within two spacings of prompt, at most one chip (20/20), once for each code offset (R296). -/
def sumsOk (sums : List (Int × Word × Word)) : Bool :=
  sums.all (fun e => decide (e.1.natAbs ≤ 20)) && decide ((sums.map (·.1)).eraseDups.length = sums.length)

/-- Each of the four loops measures each of the eight slots (R112, R129). -/
def loopsOk (meas : List LoopMeas) : Bool := meas.length == 4 && meas.all fun x => x.offs.length == 8

/-- Sixteen sensors and two diode inputs are read (R766). -/
def tempsOk (temps : List (BitVec 16)) : Bool := temps.length == 18

/-- Eight supply monitors are read (R769). -/
def suppliesOk (mv : List (BitVec 16)) : Bool := mv.length == 8

/-- What shifts in and out of the boundary register has its length (R811). -/
def boundaryOk (pins data : List Bool) : Bool := pins.length == data.length

/-- Can the block's interfaces carry the command? -/
def Instr.wellFormed : Instr → Bool
  | .selectionTick meas => loopsOk meas
  | .timeWordReceive _ dws _ => timeWordOk dws
  | .epochEnd _ sums _ _ _ _ => sumsOk sums
  | .superblockReceive _ line _ _ _ => lineOk line
  | .tableRead _ d | .tableFlush _ d | .snapshotRead _ d | .cueSubmit _ d _ | .deleteJob _ d | .setParam _ d | .loadSet _ d _ | .deleteStream _ d
  | .readJob _ d | .createJob _ d _ _ _ | .createStream _ d _ | .txDescriptor _ d _ => descriptorOk d
  | .tableWrite _ d data | .tableInsert _ d data | .tableDelete _ d data | .tableSearch _ d data => descriptorOk d && entriesOk data
  | .presenceReceive _ hdr _ | .prepareReceive _ hdr _ | .readyReceive _ hdr _ | .armReceive _ hdr _ | .abortReceive _ hdr _
  | .resultReceive _ hdr _ => cueHeaderOk hdr
  | .rxFrameDelivery descs => descs.all descriptorOk
  | .sensorRead temps => tempsOk temps
  | .supplyRead mv => suppliesOk mv
  | .jtagSamplePreload pins data => boundaryOk pins data
  | _ => true

end Sys2Proof
end

