-- ==== Sys2Proof/Laws/PerInstr.lean ====
section
/-!
SUPPORT. PerInstr.lean: the shape of a well-formed command, one lemma per constructor: the records it carries have the sizes the spec gives them.
-/
namespace Sys2Proof.Laws.Shape

/-- The records of a fixed size that a command carries, each with the number of dwords its rule gives it: ring entries 8 (R610), time words 8 (R208),
headers of cue fabric messages 12 (R537). -/
def sized : Instr → List (List Word × Nat)
  | .timeWordReceive _ dws _ => [(dws, 8)]
  | .tableRead _ d | .tableFlush _ d | .snapshotRead _ d | .cueSubmit _ d _ | .deleteJob _ d | .setParam _ d | .loadSet _ d _ | .deleteStream _ d
  | .readJob _ d | .createJob _ d _ _ _ | .createStream _ d _ | .txDescriptor _ d _ | .tableWrite _ d _ | .tableInsert _ d _ | .tableDelete _ d _
  | .tableSearch _ d _ => [(d, 8)]
  | .presenceReceive _ hdr _ | .prepareReceive _ hdr _ | .readyReceive _ hdr _ | .armReceive _ hdr _ | .abortReceive _ hdr _
  | .resultReceive _ hdr _ => [(hdr, 12)]
  | .rxFrameDelivery descs => descs.map fun d => (d, 8)
  | _ => []

/-- In a well-formed command every such record has its size. -/
def Statement (i : Instr) : Prop := i.wellFormed = true → ∀ r ∈ sized i, r.1.length = r.2

/-- A command that carries no such record satisfies the statement. -/
theorem of_sized_nil (i : Instr) (h : sized i = []) : Statement i := by simp [Statement, h]

theorem registerWrite : ∀ x0 x1 x2 x3 x4, Statement (.registerWrite x0 x1 x2 x3 x4) := fun _ _ _ _ _ => of_sized_nil _ rfl
theorem reservedRangeAccess : ∀ x0 x1 x2 x3, Statement (.reservedRangeAccess x0 x1 x2 x3) := fun _ _ _ _ => of_sized_nil _ rfl
theorem bar2ReservedWrite : ∀ x0 x1, Statement (.bar2ReservedWrite x0 x1) := fun _ _ => of_sized_nil _ rfl
theorem blkErrRead : ∀ x0 x1 x2, Statement (.blkErrRead x0 x1 x2) := fun _ _ _ => of_sized_nil _ rfl
theorem registerReadParityError : ∀ x0 x1 x2, Statement (.registerReadParityError x0 x1 x2) := fun _ _ _ => of_sized_nil _ rfl
theorem counterRead : ∀ x0 x1 x2, Statement (.counterRead x0 x1 x2) := fun _ _ _ => of_sized_nil _ rfl
theorem counterLowHalfRead : ∀ x0 x1 x2, Statement (.counterLowHalfRead x0 x1 x2) := fun _ _ _ => of_sized_nil _ rfl
theorem blkLockWrite : ∀ x0 x1 x2 x3, Statement (.blkLockWrite x0 x1 x2 x3) := fun _ _ _ _ => of_sized_nil _ rfl
theorem snapshotPort : ∀ x0 x1 x2 x3, Statement (.snapshotPort x0 x1 x2 x3) := fun _ _ _ _ => of_sized_nil _ rfl
theorem snapshotPavilion : ∀ x0 x1 x2 x3, Statement (.snapshotPavilion x0 x1 x2 x3) := fun _ _ _ _ => of_sized_nil _ rfl
theorem snapshotChip : ∀ x0 x1 x2 x3, Statement (.snapshotChip x0 x1 x2 x3) := fun _ _ _ _ => of_sized_nil _ rfl
theorem dwFirstWrite : ∀ x0 x1 x2 x3, Statement (.dwFirstWrite x0 x1 x2 x3) := fun _ _ _ _ => of_sized_nil _ rfl
theorem dwComplementWrite : ∀ x0 x1 x2 x3, Statement (.dwComplementWrite x0 x1 x2 x3) := fun _ _ _ _ => of_sized_nil _ rfl
theorem dwWindowExpiry : ∀ x0 x1, Statement (.dwWindowExpiry x0 x1) := fun _ _ => of_sized_nil _ rfl
theorem modeKeyWrite : ∀ x0 x1 x2, Statement (.modeKeyWrite x0 x1 x2) := fun _ _ _ => of_sized_nil _ rfl
theorem modeKeyExpiry : ∀ x0, Statement (.modeKeyExpiry x0) := fun _ => of_sized_nil _ rfl
theorem modeChange : ∀ x0 x1 x2, Statement (.modeChange x0 x1 x2) := fun _ _ _ => of_sized_nil _ rfl
theorem refConfigWrite : ∀ x0 x1 x2 x3 x4, Statement (.refConfigWrite x0 x1 x2 x3 x4) := fun _ _ _ _ _ => of_sized_nil _ rfl
theorem refPulseArrival : ∀ x0 x1, Statement (.refPulseArrival x0 x1) := fun _ _ => of_sized_nil _ rfl
theorem refActivityLost : ∀ x0, Statement (.refActivityLost x0) := fun _ => of_sized_nil _ rfl
theorem foffUpdate : ∀ x0 x1, Statement (.foffUpdate x0 x1) := fun _ _ => of_sized_nil _ rfl
theorem slotQualified : ∀ x0, Statement (.slotQualified x0) := fun _ => of_sized_nil _ rfl
theorem selectionTick : ∀ x0, Statement (.selectionTick x0) := fun _ => of_sized_nil _ rfl
theorem dpllModeWrite : ∀ x0 x1 x2 x3, Statement (.dpllModeWrite x0 x1 x2 x3) := fun _ _ _ _ => of_sized_nil _ rfl
theorem dpllLocked : ∀ x0, Statement (.dpllLocked x0) := fun _ => of_sized_nil _ rfl
theorem holdoverBin : ∀ x0 x1 x2, Statement (.holdoverBin x0 x1 x2) := fun _ _ _ => of_sized_nil _ rfl
theorem holdoverSecond : ∀ x0, Statement (.holdoverSecond x0) := fun _ => of_sized_nil _ rfl
theorem apllLossOfLock : Statement (.apllLossOfLock) := of_sized_nil _ rfl
theorem apllLock : ∀ x0, Statement (.apllLock x0) := fun _ => of_sized_nil _ rfl
theorem bypassReturn : Statement (.bypassReturn) := of_sized_nil _ rfl
theorem bypassIncScale : Statement (.bypassIncScale) := of_sized_nil _ rfl
theorem outputEnableSet : ∀ x0 x1 x2, Statement (.outputEnableSet x0 x1 x2) := fun _ _ _ => of_sized_nil _ rfl
theorem outputEnableClear : ∀ x0 x1 x2, Statement (.outputEnableClear x0 x1 x2) := fun _ _ _ => of_sized_nil _ rfl
theorem outputDelayWrite : ∀ x0 x1 x2 x3, Statement (.outputDelayWrite x0 x1 x2 x3) := fun _ _ _ _ => of_sized_nil _ rfl
theorem delayWalkDone : ∀ x0, Statement (.delayWalkDone x0) := fun _ => of_sized_nil _ rfl
theorem sundialTick : ∀ x0, Statement (.sundialTick x0) := fun _ => of_sized_nil _ rfl
theorem domainStep : ∀ x0, Statement (.domainStep x0) := fun _ => of_sized_nil _ rfl
theorem slewDone : ∀ x0, Statement (.slewDone x0) := fun _ => of_sized_nil _ rfl
theorem domainSelectWrite : ∀ x0 x1 x2, Statement (.domainSelectWrite x0 x1 x2) := fun _ _ _ => of_sized_nil _ rfl
theorem autoDomainSwitch : Statement (.autoDomainSwitch) := of_sized_nil _ rfl
theorem leapSecond : Statement (.leapSecond) := of_sized_nil _ rfl
theorem timeOutputEnable : ∀ x0 x1 x2 x3, Statement (.timeOutputEnable x0 x1 x2 x3) := fun _ _ _ _ => of_sized_nil _ rfl
theorem timeOutputDisable : ∀ x0 x1 x2 x3, Statement (.timeOutputDisable x0 x1 x2 x3) := fun _ _ _ _ => of_sized_nil _ rfl
theorem outputAdjWrite : ∀ x0 x1 x2 x3, Statement (.outputAdjWrite x0 x1 x2 x3) := fun _ _ _ _ => of_sized_nil _ rfl
theorem compareArm : ∀ x0 x1 x2 x3, Statement (.compareArm x0 x1 x2 x3) := fun _ _ _ _ => of_sized_nil _ rfl
theorem compareDisarm : ∀ x0 x1 x2 x3, Statement (.compareDisarm x0 x1 x2 x3) := fun _ _ _ _ => of_sized_nil _ rfl
theorem compareFire : ∀ x0, Statement (.compareFire x0) := fun _ => of_sized_nil _ rfl
theorem captureCounters : ∀ x0 x1 x2, Statement (.captureCounters x0 x1 x2) := fun _ _ _ => of_sized_nil _ rfl
theorem timeSetStep : ∀ x0 x1 x2, Statement (.timeSetStep x0 x1 x2) := fun _ _ _ => of_sized_nil _ rfl
theorem timeSetSlew : ∀ x0 x1 x2, Statement (.timeSetSlew x0 x1 x2) := fun _ _ _ => of_sized_nil _ rfl
theorem timeSetDone : Statement (.timeSetDone) := of_sized_nil _ rfl
theorem timeWordSend : ∀ x0 x1 x2, Statement (.timeWordSend x0 x1 x2) := fun _ _ _ => of_sized_nil _ rfl
theorem timeWordReceive : ∀ x0 x1 x2, Statement (.timeWordReceive x0 x1 x2) := by
  simp +contextual [Statement, sized, Instr.wellFormed, timeWordOk]
theorem ptpConfigWrite : ∀ x0 x1 x2 x3, Statement (.ptpConfigWrite x0 x1 x2 x3) := fun _ _ _ _ => of_sized_nil _ rfl
theorem tdcEdge : ∀ x0 x1 x2 x3 x4, Statement (.tdcEdge x0 x1 x2 x3 x4) := fun _ _ _ _ _ => of_sized_nil _ rfl
theorem tdcPairTimeout : ∀ x0, Statement (.tdcPairTimeout x0) := fun _ => of_sized_nil _ rfl
theorem tdcIdleCalibration : ∀ x0 x1 x2, Statement (.tdcIdleCalibration x0 x1 x2) := fun _ _ _ => of_sized_nil _ rfl
theorem tdcArmContinuous : ∀ x0 x1 x2 x3, Statement (.tdcArmContinuous x0 x1 x2 x3) := fun _ _ _ _ => of_sized_nil _ rfl
theorem tdcArmGate : ∀ x0 x1 x2 x3, Statement (.tdcArmGate x0 x1 x2 x3) := fun _ _ _ _ => of_sized_nil _ rfl
theorem tdcArmCompare : ∀ x0 x1 x2 x3, Statement (.tdcArmCompare x0 x1 x2 x3) := fun _ _ _ _ => of_sized_nil _ rfl
theorem tdcDisarm : ∀ x0 x1 x2 x3, Statement (.tdcDisarm x0 x1 x2 x3) := fun _ _ _ _ => of_sized_nil _ rfl
theorem tdcGateRise : ∀ x0, Statement (.tdcGateRise x0) := fun _ => of_sized_nil _ rfl
theorem tdcGateFall : ∀ x0, Statement (.tdcGateFall x0) := fun _ => of_sized_nil _ rfl
theorem tdcResultRead : ∀ x0 x1 x2, Statement (.tdcResultRead x0 x1 x2) := fun _ _ _ => of_sized_nil _ rfl
theorem tdcDiffConfigWrite : ∀ x0 x1 x2 x3, Statement (.tdcDiffConfigWrite x0 x1 x2 x3) := fun _ _ _ _ => of_sized_nil _ rfl
theorem calTrigger : ∀ x0 x1, Statement (.calTrigger x0 x1) := fun _ _ => of_sized_nil _ rfl
theorem calCommandOffset : ∀ x0 x1 x2, Statement (.calCommandOffset x0 x1 x2) := fun _ _ _ => of_sized_nil _ rfl
theorem calCommandTrunk : ∀ x0 x1 x2, Statement (.calCommandTrunk x0 x1 x2) := fun _ _ _ => of_sized_nil _ rfl
theorem calCommandAsym : ∀ x0 x1 x2, Statement (.calCommandAsym x0 x1 x2) := fun _ _ _ => of_sized_nil _ rfl
theorem calDeferredStart : ∀ x0, Statement (.calDeferredStart x0) := fun _ => of_sized_nil _ rfl
theorem calRunComplete : ∀ x0 x1 x2 x3 x4 x5, Statement (.calRunComplete x0 x1 x2 x3 x4 x5) := fun _ _ _ _ _ _ => of_sized_nil _ rfl
theorem calApplyStep : ∀ x0 x1, Statement (.calApplyStep x0 x1) := fun _ _ => of_sized_nil _ rfl
theorem calEnableWrite : ∀ x0 x1 x2, Statement (.calEnableWrite x0 x1 x2) := fun _ _ _ => of_sized_nil _ rfl
theorem notchSearch : ∀ x0 x1 x2 x3 x4 x5 x6, Statement (.notchSearch x0 x1 x2 x3 x4 x5 x6) := fun _ _ _ _ _ _ _ => of_sized_nil _ rfl
theorem notchRelease : ∀ x0 x1, Statement (.notchRelease x0 x1) := fun _ _ => of_sized_nil _ rfl
theorem acqGo : ∀ x0 x1 x2, Statement (.acqGo x0 x1 x2) := fun _ _ _ => of_sized_nil _ rfl
theorem acqDone : ∀ x0 x1 x2 x3, Statement (.acqDone x0 x1 x2 x3) := fun _ _ _ _ => of_sized_nil _ rfl
theorem epochEnd : ∀ x0 x1 x2 x3 x4 x5, Statement (.epochEnd x0 x1 x2 x3 x4 x5) := fun _ _ _ _ _ _ => of_sized_nil _ rfl
theorem channelNcoWrite : ∀ x0 x1 x2 x3 x4, Statement (.channelNcoWrite x0 x1 x2 x3 x4) := fun _ _ _ _ _ => of_sized_nil _ rfl
theorem channelSlewWrite : ∀ x0 x1 x2 x3, Statement (.channelSlewWrite x0 x1 x2 x3) := fun _ _ _ _ => of_sized_nil _ rfl
theorem ownerWrite : ∀ x0 x1 x2 x3, Statement (.ownerWrite x0 x1 x2 x3) := fun _ _ _ _ => of_sized_nil _ rfl
theorem timeMessage : ∀ x0 x1 x2 x3 x4 x5, Statement (.timeMessage x0 x1 x2 x3 x4 x5) := fun _ _ _ _ _ _ => of_sized_nil _ rfl
theorem belvederePps : ∀ x0 x1, Statement (.belvederePps x0 x1) := fun _ _ => of_sized_nil _ rfl
theorem gnssUtcLoad : Statement (.gnssUtcLoad) := of_sized_nil _ rfl
theorem snapshotGo : ∀ x0 x1 x2, Statement (.snapshotGo x0 x1 x2) := fun _ _ _ => of_sized_nil _ rfl
theorem snapshotCaptureStart : ∀ x0 x1, Statement (.snapshotCaptureStart x0 x1) := fun _ _ => of_sized_nil _ rfl
theorem snapshotCaptureEnd : ∀ x0 x1 x2 x3 x4, Statement (.snapshotCaptureEnd x0 x1 x2 x3 x4) := fun _ _ _ _ _ => of_sized_nil _ rfl
theorem snapshotRelease : ∀ x0 x1 x2, Statement (.snapshotRelease x0 x1 x2) := fun _ _ _ => of_sized_nil _ rfl
theorem grottoGo : ∀ x0 x1 x2 x3, Statement (.grottoGo x0 x1 x2 x3) := fun _ _ _ _ => of_sized_nil _ rfl
theorem grottoChannelClaim : ∀ x0, Statement (.grottoChannelClaim x0) := fun _ => of_sized_nil _ rfl
theorem grottoWaitTimeout : ∀ x0, Statement (.grottoWaitTimeout x0) := fun _ => of_sized_nil _ rfl
theorem rangingExchange : ∀ x0 x1 x2 x3 x4, Statement (.rangingExchange x0 x1 x2 x3 x4) := fun _ _ _ _ _ => of_sized_nil _ rfl
theorem grottoPeerTimeout : ∀ x0, Statement (.grottoPeerTimeout x0) := fun _ => of_sized_nil _ rfl
theorem grottoDone : ∀ x0 x1 x2 x3, Statement (.grottoDone x0 x1 x2 x3) := fun _ _ _ _ => of_sized_nil _ rfl
theorem grottoCancel : ∀ x0 x1 x2 x3, Statement (.grottoCancel x0 x1 x2 x3) := fun _ _ _ _ => of_sized_nil _ rfl
theorem gnssDisable : ∀ x0 x1 x2, Statement (.gnssDisable x0 x1 x2) := fun _ _ _ => of_sized_nil _ rfl
theorem portEnable : ∀ x0 x1 x2 x3, Statement (.portEnable x0 x1 x2 x3) := fun _ _ _ _ => of_sized_nil _ rfl
theorem portDisable : ∀ x0 x1 x2 x3, Statement (.portDisable x0 x1 x2 x3) := fun _ _ _ _ => of_sized_nil _ rfl
theorem frameReceive : ∀ x0 x1 x2 x3 x4 x5, Statement (.frameReceive x0 x1 x2 x3 x4 x5) := fun _ _ _ _ _ _ => of_sized_nil _ rfl
theorem ethLinkUp : ∀ x0, Statement (.ethLinkUp x0) := fun _ => of_sized_nil _ rfl
theorem ethLinkDown : ∀ x0 x1 x2, Statement (.ethLinkDown x0 x1 x2) := fun _ _ _ => of_sized_nil _ rfl
theorem superblockTransmit : ∀ x0, Statement (.superblockTransmit x0) := fun _ => of_sized_nil _ rfl
theorem superblockReceive : ∀ x0 x1 x2 x3 x4, Statement (.superblockReceive x0 x1 x2 x3 x4) := fun _ _ _ _ _ => of_sized_nil _ rfl
theorem cdrLock : ∀ x0, Statement (.cdrLock x0) := fun _ => of_sized_nil _ rfl
theorem cdrLoss : ∀ x0, Statement (.cdrLoss x0) := fun _ => of_sized_nil _ rfl
theorem negWordReceive : ∀ x0 x1 x2, Statement (.negWordReceive x0 x1 x2) := fun _ _ _ => of_sized_nil _ rfl
theorem rateStep : ∀ x0, Statement (.rateStep x0) := fun _ => of_sized_nil _ rfl
theorem txpllLock : ∀ x0, Statement (.txpllLock x0) := fun _ => of_sized_nil _ rfl
theorem trainComplete : ∀ x0, Statement (.trainComplete x0) := fun _ => of_sized_nil _ rfl
theorem verifyComplete : ∀ x0, Statement (.verifyComplete x0) := fun _ => of_sized_nil _ rfl
theorem bringupTimeout : ∀ x0, Statement (.bringupTimeout x0) := fun _ => of_sized_nil _ rfl
theorem rateFallback : ∀ x0, Statement (.rateFallback x0) := fun _ => of_sized_nil _ rfl
theorem phaseSlip : ∀ x0, Statement (.phaseSlip x0) := fun _ => of_sized_nil _ rfl
theorem txpllLoss : ∀ x0, Statement (.txpllLoss x0) := fun _ => of_sized_nil _ rfl
theorem upstreamSelect : Statement (.upstreamSelect) := of_sized_nil _ rfl
theorem localTimeMessage : ∀ x0 x1 x2, Statement (.localTimeMessage x0 x1 x2) := fun _ _ _ => of_sized_nil _ rfl
theorem eyeScanGo : ∀ x0 x1 x2 x3, Statement (.eyeScanGo x0 x1 x2 x3) := fun _ _ _ _ => of_sized_nil _ rfl
theorem eyeScanStop : ∀ x0 x1 x2 x3, Statement (.eyeScanStop x0 x1 x2 x3) := fun _ _ _ _ => of_sized_nil _ rfl
theorem eyeScanDone : ∀ x0 x1, Statement (.eyeScanDone x0 x1) := fun _ _ => of_sized_nil _ rfl
theorem crossbarGrant : ∀ x0, Statement (.crossbarGrant x0) := fun _ => of_sized_nil _ rfl
theorem crossbarTimeoutDrop : ∀ x0 x1 x2, Statement (.crossbarTimeoutDrop x0 x1 x2) := fun _ _ _ => of_sized_nil _ rfl
theorem frameTransmit : ∀ x0, Statement (.frameTransmit x0) := fun _ => of_sized_nil _ rfl
theorem gateEntryChange : ∀ x0, Statement (.gateEntryChange x0) := fun _ => of_sized_nil _ rfl
theorem schedulerEnable : ∀ x0 x1 x2 x3, Statement (.schedulerEnable x0 x1 x2 x3) := fun _ _ _ _ => of_sized_nil _ rfl
theorem schedulerDisable : ∀ x0 x1 x2 x3, Statement (.schedulerDisable x0 x1 x2 x3) := fun _ _ _ _ => of_sized_nil _ rfl
theorem schedulerStopped : ∀ x0, Statement (.schedulerStopped x0) := fun _ => of_sized_nil _ rfl
theorem flushComplete : ∀ x0, Statement (.flushComplete x0) := fun _ => of_sized_nil _ rfl
theorem tierMoveStart : ∀ x0 x1, Statement (.tierMoveStart x0 x1) := fun _ _ => of_sized_nil _ rfl
theorem tierMoveDone : ∀ x0 x1, Statement (.tierMoveDone x0 x1) := fun _ _ => of_sized_nil _ rfl
theorem learnCommit : Statement (.learnCommit) := of_sized_nil _ rfl
theorem moveWindowExpiry : ∀ x0 x1, Statement (.moveWindowExpiry x0 x1) := fun _ _ => of_sized_nil _ rfl
theorem flapHoldEnd : ∀ x0 x1, Statement (.flapHoldEnd x0 x1) := fun _ _ => of_sized_nil _ rfl
theorem refreshCommit : ∀ x0, Statement (.refreshCommit x0) := fun _ => of_sized_nil _ rfl
theorem ageTick : Statement (.ageTick) := of_sized_nil _ rfl
theorem agerVisit : ∀ x0 x1, Statement (.agerVisit x0 x1) := fun _ _ => of_sized_nil _ rfl
theorem ageDeleteCommit : Statement (.ageDeleteCommit) := of_sized_nil _ rfl
theorem portDownTableFlush : ∀ x0, Statement (.portDownTableFlush x0) := fun _ => of_sized_nil _ rfl
theorem tableRead : ∀ x0 x1, Statement (.tableRead x0 x1) := by
  simp +contextual [Statement, sized, Instr.wellFormed, descriptorOk]
theorem tableWrite : ∀ x0 x1 x2, Statement (.tableWrite x0 x1 x2) := by
  simp +contextual [Statement, sized, Instr.wellFormed, descriptorOk]
theorem tableInsert : ∀ x0 x1 x2, Statement (.tableInsert x0 x1 x2) := by
  simp +contextual [Statement, sized, Instr.wellFormed, descriptorOk]
theorem tableDelete : ∀ x0 x1 x2, Statement (.tableDelete x0 x1 x2) := by
  simp +contextual [Statement, sized, Instr.wellFormed, descriptorOk]
theorem tableSearch : ∀ x0 x1 x2, Statement (.tableSearch x0 x1 x2) := by
  simp +contextual [Statement, sized, Instr.wellFormed, descriptorOk]
theorem tableFlush : ∀ x0 x1, Statement (.tableFlush x0 x1) := by
  simp +contextual [Statement, sized, Instr.wellFormed, descriptorOk]
theorem tableFlushDone : Statement (.tableFlushDone) := of_sized_nil _ rfl
theorem snapshotRead : ∀ x0 x1, Statement (.snapshotRead x0 x1) := by
  simp +contextual [Statement, sized, Instr.wellFormed, descriptorOk]
theorem tblLockSet : ∀ x0 x1 x2, Statement (.tblLockSet x0 x1 x2) := fun _ _ _ => of_sized_nil _ rfl
theorem tblLockClr : ∀ x0 x1 x2, Statement (.tblLockClr x0 x1 x2) := fun _ _ _ => of_sized_nil _ rfl
theorem lockExpired : ∀ x0, Statement (.lockExpired x0) := fun _ => of_sized_nil _ rfl
theorem cueSubmit : ∀ x0 x1 x2, Statement (.cueSubmit x0 x1 x2) := by
  simp +contextual [Statement, sized, Instr.wellFormed, descriptorOk]
theorem cueValidated : ∀ x0, Statement (.cueValidated x0) := fun _ => of_sized_nil _ rfl
theorem cueCommitting : Statement (.cueCommitting) := of_sized_nil _ rfl
theorem cueCommit : Statement (.cueCommit) := of_sized_nil _ rfl
theorem scheduleChangeAtB : ∀ x0, Statement (.scheduleChangeAtB x0) := fun _ => of_sized_nil _ rfl
theorem cueCancel : ∀ x0 x1 x2, Statement (.cueCancel x0 x1 x2) := fun _ _ _ => of_sized_nil _ rfl
theorem cleanSwitchPoint : Statement (.cleanSwitchPoint) := of_sized_nil _ rfl
theorem cswForced : Statement (.cswForced) := of_sized_nil _ rfl
theorem presenceSend : Statement (.presenceSend) := of_sized_nil _ rfl
theorem presenceReceive : ∀ x0 x1 x2, Statement (.presenceReceive x0 x1 x2) := by
  simp +contextual [Statement, sized, Instr.wellFormed, cueHeaderOk]
theorem prepareReceive : ∀ x0 x1 x2, Statement (.prepareReceive x0 x1 x2) := by
  simp +contextual [Statement, sized, Instr.wellFormed, cueHeaderOk]
theorem readyReceive : ∀ x0 x1 x2, Statement (.readyReceive x0 x1 x2) := by
  simp +contextual [Statement, sized, Instr.wellFormed, cueHeaderOk]
theorem armReceive : ∀ x0 x1 x2, Statement (.armReceive x0 x1 x2) := by
  simp +contextual [Statement, sized, Instr.wellFormed, cueHeaderOk]
theorem abortReceive : ∀ x0 x1 x2, Statement (.abortReceive x0 x1 x2) := by
  simp +contextual [Statement, sized, Instr.wellFormed, cueHeaderOk]
theorem armDeadline : Statement (.armDeadline) := of_sized_nil _ rfl
theorem fabricCueTimeout : Statement (.fabricCueTimeout) := of_sized_nil _ rfl
theorem resultReceive : ∀ x0 x1 x2, Statement (.resultReceive x0 x1 x2) := by
  simp +contextual [Statement, sized, Instr.wellFormed, cueHeaderOk]
theorem resultWindowExpiry : Statement (.resultWindowExpiry) := of_sized_nil _ rfl
theorem blockBoundary : ∀ x0 x1 x2 x3 x4 x5, Statement (.blockBoundary x0 x1 x2 x3 x4 x5) := fun _ _ _ _ _ _ => of_sized_nil _ rfl
theorem jobMoveStart : ∀ x0 x1, Statement (.jobMoveStart x0 x1) := fun _ _ => of_sized_nil _ rfl
theorem jobStateCopy : ∀ x0, Statement (.jobStateCopy x0) := fun _ => of_sized_nil _ rfl
theorem audioInPacket : ∀ x0, Statement (.audioInPacket x0) := fun _ => of_sized_nil _ rfl
theorem e131Packet : ∀ x0, Statement (.e131Packet x0) := fun _ => of_sized_nil _ rfl
theorem e131SourceTimeout : ∀ x0, Statement (.e131SourceTimeout x0) := fun _ => of_sized_nil _ rfl
theorem e131Keepalive : ∀ x0, Statement (.e131Keepalive x0) := fun _ => of_sized_nil _ rfl
theorem st20227Packet : ∀ x0, Statement (.st20227Packet x0) := fun _ => of_sized_nil _ rfl
theorem createJob : ∀ x0 x1 x2 x3 x4, Statement (.createJob x0 x1 x2 x3 x4) := by
  simp +contextual [Statement, sized, Instr.wellFormed, descriptorOk]
theorem deleteJob : ∀ x0 x1, Statement (.deleteJob x0 x1) := by
  simp +contextual [Statement, sized, Instr.wellFormed, descriptorOk]
theorem setParam : ∀ x0 x1, Statement (.setParam x0 x1) := by
  simp +contextual [Statement, sized, Instr.wellFormed, descriptorOk]
theorem loadSet : ∀ x0 x1 x2, Statement (.loadSet x0 x1 x2) := by
  simp +contextual [Statement, sized, Instr.wellFormed, descriptorOk]
theorem createStream : ∀ x0 x1 x2, Statement (.createStream x0 x1 x2) := by
  simp +contextual [Statement, sized, Instr.wellFormed, descriptorOk]
theorem deleteStream : ∀ x0 x1, Statement (.deleteStream x0 x1) := by
  simp +contextual [Statement, sized, Instr.wellFormed, descriptorOk]
theorem readJob : ∀ x0 x1, Statement (.readJob x0 x1) := by
  simp +contextual [Statement, sized, Instr.wellFormed, descriptorOk]
theorem cellEvacuate : ∀ x0 x1 x2 x3, Statement (.cellEvacuate x0 x1 x2 x3) := fun _ _ _ _ => of_sized_nil _ rfl
theorem cellReturn : ∀ x0 x1 x2 x3, Statement (.cellReturn x0 x1 x2 x3) := fun _ _ _ _ => of_sized_nil _ rfl
theorem cellReady : ∀ x0, Statement (.cellReady x0) := fun _ => of_sized_nil _ rfl
theorem ringEnable : ∀ x0 x1 x2 x3, Statement (.ringEnable x0 x1 x2 x3) := fun _ _ _ _ => of_sized_nil _ rfl
theorem ringDisable : ∀ x0 x1 x2 x3, Statement (.ringDisable x0 x1 x2 x3) := fun _ _ _ _ => of_sized_nil _ rfl
theorem ringStopped : ∀ x0, Statement (.ringStopped x0) := fun _ => of_sized_nil _ rfl
theorem cqEnable : ∀ x0 x1 x2 x3, Statement (.cqEnable x0 x1 x2 x3) := fun _ _ _ _ => of_sized_nil _ rfl
theorem cqDisable : ∀ x0 x1 x2 x3, Statement (.cqDisable x0 x1 x2 x3) := fun _ _ _ _ => of_sized_nil _ rfl
theorem ringDoorbell : ∀ x0 x1 x2, Statement (.ringDoorbell x0 x1 x2) := fun _ _ _ => of_sized_nil _ rfl
theorem cqDoorbell : ∀ x0 x1 x2, Statement (.cqDoorbell x0 x1 x2) := fun _ _ _ => of_sized_nil _ rfl
theorem cqRearm : ∀ x0 x1 x2, Statement (.cqRearm x0 x1 x2) := fun _ _ _ => of_sized_nil _ rfl
theorem txDescriptor : ∀ x0 x1 x2, Statement (.txDescriptor x0 x1 x2) := by
  simp +contextual [Statement, sized, Instr.wellFormed, descriptorOk]
theorem rxFrameDelivery : ∀ x0, Statement (.rxFrameDelivery x0) := by
  simp +contextual [Statement, sized, Instr.wellFormed, descriptorOk]
theorem completionResume : ∀ x0, Statement (.completionResume x0) := fun _ => of_sized_nil _ rfl
theorem cqFire : ∀ x0, Statement (.cqFire x0) := fun _ => of_sized_nil _ rfl
theorem linkL0Reached : Statement (.linkL0Reached) := of_sized_nil _ rfl
theorem dmaReadError : ∀ x0 x1, Statement (.dmaReadError x0 x1) := fun _ _ => of_sized_nil _ rfl
theorem hostPortDown : ∀ x0 x1 x2, Statement (.hostPortDown x0 x1 x2) := fun _ _ _ => of_sized_nil _ rfl
theorem hostPortUp : Statement (.hostPortUp) := of_sized_nil _ rfl
theorem functionLevelReset : Statement (.functionLevelReset) := of_sized_nil _ rfl
theorem perstAssert : Statement (.perstAssert) := of_sized_nil _ rfl
theorem perstDeassert : Statement (.perstDeassert) := of_sized_nil _ rfl
theorem pendSetWrite : ∀ x0 x1 x2 x3, Statement (.pendSetWrite x0 x1 x2 x3) := fun _ _ _ _ => of_sized_nil _ rfl
theorem pendClrWrite : ∀ x0 x1 x2 x3, Statement (.pendClrWrite x0 x1 x2 x3) := fun _ _ _ _ => of_sized_nil _ rfl
theorem maskSetWrite : ∀ x0 x1 x2 x3, Statement (.maskSetWrite x0 x1 x2 x3) := fun _ _ _ _ => of_sized_nil _ rfl
theorem maskClrWrite : ∀ x0 x1 x2 x3, Statement (.maskClrWrite x0 x1 x2 x3) := fun _ _ _ _ => of_sized_nil _ rfl
theorem irqTargetWrite : ∀ x0 x1 x2 x3, Statement (.irqTargetWrite x0 x1 x2 x3) := fun _ _ _ _ => of_sized_nil _ rfl
theorem irqClaim : ∀ x0 x1 x2, Statement (.irqClaim x0 x1 x2) := fun _ _ _ => of_sized_nil _ rfl
theorem irqEoi : ∀ x0 x1 x2 x3, Statement (.irqEoi x0 x1 x2 x3) := fun _ _ _ _ => of_sized_nil _ rfl
theorem stackClear : ∀ x0 x1 x2, Statement (.stackClear x0 x1 x2) := fun _ _ _ => of_sized_nil _ rfl
theorem wakeEntryWrite : ∀ x0 x1 x2 x3, Statement (.wakeEntryWrite x0 x1 x2 x3) := fun _ _ _ _ => of_sized_nil _ rfl
theorem powerRequestP0 : ∀ x0 x1 x2, Statement (.powerRequestP0 x0 x1 x2) := fun _ _ _ => of_sized_nil _ rfl
theorem powerRequestP1 : ∀ x0 x1 x2, Statement (.powerRequestP1 x0 x1 x2) := fun _ _ _ => of_sized_nil _ rfl
theorem powerRequestP2 : ∀ x0 x1 x2, Statement (.powerRequestP2 x0 x1 x2) := fun _ _ _ => of_sized_nil _ rfl
theorem powerRequestP3 : ∀ x0 x1 x2, Statement (.powerRequestP3 x0 x1 x2) := fun _ _ _ => of_sized_nil _ rfl
theorem p1EntryDone : Statement (.p1EntryDone) := of_sized_nil _ rfl
theorem p0ReturnDone : Statement (.p0ReturnDone) := of_sized_nil _ rfl
theorem pavilionGate : ∀ x0, Statement (.pavilionGate x0) := fun _ => of_sized_nil _ rfl
theorem pavilionUngateDone : ∀ x0, Statement (.pavilionUngateDone x0) := fun _ => of_sized_nil _ rfl
theorem p2Commit : Statement (.p2Commit) := of_sized_nil _ rfl
theorem p2EntryDone : Statement (.p2EntryDone) := of_sized_nil _ rfl
theorem p2DepartureDone : Statement (.p2DepartureDone) := of_sized_nil _ rfl
theorem p3LinkReady : ∀ x0, Statement (.p3LinkReady x0) := fun _ => of_sized_nil _ rfl
theorem p3SundialLastPps : Statement (.p3SundialLastPps) := of_sized_nil _ rfl
theorem p3EntryDone : Statement (.p3EntryDone) := of_sized_nil _ rfl
theorem p3Restart : Statement (.p3Restart) := of_sized_nil _ rfl
theorem sundialLodgeLoad : Statement (.sundialLodgeLoad) := of_sized_nil _ rfl
theorem p3RestartDone : Statement (.p3RestartDone) := of_sized_nil _ rfl
theorem lodgeSync : Statement (.lodgeSync) := of_sized_nil _ rfl
theorem lodgePps : Statement (.lodgePps) := of_sized_nil _ rfl
theorem oscinLapse : Statement (.oscinLapse) := of_sized_nil _ rfl
theorem alarmSet : ∀ x0 x1 x2 x3, Statement (.alarmSet x0 x1 x2 x3) := fun _ _ _ _ => of_sized_nil _ rfl
theorem lodgeAlarm : Statement (.lodgeAlarm) := of_sized_nil _ rfl
theorem wakePinEdge : ∀ x0, Statement (.wakePinEdge x0) := fun _ => of_sized_nil _ rfl
theorem trunkWakeSend : ∀ x0 x1 x2, Statement (.trunkWakeSend x0 x1 x2) := fun _ _ _ => of_sized_nil _ rfl
theorem trunkWakeSendDone : Statement (.trunkWakeSendDone) := of_sized_nil _ rfl
theorem trunkWakeReceive : ∀ x0 x1, Statement (.trunkWakeReceive x0 x1) := fun _ _ => of_sized_nil _ rfl
theorem feedLost : ∀ x0 x1 x2, Statement (.feedLost x0 x1 x2) := fun _ _ _ => of_sized_nil _ rfl
theorem feedReturn : ∀ x0 x1 x2, Statement (.feedReturn x0 x1 x2) := fun _ _ _ => of_sized_nil _ rfl
theorem feedRevert : Statement (.feedRevert) := of_sized_nil _ rfl
theorem lodgeStop : Statement (.lodgeStop) := of_sized_nil _ rfl
theorem chargeComplete : ∀ x0, Statement (.chargeComplete x0) := fun _ => of_sized_nil _ rfl
theorem chargeTimeout : ∀ x0, Statement (.chargeTimeout x0) := fun _ => of_sized_nil _ rfl
theorem fieldShort : ∀ x0, Statement (.fieldShort x0) := fun _ => of_sized_nil _ rfl
theorem fieldRetry : ∀ x0, Statement (.fieldRetry x0) := fun _ => of_sized_nil _ rfl
theorem nvmWindowWrite : ∀ x0 x1 x2 x3, Statement (.nvmWindowWrite x0 x1 x2 x3) := fun _ _ _ _ => of_sized_nil _ rfl
theorem nvmWriteDone : ∀ x0, Statement (.nvmWriteDone x0) := fun _ => of_sized_nil _ rfl
theorem histogramEnable : ∀ x0 x1 x2 x3 x4, Statement (.histogramEnable x0 x1 x2 x3 x4) := fun _ _ _ _ _ => of_sized_nil _ rfl
theorem histogramDisable : ∀ x0 x1 x2 x3 x4, Statement (.histogramDisable x0 x1 x2 x3 x4) := fun _ _ _ _ _ => of_sized_nil _ rfl
theorem sensorRead : ∀ x0, Statement (.sensorRead x0) := fun _ => of_sized_nil _ rfl
theorem supplyRead : ∀ x0, Statement (.supplyRead x0) := fun _ => of_sized_nil _ rfl
theorem supplyFault : ∀ x0, Statement (.supplyFault x0) := fun _ => of_sized_nil _ rfl
theorem eccUncorrectable : ∀ x0, Statement (.eccUncorrectable x0) := fun _ => of_sized_nil _ rfl
theorem lodgePowerOn : Statement (.lodgePowerOn) := of_sized_nil _ rfl
theorem lodgeStart : ∀ x0 x1, Statement (.lodgeStart x0 x1) := fun _ _ => of_sized_nil _ rfl
theorem railEnable : Statement (.railEnable) := of_sized_nil _ rfl
theorem railGoodRise : Statement (.railGoodRise) := of_sized_nil _ rfl
theorem railGoodTimeout : Statement (.railGoodTimeout) := of_sized_nil _ rfl
theorem railGoodFall : Statement (.railGoodFall) := of_sized_nil _ rfl
theorem railOffHoldEnd : Statement (.railOffHoldEnd) := of_sized_nil _ rfl
theorem chipResetPin : ∀ x0, Statement (.chipResetPin x0) := fun _ => of_sized_nil _ rfl
theorem chipReset : ∀ x0, Statement (.chipReset x0) := fun _ => of_sized_nil _ rfl
theorem chipResetRelease : Statement (.chipResetRelease) := of_sized_nil _ rfl
theorem firmwareLoad : ∀ x0, Statement (.firmwareLoad x0) := fun _ => of_sized_nil _ rfl
theorem gatehouseReady : Statement (.gatehouseReady) := of_sized_nil _ rfl
theorem configImageApply : Statement (.configImageApply) := of_sized_nil _ rfl
theorem testenHigh : ∀ x0, Statement (.testenHigh x0) := fun _ => of_sized_nil _ rfl
theorem jtagBypass : Statement (.jtagBypass) := of_sized_nil _ rfl
theorem jtagIdcode : Statement (.jtagIdcode) := of_sized_nil _ rfl
theorem jtagSamplePreload : ∀ x0 x1, Statement (.jtagSamplePreload x0 x1) := fun _ _ => of_sized_nil _ rfl
theorem jtagExtest : Statement (.jtagExtest) := of_sized_nil _ rfl
theorem jtagHighz : Statement (.jtagHighz) := of_sized_nil _ rfl
theorem oscinReturn : Statement (.oscinReturn) := of_sized_nil _ rfl
theorem clearOnRead : ∀ x0 x1 x2, Statement (.clearOnRead x0 x1 x2) := fun _ _ _ => of_sized_nil _ rfl
theorem timeBusLatencyMeasured : Statement (.timeBusLatencyMeasured) := of_sized_nil _ rfl
theorem calRangingTimeout : ∀ x0, Statement (.calRangingTimeout x0) := fun _ => of_sized_nil _ rfl
theorem antennaFaultChange : ∀ x0, Statement (.antennaFaultChange x0) := fun _ => of_sized_nil _ rfl
theorem timeSolutionUpdate : ∀ x0 x1 x2 x3, Statement (.timeSolutionUpdate x0 x1 x2 x3) := fun _ _ _ _ => of_sized_nil _ rfl
theorem ptpPortStateChange : ∀ x0 x1 x2, Statement (.ptpPortStateChange x0 x1 x2) := fun _ _ _ => of_sized_nil _ rfl
theorem pcieLinkChange : ∀ x0 x1 x2, Statement (.pcieLinkChange x0 x1 x2) := fun _ _ _ => of_sized_nil _ rfl
theorem pcieConfigRequest : ∀ x0, Statement (.pcieConfigRequest x0) := fun _ => of_sized_nil _ rfl

end Sys2Proof.Laws.Shape
end

