-- ==== Sys2Proof/Tests/Slice0.lean ====
section
/-!
SUPPORT. Slice0.lean: the tests. Ill-formed commands that WellFormed refuses; single commands whose results the spec's worked examples and
register maps give; and for every statement with hypotheses, concrete states and operands that meet them, clause by clause.
-/
namespace Sys2Proof.Tests
open Sys2Proof Sys2Proof.Machine Sys2Proof.Claims

set_option Elab.async false

/-- Registers written one after another. -/
def wrs (s : State) (l : List (Nat × Word)) : State := l.foldl (fun t x => t.wr x.1 x.2) s

/-- Is there a register at `a`, with the property `q`? -/
def atReg (a : Nat) (q : Reg → Bool) : Bool := (regOf a).any q

/-- Does a write of `v` by the host at `a` pass every check of R89? -/
def ok (s : State) (a : Nat) (v : Word) : Bool := atReg a fun x => taken s .host 0xF a v x

/-- The state a command leaves has the property `q`. -/
def after (r : Result) (q : State → Bool) : Bool :=
  match r with
  | .next t => q t
  | _ => false

/-- The chip held in reset. -/
def held : State := { State.reset with held := true }
/-- The chip mode SERVICE. -/
def inService : State := State.reset.setFld (chpB + 0x040) 3 0 1
/-- A lock of the PWR block. -/
def pwrLocked : State := State.reset.setFlag (pwrB + 0x00C) 0 true
/-- The host holds a mode key. -/
def keyed : State := { State.reset with keys := [0] }
/-- Port 5's scheduler is ACTIVE. -/
def running : State := State.reset.setFlag (queSlot 5 + 4) 8 true
/-- The NVM holds a byte. -/
def nvmHolds (a : Nat) (v : Byte) : State := { State.reset with nvm := { bytes := [(a, v)] } }
/-- The host's pair of block PWR is open on the register at `a`. -/
def pairOn (a : Nat) : State := { State.reset with dw := [(0x90000, ⟨a, 1⟩)] }
/-- The same on PWR's own DW register. -/
def pairOpen : State := pairOn 0x90054
/-- A register of class WM, which no map has. -/
def maskedReg : Reg := ⟨⟨.chp, 0, 0⟩, 0x7FC, { off := 0x7FC, cls := .wm, flds := [rngF 3 0 0 8] }, 0, 0⟩
/-- Compare unit `c`'s target lies a second ahead. -/
def ahead (c : Nat) : State := State.reset.wr (sunB + 0x204 + 0x20 * c) 1
/-- The host owns channel `c`. -/
def owned (c : Nat) : State := State.reset.setFlag (gnsB + 0x2000 + 0x80 * c) 21 true
/-- Completion queue 0 is enabled. -/
def cqOn : State := State.reset.setFlag (cqCfg 0) 0 true
/-- The NVM window shows a page that software may write. -/
def nvmPage : State := State.reset.wr (nvmB + 0x048) 0x10
/-- In SERVICE, with a wake source that a departure from P3 can use. -/
def p3Allowed : State := inService.wr (irqB + 0x280) 0x800001C0
/-- In SERVICE, the APLL locked and the clocks out of bypass. -/
def clocked : State := wrs State.reset [(clkB + 0x040, 0x401), (chpB + 0x040, 1)]
/-- A hundred seconds on. -/
def later (s : State) : State := { s with elapsed := 100 * tuPerSec }
/-- Slot `n` is enabled with TYPE `ty`, source `src` and rank 1 for DPLL0; with activity or without. -/
def slotOn (n ty src : Nat) (act : Bool) : State :=
  wrs clocked [(refCfg n, w32 (1 + ty * 2 ^ 16 + 2 ^ 8 + src * 2 ^ 24)), (refStatus n, if act then 8 else 0)]
/-- Port `p` is enabled in mode `md` at RATE 5; a trunk's state is `st`. -/
def portOn (p md st : Nat) : State := wrs clocked [(macB p + 0x040, w32 (0x05000001 + md * 2 ^ 16)), (trkState p, w32 (0x00050000 + st))]
/-- A DPLL in MODE `md` and STATE `st`. -/
def dpllIn (d md st : Nat) : State := wrs clocked [(dpllCfg d, w32 md), (dpllState d, w32 st)]
/-- A time word of domain `dom` for a port in no rate, with its check word. -/
def timeWordOf0 (dom : Nat) : List Word :=
  let w : List Word := [0x10000000, w32 (16 * dom), 0, 0, 0, 0, 0, 0]
  w.set 6 (w32 (twCheck w))
/-- The word of the present second `x` for domain 0 as the last one sent. -/
def wordSent (s : State) : State := setTrkTime s 3 0 { sent := [(0, 0, 0)] }
/-- A frame of 64 bytes from DA through FCS, of EtherType `ety`, for station 2 from station 4. -/
def frame64 (ety : Nat) : List Byte :=
  let b : List Byte := [2, 0, 0, 0, 0, 2, 2, 0, 0, 0, 0, 4, BitVec.ofNat 8 (ety / 256), BitVec.ofNat 8 ety] ++ List.replicate 46 0
  b ++ fcsOf b
/-- A copy of that frame for port `p`. -/
def copyTo (p : Nat) : Copy := { f := { id := 0, bytes := frame64 0x88B5, ing := 1, cls := 3 }, port := p }
/-- Port `p` is up with a frame in its queue of class 3. -/
def queued (p : Nat) : State :=
  { wrs (portOn p 0 0) [(macB p + 0x044, 1)] with sw := { queues := [(8 * p + 3, [copyTo p])] } }
/-- A frame waits in a parse FIFO toward Pavilion `e`. -/
def crossing (e : Nat) : State :=
  { clocked with sw := { fifos := [(fifoKey 5 e 1, [{ f := (copyTo 5).f, ports := [16 * e] }])] } }
/-- The trunk ports listed are UP and fit to be the upstream port. -/
def mayFollow (l : List Nat) : State :=
  forEach l clocked fun p t => setTrkTime (wrs t [(macB p + 0x040, 0x05010001), (trkState p, 7), (trkCfg p, 1)]) p 0 { lastAt := some 0 }
/-- Queue 3 of port 136 moves to the Orangery, and has. -/
def moving : State := State.reset.setFlag (queAdm 136 3 + 0x0C) 31 true
/-- The L2 table holds the address 2 of VID 1 in the overflow store. -/
def withEntry : State := { State.reset with tbl := { l2 := [(ovfBase false, [w32 2, 0x00010000, 0, 0])] } }
/-- The host port is up; ring `n` is enabled with TYPE `ty` and one descriptor waits on it. -/
def ringOf (n ty : Nat) : State :=
  wrs clocked [(hifB + 0x040, 0xC0040000), (ringCfg n, w32 (0x61 + 2 * ty)), (ringCfg n + 0x0C, 0x00010000)]
/-- A table-DMA descriptor of OP `op` on table `t`: index 0, COUNT `c`, LEN `len`. -/
def tableDesc (op t c len : Nat) : List Word := [0, 0, w32 (op * 2 ^ 24 + t * 2 ^ 22), w32 c, 0, w32 len, 0, 0]
/-- A snapshot descriptor: slot 1, LEN `len` from offset `o`. -/
def snapDesc (o len : Nat) : List Word := [0, 0, 0x80000001, w32 o, 0, w32 len, 0, 0]
/-- An L2 entry of VID 1 that is VALID. -/
def goodEntry : List Word := [w32 2, 0x80010000, 0x00000003, 0]
/-- A cue of kind `k` (0 local, 1 fabric) in slot 0, STAGED, at T `t`. -/
def staged (k t : Nat) : State :=
  { clocked.wr (slotReg 0) 0x00200000 with cue := { cues := [(0, { image := [w32 (k * 2 ^ 26 + 7 * 2 ^ 16)], t := t })] } }
/-- An input stream of tap 1 with group 7, a DMX input and a DMX output. -/
def audioIn : Stream := { skind := 1, rate := 0, enc := 0, grp := 7, ch := 1, ptime := 0, linkOfs := 0, tapBase := 1, rtpOfs := 0, tpl := [], cls := 0 }
/-- A meter job on cell 0 that reads tap 1. -/
def meterJob : Job :=
  { kind := 5, rate := 0, blog := 3, ins := [1], outs := [], arg0 := 1, arg1 := 0, hint := 0xFF, near := 0, cell := 0, started := true }
/-- A compute descriptor of OP `op` for handle `h` with dwords 3 to 5. -/
def computeDesc (op h d3 d4 d5 : Nat) : List Word := [0, 0, w32 (op * 2 ^ 28 + h), w32 d3, w32 d4, w32 d5, 0, 0]
/-- The record of a meter job with handle 9 on tap 1. -/
def meterRec : List Word := [0x05130009, 0x00010000, 0x00FF0000, 1, 0] ++ List.replicate 11 0 ++ [1]
/-- The compute ring waits; the audio stream and the jobs listed are there. -/
def computing (jobs : List (Nat × Job)) : State :=
  { ringOf 2 5 with plc := { jobs := jobs, streams := [(1, audioIn)] } }
/-- A configuration image with no entry in slot 0. -/
def withImage : State :=
  let h : List Byte := [0, 0, 0, 1, 0, 0, 0, 0, 0, 0, 0, 0]
  { State.reset with
    nvm := { bytes := (0x80003, 1) :: (List.range 4).map fun i => (0x8000C + i, BitVec.ofNat 8 (crc32 h / 256 ^ i)) }
    pwr := { firmware := true } }
/-- A Lodge that runs on feed A with both feeds in range. -/
def feedsOk : State := wrs State.reset [(pwrB + 0x040, 0x00030000)]
/-- The record of the input stream with handle 2 on tap 3. -/
def streamRec : List Word := [0x11000002, 0x00080100, 0x00000003] ++ List.replicate 13 0
/-- A frame of group 7: a bare one, or with IPv4 and UDP behind its `n` bytes of addresses. -/
def packet (n : Nat) : Frame :=
  { id := 1, bytes := if n = 0 then frame64 0x88B5 else
      [1, 0, 0x5E, 0, 0, 7, 2, 0, 0, 0, 0, 4, 8, 0, 0x45, 0, 0, 32, 0, 0, 0, 0, 1, 17, 0, 0, 10, 0, 0, 1, 239, 0, 0, 7, 0x15, 0xC0, 0x15, 0xC0, 0, 12, 0, 0, 1, 2, 3, 4] ++
        List.replicate 18 0, ing := 1, cls := 0, grp := some 7 }
/-- It has been delivered to Pavilion 7, where an audio stream and a DMX stream with its jobs wait for group 7. -/
def delivered (n : Nat) : State :=
  { clocked with
    sw := { inbox := [(7, [packet n])] }
    plc := { streams := [(1, audioIn), (2, { audioIn with skind := 3 })],
             jobs := [(9, { meterJob with kind := 6, ins := [2], cell := 112 }), (10, { meterJob with kind := 7, ins := [2], cell := 113 })] } }
/-- A transmit descriptor of LEN `n` with dword 3. -/
def txDesc (n : Nat) (d3 : Word) : List Word := [0, 0, w32 (n * 2 ^ 16), d3, 0, 0, 0, 0]
/-- A change of power state in progress. -/
def changing (c : Change) : State := { State.reset with pwr := { change := c } }
/-- Sources 0 and 511 pend unmasked for vector 0, source 0 at PRIO 2 and source 511 at PRIO 1. -/
def sources : State :=
  wrs State.reset [(irqB + 0x100, 1), (irqB + 0x100 + 8 * 15, 0x80000000), (irqB + 0x180, 0), (irqB + 0x180 + 8 * 15, 0), (tgtReg 0, 0x00020000), (tgtReg 511, 0x00010000)]
/-- Is the register file in canonical form? -/
def canon (s : State) : Bool := AMap.wf s.regs && s.regs.all fun e => e.2 != resetOf e.1
/-- Port `p` is a trunk port that is UP, and one exchange has measured a path delay of 0. -/
def measured (p : Nat) : State := setTrkTime (portOn p 1 7) p 0 { delays := [0] }

/-! ## Single commands, expected results from the spec -/

/-- A ring entry has eight dwords (R610). -/
theorem test_wellFormed_descriptor :
    Instr.wellFormed (.tableRead 0 []) = false ∧ Instr.wellFormed (.tableRead 0 (List.replicate 8 0)) = true := by decide +kernel

/-- Table entries come in groups of four dwords (R451). -/
theorem test_wellFormed_entries :
    Instr.wellFormed (.tableWrite 0 (List.replicate 8 0) [1, 2, 3]) = false ∧ Instr.wellFormed (.tableWrite 0 (List.replicate 8 0) [1, 2, 3, 4]) = true := by decide +kernel

/-- A time word has eight dwords (R208). -/
theorem test_wellFormed_timeWord :
    Instr.wellFormed (.timeWordReceive 0 (List.replicate 7 0) 0) = false ∧ Instr.wellFormed (.timeWordReceive 0 (List.replicate 8 0) 0) = true := by decide +kernel

/-- The header of a cue message has twelve dwords (R537). -/
theorem test_wellFormed_cueHeader :
    Instr.wellFormed (.prepareReceive 0 (List.replicate 11 0) []) = false ∧ Instr.wellFormed (.prepareReceive 0 (List.replicate 12 0) []) = true := by decide +kernel

/-- A correlator lies within one chip of prompt, 20 twentieths, and each offset comes once (R296). -/
theorem test_wellFormed_sums :
    Instr.wellFormed (.epochEnd 0 [(-21, 0, 0)] (0, 0) (0, 0) 0 ()) = false ∧ Instr.wellFormed (.epochEnd 0 [(20, 0, 0), (20, 1, 1)] (0, 0) (0, 0) 0 ()) = false ∧ Instr.wellFormed (.epochEnd 0 [(20, 0, 0), (-20, 1, 1)] (0, 0) (0, 0) 0 ()) = true := by decide +kernel

/-- Four loops measure eight slots each (R112, R129). -/
theorem test_wellFormed_loops :
    Instr.wellFormed (.selectionTick [⟨0, 0, []⟩]) = false ∧ Instr.wellFormed (.selectionTick (List.replicate 4 ⟨0, 0, List.replicate 8 0⟩)) = true := by decide +kernel

/-- Eighteen temperatures are read (R766). -/
theorem test_wellFormed_temps :
    Instr.wellFormed (.sensorRead []) = false ∧ Instr.wellFormed (.sensorRead (List.replicate 18 0)) = true := by decide +kernel

/-- Eight supplies are read (R769). -/
theorem test_wellFormed_supplies :
    Instr.wellFormed (.supplyRead []) = false ∧ Instr.wellFormed (.supplyRead (List.replicate 8 0)) = true := by decide +kernel

/-- What shifts in has the length of what shifts out (R811). -/
theorem test_wellFormed_boundary :
    Instr.wellFormed (.jtagSamplePreload [true] []) = false ∧ Instr.wellFormed (.jtagSamplePreload [true] [false]) = true := by decide +kernel

/-- A superblock has 4,096 line bits, or 2,200 PAM4 symbols with pad and parity (R353, R362). -/
theorem test_wellFormed_line :
    Instr.wellFormed (.superblockReceive 0 (.nrz []) [] 0 0) = false ∧ Instr.wellFormed (.superblockReceive 0 (.pam4 (List.replicate 2199 0)) [] 0 0) = false ∧ Instr.wellFormed (.superblockReceive 0 (.pam4 (List.replicate 2200 0)) [] 0 0) = true ∧ Instr.wellFormed (.superblockReceive 0 (.nrz (List.replicate 4096 false)) [] 0 0) = true := by decide +kernel

/-- Each descriptor of a delivery has eight dwords (R610). -/
theorem test_wellFormed_descriptors :
    Instr.wellFormed (.rxFrameDelivery [[]]) = false ∧ Instr.wellFormed (.rxFrameDelivery []) = true := by decide +kernel

/-- The table gives no row any bits: no word spells a command, and none is put in the queue. -/
theorem test_decode_none :
    decodeTableWord 32 0x12345678 = none ∧ State.reset.withFetchWord 32 0x12345678 = State.reset := by decide +kernel

/-- Port 52's QUE block, lane 52's registers, port 0's scheduler and three source targets lie where the worked examples of 00, 08 and 13 say. -/
theorem test_worked_addresses :
    queB (portPav 52) = 0x01640000 ∧ lanB 52 = 0x01614000 ∧ queSlot 0 + 8 = 0x01041008 ∧ tgtReg 209 = 0x81344 ∧ tgtReg 65 = 0x81104 ∧ tgtReg 185 = 0x812E4 ∧ claimAddr 2 = 0x83010 := by decide +kernel

/-- The published check values of the two polynomials (R210, R273), over the characters 1 to 9. -/
theorem test_worked_crc :
    crc16 [0x31, 0x32, 0x33, 0x34, 0x35, 0x36, 0x37, 0x38, 0x39] = 0x29B1 ∧ crc32 [0x31, 0x32, 0x33, 0x34, 0x35, 0x36, 0x37, 0x38, 0x39] = 0xCBF43926 := by decide +kernel

/-- Step 1 of the pit node's identity (02): the pair opens, and the register keeps its value. -/
theorem test_worked_identity_pair_opens :
    after (exec (.dwFirstWrite .host 0xF 0x50 2) State.reset) (fun t => t.rd 0x50 == 0 && t.dw.length == 1) = true := by decide +kernel

/-- Step 2 of it: the complement writes the register, and the device sets its SET bit. -/
theorem test_worked_identity_complement :
    after (exec (.dwComplementWrite .host 0xF 0x850 0xFFFFFFFD) { State.reset with dw := [(0, ⟨0x50, 2⟩)] }) (fun t => t.rd 0x50 == 0x80000002 && t.dw.length == 0) = true := by decide +kernel

/-- Step 3 of it: CHP locks. -/
theorem test_worked_identity_lock :
    after (exec (.blkLockWrite .host 0xF 0 1) State.reset) (fun t => t.rd 0x0C == 1) = true := by decide +kernel

/-- Steps 4 and 5 of it: the key, then the mode. -/
theorem test_worked_identity_mode :
    after (exec (.modeKeyWrite .host 0xF 0xA5C3) State.reset) (fun t => t.keys == [0]) = true ∧ after (exec (.modeChange .host 0xF 1) keyed) (fun t => t.mode == 1) = true := by decide +kernel

/-- Step 6 of it: management core 1 fails the mode check, and nothing else changes. -/
theorem test_worked_identity_stray :
    after (exec (.registerWrite (.core 1 false) 0xF 0x50 7 ⟨false, []⟩) { inService with pwr := { firmware := true } }) (fun t => t.rd 0x50 == 0 && t.rd 0x08 == 0x20100050) = true := by decide +kernel

/-- Step 7 of it: reading CHP_BLK_ERR gives it and clears it. -/
theorem test_worked_identity_read :
    after (exec (.blkErrRead .host 0xF 0) (State.reset.wr 0x08 0x20100050)) (fun t => t.busOut == 0x20100050 && t.rd 0x08 == 0) = true := by decide +kernel

/-- The alias that bites (02): SCOPE 0b11 at 0x2010 latches E_ILLEGAL at the offset reached, 0x0010. -/
theorem test_worked_alias :
    after (exec (.registerWrite .host 0xF 0x2010 3 ⟨false, []⟩) State.reset) (fun t => t.rd 0x08 == 0x00010010) = true := by decide +kernel

/-- Step 2 of the handler (13): the claim register answers source 209 at PRIO 3. -/
theorem test_worked_claim :
    after (exec (.irqClaim .host 0xF 2) (wrs State.reset [(irqB + 0x130, 0x00020000), (irqB + 0x1B0, 0), (tgtReg 209, 0x00030002)])) (fun t => t.busOut == 0x800300D1) = true := by decide +kernel

/-- Step 4 of it: the nested claim answers source 65 at PRIO 6. -/
theorem test_worked_nested_claim :
    after (exec (.irqClaim .host 0xF 2) { wrs State.reset [(irqB + 0x110, 2), (irqB + 0x190, 0), (tgtReg 209, 0x00030002), (tgtReg 65, 0x00060002)] with irq := { prioStacks := [(2, [209])] } }) (fun t => t.busOut == 0x80060041) = true := by decide +kernel

/-- Step 6 of it: 209 is not the top, and the record names both sources. -/
theorem test_worked_order_fault :
    after (exec (.irqEoi .host 0xF 2 209) { State.reset with irq := { prioStacks := [(2, [65, 209])] } }) (fun t => t.rd (irqB + 0x48) == 2 && t.rd (irqB + 0x4C) == 0x004100D1 && t.irq.prioStacks == [(2, [65, 209])]) = true := by decide +kernel

/-- Steps 7 and 8 of it: the top pops. -/
theorem test_worked_eoi :
    after (exec (.irqEoi .host 0xF 2 65) { State.reset with irq := { prioStacks := [(2, [65, 209])] } }) (fun t => t.irq.prioStacks == [(2, [209])]) = true := by decide +kernel

/-- The console at the pit (05): the edges of channels 0 and 1, and their difference; the offsets of 14 and 9 ps are cut to the register's units. -/
theorem test_worked_edge_console :
    let s := wrs clocked [(tdcCfg 0 + 0x18, 509696), (tdcCfg 0 + 0x1C, 1029376), (tdcCfg 0 + 0x20, 917), (tdcCfg 1 + 0x18, 506880), (tdcCfg 1 + 0x1C, 1026560), (tdcCfg 1 + 0x20, 589)]
    edgeOf s 0 0 3006 (5000000016 * 2 ^ 40 / 10) = 500000000 * 65536 + 25297 ∧ edgeOf s 1 0 2386 (500000004 * 2 ^ 40) = 500000003 * 65536 + 2032 ∧ csDiff (500000003 * 65536 + 2032) (500000000 * 65536 + 25297) = 0x2A51F := by decide +kernel

/-- The pit's audio window (08): with its registers written, enabling port 0's scheduler makes ACTIVE read 1. -/
theorem test_worked_schedule :
    after (exec (.schedulerEnable .host 0xF 0 1) (wrs clocked [(0x01041008, 0x1E848), (0x01041014, 2), (0x01048000, 0x10001388), (0x01048004, 0x4F000000)])) (fun t => t.flag 0x01041004 8 && t.flag 0x01041004 0) = true := by decide +kernel

/-- The truck's hop (15): with BASE -31 and STEP 1 a sample of v lands in bin v + 32, and none beyond. -/
theorem test_worked_bins :
    let s := wrs State.reset [(0x01071004, 0xFFFFFFE1), (0x01071008, 1)]
    histBin s 0x01071000 (-3) = 29 ∧ histBin s 0x01071000 (-31) = 1 ∧ histBin s 0x01071000 30 = 62 ∧ histBin s 0x01071000 (-32) = 0 ∧ histBin s 0x01071000 31 = 63 := by decide +kernel

/-- A counter stays at all ones (R79). -/
theorem test_saturation :
    (State.count (State.reset.wr 0x30068 0xFFFFFFFF) 0x30068).rd 0x30068 = 0xFFFFFFFF ∧ (State.count (State.reset.wr 0x30068 0xFFFFFFFE) 0x30068).rd 0x30068 = 0xFFFFFFFF := by decide +kernel

/-- Registers at the values that the maps give them: IRQ_BLK_ID as read, IRQ_CFG and the bypass increment. -/
theorem test_reset_values :
    State.reset.rd (irqB + 0x044) = 1 ∧ State.reset.rd (sunB + 0x0E4) = 0x2800 ∧ after (exec (.clearOnRead .host ⟨0xF, []⟩ 0x80000) State.reset) (fun t => t.busOut == 0x09FFA001) = true := by decide +kernel

/-- A read of any BAR2 offset returns 0 (R43). -/
theorem test_bar2_read :
    after (exec (.bar2ReservedWrite 0x1000 none) { State.reset with busOut := 5 }) (fun t => t.busOut == 0) = true := by decide +kernel

/-- A 64-bit write is two accesses, the lower offset first (R48). -/
theorem test_wide_write :
    after (exec (.registerWrite .host 0xF 0x81000 0x00030002 ⟨false, [(0xF, 0x00020001)]⟩) State.reset) (fun t => t.rd 0x81000 == 0x00030002 && t.rd 0x81004 == 0x00020001) = true := by decide +kernel

/-- A chip-level fatal fault drives FATAL_N low (R809). -/
theorem test_fatal_ball :
    after (exec (.supplyFault 2) { later State.reset with mon := { outAt := [(2, 0)] } }) (fun t => t.sent.contains (.edge .fatalN false (nodeTime State.reset)) && t.flag (monB + 0x048) 31) = true := by decide +kernel

/-- A flush of one of the reserved port numbers 137 to 254 is refused; 136 and 255 are not (R12). -/
theorem test_flush_reserved :
    tdCheck [0, 0, w32 (6 * 2 ^ 24), 0, 137, 0, 0, 0] = 0x01 ∧ tdCheck [0, 0, w32 (6 * 2 ^ 24), 0, 254, 0, 0, 0] = 0x01 ∧ tdCheck [0, 0, w32 (6 * 2 ^ 24), 0, 255, 0, 0, 0] = 0 ∧ tdCheck [0, 0, w32 (6 * 2 ^ 24), 0, 136, 0, 0, 0] = 0 := by decide +kernel

/-! ## Witnesses: states and operands that meet the hypotheses of the statements -/

/-- States and operands that meet the hypotheses of EveryStepKeepsTheCanonicalForm. -/
theorem witness_EveryStepKeepsTheCanonicalForm :
    State.reset.regs = [] ∧ State.reset.nvm.bytes = [] ∧ after (step { State.reset with pending := [.registerWrite .host 0xF 0x10408 5 ⟨false, []⟩] }) (fun t => t.pending == [] && t.rd 0x10408 == 5) = true := by decide +kernel

/-- States and operands that meet the hypotheses of EveryStepTakesExactlyOneCommand. -/
theorem witness_EveryStepTakesExactlyOneCommand :
    after (step { State.reset with pending := [.ageTick, .gatehouseReady] }) (fun t => t.pending == [.gatehouseReady]) = true := by decide +kernel

/-- States and operands that meet the hypotheses of OutputsAndTimeNeverRunBack. -/
theorem witness_OutputsAndTimeNeverRunBack :
    (after (step { State.reset with pending := [.jtagIdcode] }) (fun t => t.sent.length == 1) = true) ∧
    (after (step { State.reset with pending := [.sundialTick {}] }) (fun t => decide (0 < t.elapsed)) = true) :=
  ⟨by decide +kernel, by decide +kernel⟩

/-- States and operands that meet the hypotheses of OnlyACompletedWriteChangesTheNvm. -/
theorem witness_OnlyACompletedWriteChangesTheNvm :
    after (exec .lodgePowerOn (nvmHolds 0 7)) (fun t => AMap.getD t.nvm.bytes 0 0 == 7) = true ∧ ∀ fail, Instr.lodgePowerOn ≠ .nvmWriteDone fail := by decide +kernel

/-- States and operands that meet the hypotheses of OnlyTheReleaseEndsAChipReset. -/
theorem witness_OnlyTheReleaseEndsAChipReset :
    after (exec (.chipResetPin true) State.reset) (fun t => t.held && after (exec (.chipResetPin false) t) fun u => u.held) = true := by decide +kernel

/-- States and operands that meet the hypotheses of PlainWriteStoresByItsClass. -/
theorem witness_PlainWriteStoresByItsClass :
    (atReg 0x10408 (fun x => taken State.reset .host 0xF 0x10408 0xFFFFFFFF x && quiet x && x.row.cls == .rw) = true) ∧
    (atReg 0x10118 (fun x => taken State.reset .host 0xF 0x10118 1 x && quiet x && x.row.cls == .w1c) = true) ∧
    ((counted State.reset .host 0x10408).regs = []) ∧
    ((0x1FFFFF8 : BitVec 25).toNat + 4 < 2 ^ 25 ∧ after (exec (.registerWrite .host 0xF 0x10408 5 ⟨false, []⟩) State.reset) (fun t => t.rd 0x10408 == 5) = true ∧ after (exec (.counterRead .host ⟨0xF, []⟩ 0x80000) State.reset) (fun t => after (exec (.counterRead .host ⟨0xF, []⟩ 0x80004) { t with busMore := [] }) fun _ => true) = true) :=
  ⟨by decide +kernel, by decide +kernel, by decide +kernel, by decide +kernel⟩

/-- States and operands that meet the hypotheses of FirstFailingCheckGivesTheCode. -/
theorem witness_FirstFailingCheckGivesTheCode :
    (State.reset.alive = true ∧ atReg 0x10408 plain = true ∧ (0x7 : BitVec 4) ≠ 0xF ∧ 0x1040A % 4 ≠ 0 ∧ atReg 0x1040A plain = true) ∧
    (atReg (pwrB + 0x048) (fun x => plain x && modeBad State.reset x 0x5C02) = true) ∧
    (atReg (pwrB + 0x048) (fun x => plain x && !modeBad State.reset x 0x5B01 && lockBad State.reset .host x 0x5B01) = true) ∧
    (atReg (queSlot 5 + 0x008) (fun x => plain x && !modeBad running x 1000 && !lockBad running .host x 1000 && ownerActive running x) = true) ∧
    (atReg 0x10400 (fun x => plain x && !modeBad State.reset x 0x00100010 && !lockBad State.reset .host x 0x00100010 && !ownerActive State.reset x && valueIllegal State.reset .host x 0x00100010) = true) ∧
    (atReg 0x10400 (fun x => plain x && !valueIllegal State.reset .host x 0x000F0000 && valueRange State.reset .host x 0x000F0000 && !ownerActive State.reset x) = true) ∧
    (atReg 0x10400 (fun x => plain x && !modeBad State.reset x 0x00100000 && !lockBad State.reset .host x 0x00100000 && !ownerActive State.reset x && !valueIllegal State.reset .host x 0x00100000 && !valueRange State.reset .host x 0x00100000) = true) :=
  ⟨by decide +kernel, by decide +kernel, by decide +kernel, by decide +kernel, by decide +kernel, by decide +kernel, by decide +kernel⟩

/-- States and operands that meet the hypotheses of WriteToReadOnlyClassesIsIgnored. -/
theorem witness_WriteToReadOnlyClassesIsIgnored :
    (atReg 0x10040 (fun x => reaches State.reset .host 0x10040 x && x.row.cls == .ro) = true) ∧
    (atReg 0x30068 (fun x => reaches State.reset .host 0x30068 x && x.row.cls == .rc) = true) ∧
    (atReg 0x3006C (fun x => reaches State.reset .host 0x3006C x && x.row.cls == .snap) = true) ∧
    (atReg (macB 0 + 0x104) (fun x => reaches State.reset .host (macB 0 + 0x104) x && x.row.cls == .rcHi) = true) :=
  ⟨by decide +kernel, by decide +kernel, by decide +kernel, by decide +kernel⟩

/-- States and operands that meet the hypotheses of MaskedWriteMergesItsBits. -/
theorem witness_MaskedWriteMergesItsBits :
    (maskedReg.row.cls = .wm ∧ maskedReg.row.eff = .none ∧ (0 : Word) >>> 16 = 0 ∧ (0xFFFF : Word) >>> 16 = 0) ∧
    (illegalValue maskedReg.row.flds (newWord maskedReg (State.reset.rd maskedReg.home) 0x00100010) = true ∧ rangeValue maskedReg.row.flds (newWord maskedReg (State.reset.rd maskedReg.home) 0x000F0009) = true) :=
  ⟨by decide +kernel, by decide +kernel⟩

/-- States and operands that meet the hypotheses of NewErrorOverwritesBlkErr. -/
theorem witness_NewErrorOverwritesBlkErr :
    State.reset.regs = [] ∧ State.reset.flag (chpB + 0x004) 2 = false ∧ (State.reset.setFlag (chpB + 0x004) 2 true).flag (chpB + 0x004) 2 = true := by decide +kernel

/-- States and operands that meet the hypotheses of ReadingBlkErrClearsIt. -/
theorem witness_ReadingBlkErrClearsIt :
    masterActs State.reset .host = true ∧ (locate 0x08).isSome = true ∧ (locate 0x1E70008).isSome = true := by decide +kernel

/-- States and operands that meet the hypotheses of ReservedRangeIsRecorded. -/
theorem witness_ReservedRangeIsRecorded :
    (resolve 0xF0000 = none ∧ resolve 0x1FFFFFC = none ∧ held.alive = false ∧ State.reset.alive = true) ∧
    (masterActs held .host = false ∧ masterActs State.reset .host = true ∧ masterActs State.reset (.core 0 false) = false ∧ masterActs { State.reset with pwr := { firmware := true } } (.core 0 false) = true) :=
  ⟨by decide +kernel, by decide +kernel⟩

/-- States and operands that meet the hypotheses of ReservedBar2WriteIsIgnored. -/
theorem witness_ReservedBar2WriteIsIgnored :
    (0xFF004 : BitVec 20).toNat % 0x1000 ≠ 0 ∧ State.reset.alive = true ∧ (0xFF000 : BitVec 20).toNat = 0x1000 * (255 : Fin 256).val ∧ (0 : BitVec 20).toNat = 0x1000 * (0 : Fin 256).val := by decide +kernel

/-- States and operands that meet the hypotheses of AliasBehavesAsTheRegister. -/
theorem witness_AliasBehavesAsTheRegister :
    resolve 0x1048 = some (⟨.chp, 0, 0⟩, 0x048) ∧ 0x1048 % 4 = 0 ∧ (⟨.chp, 0, 0⟩ : Block).base + 0x048 = 0x48 := by decide +kernel

/-- States and operands that meet the hypotheses of ReadingACounterClearsIt. -/
theorem witness_ReadingACounterClearsIt :
    (atReg 0x30068 (fun x => reaches State.reset .host 0x30068 x && x.row.cls == .rc && x.row.eff == .none && x.row.ctr == .c32 4 && !hasHigh x.addr) = true) ∧
    (atReg 0x48 (fun x => reaches State.reset .host 0x48 x && x.row.cls == .rc && x.row.eff == .none && x.row.ctr == .none && !hasHigh x.addr) = true) ∧
    ((counted State.reset .host 0x30068).regs = []) :=
  ⟨by decide +kernel, by decide +kernel, by decide +kernel⟩

/-- States and operands that meet the hypotheses of LowHalfLatchesTheHighHalf. -/
theorem witness_LowHalfLatchesTheHighHalf :
    (atReg (macB 0 + 0x100) (fun x => reaches State.reset .host (macB 0 + 0x100) x && x.row.cls == .rc && x.row.eff == .none && x.row.ctr == .c64 0x200 && hasHigh x.addr) = true) ∧
    ((counted State.reset .host (macB 0 + 0x100)).regs = [] ∧ (counted State.reset .host (macB 0 + 0x100)).latched = []) ∧
    (atReg (macB 0 + 0x104) (fun y => y.addr == macB 0 + 0x100 + 4 && y.row.cls == .rcHi && y.row.eff == .none && !hasHigh y.addr) = true) :=
  ⟨by decide +kernel, by decide +kernel, by decide +kernel⟩

/-- States and operands that meet the hypotheses of ReadParityErrorLatches. -/
theorem witness_ReadParityErrorLatches :
    State.reset.alive = true ∧ atReg 0x10408 (fun _ => true) = true := by decide +kernel

/-- States and operands that meet the hypotheses of CountersSaturate. -/
theorem witness_CountersSaturate :
    (State.reset.wr 0x68 0xFFFFFFFF).rd 0x68 = 0xFFFFFFFF ∧ ((State.reset.wr 0x68 0xFFFFFFFF).count 0x68 1).rd 0x68 = 0xFFFFFFFF := by decide +kernel

/-- States and operands that meet the hypotheses of DualWriteNeedsBothWrites. -/
theorem witness_DualWriteNeedsBothWrites_1 :
    (atReg 0x90054 (fun x => reaches inService .host 0x90054 x && x.row.cls == .dw && modeBad inService x 1) = true) ∧
    (atReg 0x90054 (fun x => reaches pwrLocked .host 0x90054 x && x.row.cls == .dw && !modeBad pwrLocked x 1 && lockBad pwrLocked .host x 1) = true) ∧
    (atReg 0x90054 (fun x => reaches State.reset .host 0x90054 x && x.row.cls == .dw && !modeBad State.reset x 1 && !lockBad State.reset .host x 1 && (AMap.get State.reset.dw (dwKey x.b .host)).isNone) = true) ∧
    (atReg 0x90054 (fun x => reaches pairOpen .host 0x90054 x && !modeBad pairOpen x 1 && !lockBad pairOpen .host x 1 && AMap.get pairOpen.dw (dwKey x.b .host) == some ⟨0x90054, 1⟩) = true) ∧
    (atReg 0x90854 (fun x => reaches State.reset .host 0x90854 x && x.row.cls == .comp && (regOf x.home).any (fun y => !modeBad State.reset y (~~~(0xFFFFFFFE : Word)) && !lockBad State.reset .host y 1) && (AMap.get State.reset.dw (dwKey x.b .host)).isNone) = true) ∧
    (atReg 0x90854 (fun x => reaches inService .host 0x90854 x && x.row.cls == .comp && (regOf x.home).any (fun y => modeBad inService y (~~~(0xFFFFFFFE : Word)))) = true) ∧
    (atReg 0x90854 (fun x => reaches pwrLocked .host 0x90854 x && x.row.cls == .comp && (regOf x.home).any (fun y => !modeBad pwrLocked y (~~~(0xFFFFFFFE : Word)) && lockBad pwrLocked .host y (~~~(0xFFFFFFFE : Word)))) = true) ∧
    (atReg 0x90854 (fun x => reaches (pairOn 0x90050) .host 0x90854 x && x.row.cls == .comp && (regOf x.home).any (fun y => !modeBad (pairOn 0x90050) y 1 && !lockBad (pairOn 0x90050) .host y 1 && (AMap.get (pairOn 0x90050).dw (dwKey x.b .host)).any fun q => q.reg != y.addr)) = true) :=
  ⟨by decide +kernel, by decide +kernel, by decide +kernel, by decide +kernel, by decide +kernel, by decide +kernel, by decide +kernel, by decide +kernel⟩

/-- States and operands that meet the hypotheses of DualWriteNeedsBothWrites. -/
theorem witness_DualWriteNeedsBothWrites_2 :
    atReg 0x90854 (fun x => reaches pairOpen .host 0x90854 x && x.row.cls == .comp && (regOf x.home).any (fun y => (AMap.get pairOpen.dw (dwKey x.b .host)).any fun q => q.reg == y.addr && !modeBad pairOpen y q.val && !lockBad pairOpen .host y q.val && lateCode (closePair pairOpen x.b .host) .host y q.val false == 0 && 0 != ~~~q.val)) = true := by decide +kernel

/-- States and operands that meet the hypotheses of ModeWriteNeedsItsKey. -/
theorem witness_ModeWriteNeedsItsKey :
    (masterActs State.reset .host = true ∧ State.reset.mode = 0 ∧ State.reset.flag (chpB + 0x004) 3 = false ∧ Master.host.num ∉ State.reset.keys) ∧
    (masterActs keyed .host = true ∧ Master.host.num ∈ keyed.keys ∧ keyed.mode < 4 ∧ moveAllowed keyed 0 3 = false ∧ 4 ≤ (4 : Word).toNat) :=
  ⟨by decide +kernel, by decide +kernel⟩

/-- States and operands that meet the hypotheses of ResetLeavesTheStatedValues. -/
theorem witness_ResetLeavesTheStatedValues :
    atReg 0x10400 (fun x => x.row.rst == 0x012C0200) = true := by decide +kernel

/-- States and operands that meet the hypotheses of HeaderAndModeCommandsWriteTheirRegister. -/
theorem witness_HeaderAndModeCommandsWriteTheirRegister :
    (ok State.reset ((0x10408 : BitVec 25).toNat) 0 = true) ∧
    (ok State.reset ((headerAddr (0x10000 : BitVec 25).toNat 0x00C)) 0 = true) ∧
    (ok State.reset ((headerAddr (0x10000 : BitVec 25).toNat 0x010)) (w32 ((0 : Byte).toNat * 256 + 0)) = true) ∧
    (ok State.reset ((headerAddr (0x10000 : BitVec 25).toNat 0x010)) (w32 ((0 : Byte).toNat * 256 + 1)) = true) ∧
    (ok State.reset ((headerAddr (0x10000 : BitVec 25).toNat 0x010)) (w32 ((0 : Byte).toNat * 256 + 2)) = true) ∧
    (ok State.reset ((chpB + 0x044)) 0 = true) ∧
    (ok keyed ((chpB + 0x040)) 1 = true) :=
  ⟨by decide +kernel, by decide +kernel, by decide +kernel, by decide +kernel, by decide +kernel, by decide +kernel, by decide +kernel⟩

/-- States and operands that meet the hypotheses of ClockAndTimeCommandsWriteTheirRegister. -/
theorem witness_ClockAndTimeCommandsWriteTheirRegister_1 :
    (ok State.reset ((clkB + 0x100 + 0x20 * (0 : Fin 8).val + (if false then 4 else 0))) (State.reset.rd ((clkB + 0x100 + 0x20 * (0 : Fin 8).val + (if false then 4 else 0)))) = true) ∧
    (ok State.reset ((clkB + 0x100 + 0x20 * (3 : Fin 8).val + (if true then 4 else 0))) (State.reset.rd ((clkB + 0x100 + 0x20 * (3 : Fin 8).val + (if true then 4 else 0)))) = true) ∧
    (ok State.reset ((clkB + 0x100 + 0x20 * (7 : Fin 8).val + (if false then 4 else 0))) (State.reset.rd ((clkB + 0x100 + 0x20 * (7 : Fin 8).val + (if false then 4 else 0)))) = true) ∧
    (ok State.reset ((dpllCfg (0 : Fin 4))) (State.reset.rd ((dpllCfg (0 : Fin 4)))) = true) ∧
    (ok State.reset ((dpllCfg (3 : Fin 4))) (State.reset.rd ((dpllCfg (3 : Fin 4)))) = true) ∧
    (ok State.reset ((clkB + 0x060)) 0 = true) ∧
    (ok State.reset ((clkB + 0x064)) 0 = true) ∧
    (ok State.reset ((clkB + 0x30C + 0x20 * (0 : Fin 8).val)) 0 = true) :=
  ⟨by decide +kernel, by decide +kernel, by decide +kernel, by decide +kernel, by decide +kernel, by decide +kernel, by decide +kernel, by decide +kernel⟩

/-- States and operands that meet the hypotheses of ClockAndTimeCommandsWriteTheirRegister. -/
theorem witness_ClockAndTimeCommandsWriteTheirRegister_2 :
    (ok State.reset ((clkB + 0x30C + 0x20 * (7 : Fin 8).val)) 0 = true) ∧
    (ok State.reset ((sunB + 0x05C)) 0x200 = true) ∧
    (ok State.reset ((timeOutCfg (0 : Fin 8).val)) (putBits (State.reset.rd ((timeOutCfg (0 : Fin 8).val))) 0 0 1) = true) ∧
    (ok State.reset ((timeOutCfg (7 : Fin 8).val)) (putBits (State.reset.rd ((timeOutCfg (7 : Fin 8).val))) 0 0 1) = true) ∧
    (ok State.reset ((timeOutCfg (0 : Fin 8).val)) (putBits (State.reset.rd ((timeOutCfg (0 : Fin 8).val))) 0 0 0) = true) ∧
    (ok State.reset ((timeOutCfg (7 : Fin 8).val)) (putBits (State.reset.rd ((timeOutCfg (7 : Fin 8).val))) 0 0 0) = true) ∧
    (ok State.reset ((timeOutAdj (0 : Fin 8).val)) 0 = true) ∧
    (ok State.reset ((timeOutAdj (7 : Fin 8).val)) 0 = true) :=
  ⟨by decide +kernel, by decide +kernel, by decide +kernel, by decide +kernel, by decide +kernel, by decide +kernel, by decide +kernel, by decide +kernel⟩

/-- States and operands that meet the hypotheses of ClockAndTimeCommandsWriteTheirRegister. -/
theorem witness_ClockAndTimeCommandsWriteTheirRegister_3 :
    (ok (ahead 0) ((sunB + 0x200 + 0x20 * (0 : Fin 16).val)) (putBits (State.reset.rd ((sunB + 0x200 + 0x20 * (0 : Fin 16).val))) 0 0 1) = true) ∧
    (ok (ahead 15) ((sunB + 0x200 + 0x20 * (15 : Fin 16).val)) (putBits (State.reset.rd ((sunB + 0x200 + 0x20 * (15 : Fin 16).val))) 0 0 1) = true) ∧
    (ok State.reset ((sunB + 0x200 + 0x20 * (0 : Fin 16).val)) (putBits (State.reset.rd ((sunB + 0x200 + 0x20 * (0 : Fin 16).val))) 0 0 0) = true) ∧
    (ok State.reset ((sunB + 0x200 + 0x20 * (15 : Fin 16).val)) (putBits (State.reset.rd ((sunB + 0x200 + 0x20 * (15 : Fin 16).val))) 0 0 0) = true) ∧
    (ok State.reset ((sunB + 0x064)) 0 = true) ∧
    (ok State.reset ((sunB + 0x068)) (putBits 1 4 4 0) = true) ∧
    (ok State.reset ((sunB + 0x068)) (putBits 2 4 4 1) = true) ∧
    (ok State.reset ((sunB + 0x1000 + 0x10 * (0 : Fin 128).val)) 0 = true) :=
  ⟨by decide +kernel, by decide +kernel, by decide +kernel, by decide +kernel, by decide +kernel, by decide +kernel, by decide +kernel, by decide +kernel⟩

/-- States and operands that meet the hypotheses of ClockAndTimeCommandsWriteTheirRegister. -/
theorem witness_ClockAndTimeCommandsWriteTheirRegister_4 :
    ok State.reset ((sunB + 0x1000 + 0x10 * (127 : Fin 128).val)) 0 = true := by decide +kernel

/-- States and operands that meet the hypotheses of MeasurementAndGnssCommandsWriteTheirRegister. -/
theorem witness_MeasurementAndGnssCommandsWriteTheirRegister_1 :
    (ok State.reset ((tdcB + 0x400 + 0x40 * (0 : Fin 16).val)) (putBits 0 3 2 1) = true) ∧
    (ok State.reset ((tdcB + 0x400 + 0x40 * (15 : Fin 16).val)) (putBits 0 3 2 1) = true) ∧
    (ok State.reset ((tdcB + 0x400 + 0x40 * (0 : Fin 16).val)) (putBits 0 3 2 2) = true) ∧
    (ok State.reset ((tdcB + 0x400 + 0x40 * (15 : Fin 16).val)) (putBits 0 3 2 2) = true) ∧
    (ok State.reset ((tdcB + 0x400 + 0x40 * (0 : Fin 16).val)) (putBits 0 3 2 3) = true) ∧
    (ok State.reset ((tdcB + 0x400 + 0x40 * (15 : Fin 16).val)) (putBits 0 3 2 3) = true) ∧
    (ok State.reset ((tdcB + 0x400 + 0x40 * (0 : Fin 16).val)) (putBits 0 3 2 0) = true) ∧
    (ok State.reset ((tdcB + 0x400 + 0x40 * (15 : Fin 16).val)) (putBits 0 3 2 0) = true) :=
  ⟨by decide +kernel, by decide +kernel, by decide +kernel, by decide +kernel, by decide +kernel, by decide +kernel, by decide +kernel, by decide +kernel⟩

/-- States and operands that meet the hypotheses of MeasurementAndGnssCommandsWriteTheirRegister. -/
theorem witness_MeasurementAndGnssCommandsWriteTheirRegister_2 :
    (ok State.reset ((tdcB + 0x800 + 0x20 * (0 : Fin 8).val)) 0 = true) ∧
    (ok State.reset ((tdcB + 0x800 + 0x20 * (7 : Fin 8).val)) 0 = true) ∧
    (ok State.reset ((tdcB + 0x05C)) (w32 (0 + (0 : Byte).toNat)) = true) ∧
    (ok State.reset ((tdcB + 0x05C)) (w32 (256 + (0 : Byte).toNat)) = true) ∧
    (ok State.reset ((tdcB + 0x05C)) (w32 (512 + (0 : Byte).toNat)) = true) ∧
    (ok State.reset ((tdcB + 0x050)) 0 = true) ∧
    (ok State.reset ((gnsB + 0x308)) 0 = true) ∧
    (ok (owned 0) ((gnsB + 0x2004 + 0x80 * (0 : Fin 64).val + 4 * (0 : Fin 3).val)) 0 = true) :=
  ⟨by decide +kernel, by decide +kernel, by decide +kernel, by decide +kernel, by decide +kernel, by decide +kernel, by decide +kernel, by decide +kernel⟩

/-- States and operands that meet the hypotheses of MeasurementAndGnssCommandsWriteTheirRegister. -/
theorem witness_MeasurementAndGnssCommandsWriteTheirRegister_3 :
    (ok (owned 63) ((gnsB + 0x2004 + 0x80 * (63 : Fin 64).val + 4 * (2 : Fin 3).val)) 0 = true) ∧
    (ok (owned 0) ((gnsB + 0x2010 + 0x80 * (0 : Fin 64).val)) 0 = true) ∧
    (ok (owned 63) ((gnsB + 0x2010 + 0x80 * (63 : Fin 64).val)) 0 = true) ∧
    (ok State.reset ((gnsB + 0x2000 + 0x80 * (0 : Fin 64).val)) 0x200010 = true) ∧
    (ok State.reset ((gnsB + 0x2000 + 0x80 * (63 : Fin 64).val)) 0x200010 = true) ∧
    (ok State.reset ((gnsB + 0x408)) (putBits 0 0 0 1) = true) ∧
    (ok State.reset ((gnsB + 0x408)) (putBits 0 1 1 1) = true) ∧
    (ok State.reset ((grtCfg (0 : Fin 8).val + 0x10)) (putBits 0 0 0 1) = true) :=
  ⟨by decide +kernel, by decide +kernel, by decide +kernel, by decide +kernel, by decide +kernel, by decide +kernel, by decide +kernel, by decide +kernel⟩

/-- States and operands that meet the hypotheses of MeasurementAndGnssCommandsWriteTheirRegister. -/
theorem witness_MeasurementAndGnssCommandsWriteTheirRegister_4 :
    (ok State.reset ((grtCfg (7 : Fin 8).val + 0x10)) (putBits 0 0 0 1) = true) ∧
    (ok State.reset ((grtCfg (0 : Fin 8).val + 0x10)) (putBits 0 1 1 1) = true) ∧
    (ok State.reset ((grtCfg (7 : Fin 8).val + 0x10)) (putBits 0 1 1 1) = true) ∧
    (ok State.reset ((gnsB + 0x004)) (putBits 0 0 0 0) = true) :=
  ⟨by decide +kernel, by decide +kernel, by decide +kernel, by decide +kernel⟩

/-- States and operands that meet the hypotheses of PortTableAndCueCommandsWriteTheirRegister. -/
theorem witness_PortTableAndCueCommandsWriteTheirRegister_1 :
    (ok State.reset ((macB (0 : Fin 128).val + 0x040)) (putBits 0x01000000 0 0 1) = true) ∧
    (ok State.reset ((macB (127 : Fin 128).val + 0x040)) (putBits 0x01000000 0 0 1) = true) ∧
    (ok State.reset ((macB (0 : Fin 128).val + 0x040)) (putBits 0 0 0 0) = true) ∧
    (ok State.reset ((macB (127 : Fin 128).val + 0x040)) (putBits 0 0 0 0) = true) ∧
    (ok State.reset ((lanB (0 : Fin 128).val + 0x064)) (putBits 0 0 0 1) = true) ∧
    (ok State.reset ((lanB (127 : Fin 128).val + 0x064)) (putBits 0 0 0 1) = true) ∧
    (ok State.reset ((lanB (0 : Fin 128).val + 0x064)) (putBits 0 1 1 1) = true) ∧
    (ok State.reset ((lanB (127 : Fin 128).val + 0x064)) (putBits 0 1 1 1) = true) :=
  ⟨by decide +kernel, by decide +kernel, by decide +kernel, by decide +kernel, by decide +kernel, by decide +kernel, by decide +kernel, by decide +kernel⟩

/-- States and operands that meet the hypotheses of PortTableAndCueCommandsWriteTheirRegister. -/
theorem witness_PortTableAndCueCommandsWriteTheirRegister_2 :
    (ok State.reset ((queSlot (0 : Fin 128).val + 4)) (putBits 0 0 0 1) = true) ∧
    (ok State.reset ((queSlot (127 : Fin 128).val + 4)) (putBits 0 0 0 1) = true) ∧
    (ok State.reset ((queSlot (0 : Fin 128).val + 4)) (putBits 0 0 0 0) = true) ∧
    (ok State.reset ((queSlot (127 : Fin 128).val + 4)) (putBits 0 0 0 0) = true) ∧
    (ok State.reset ((tblB + 0x064)) 0 = true) ∧
    (ok State.reset ((tblB + 0x068)) 0 = true) ∧
    (ok State.reset ((cueB + 0x054)) 0 = true) ∧
    (ok State.reset ((bstB (0 : Fin 128).val + 0x004)) (putBits 0 0 0 0) = true) :=
  ⟨by decide +kernel, by decide +kernel, by decide +kernel, by decide +kernel, by decide +kernel, by decide +kernel, by decide +kernel, by decide +kernel⟩

/-- States and operands that meet the hypotheses of PortTableAndCueCommandsWriteTheirRegister. -/
theorem witness_PortTableAndCueCommandsWriteTheirRegister_3 :
    (ok State.reset ((bstB (127 : Fin 128).val + 0x004)) (putBits 0 0 0 0) = true) ∧
    (ok State.reset ((bstB (0 : Fin 128).val + 0x004)) (putBits 0 0 0 1) = true) ∧
    (ok State.reset ((bstB (127 : Fin 128).val + 0x004)) (putBits 0 0 0 1) = true) :=
  ⟨by decide +kernel, by decide +kernel, by decide +kernel⟩

/-- States and operands that meet the hypotheses of HostIrqAndPowerCommandsWriteTheirRegister. -/
theorem witness_HostIrqAndPowerCommandsWriteTheirRegister_1 :
    (ok cqOn ((ringCfg (0 : Fin 256).val)) (putBits 0x62 0 0 1) = true) ∧
    (ok cqOn ((ringCfg (255 : Fin 256).val)) (putBits 0x62 0 0 1) = true) ∧
    (ok State.reset ((ringCfg (0 : Fin 256).val)) (putBits (State.reset.rd ((ringCfg (0 : Fin 256).val))) 0 0 0) = true) ∧
    (ok State.reset ((ringCfg (255 : Fin 256).val)) (putBits (State.reset.rd ((ringCfg (255 : Fin 256).val))) 0 0 0) = true) ∧
    (ok State.reset ((cqCfg (0 : Fin 256).val)) (putBits 0 0 0 1) = true) ∧
    (ok State.reset ((cqCfg (255 : Fin 256).val)) (putBits 0 0 0 1) = true) ∧
    (ok State.reset ((cqCfg (0 : Fin 256).val)) (putBits 0 0 0 0) = true) ∧
    (ok State.reset ((cqCfg (255 : Fin 256).val)) (putBits 0 0 0 0) = true) :=
  ⟨by decide +kernel, by decide +kernel, by decide +kernel, by decide +kernel, by decide +kernel, by decide +kernel, by decide +kernel, by decide +kernel⟩

/-- States and operands that meet the hypotheses of HostIrqAndPowerCommandsWriteTheirRegister. -/
theorem witness_HostIrqAndPowerCommandsWriteTheirRegister_2 :
    (ok State.reset ((irqB + 0x100 + 8 * (0 : Fin 16).val)) 0 = true) ∧
    (ok State.reset ((irqB + 0x100 + 8 * (15 : Fin 16).val)) 0 = true) ∧
    (ok State.reset ((irqB + 0x104 + 8 * (0 : Fin 16).val)) 0 = true) ∧
    (ok State.reset ((irqB + 0x104 + 8 * (15 : Fin 16).val)) 0 = true) ∧
    (ok State.reset ((irqB + 0x180 + 8 * (0 : Fin 16).val)) 0 = true) ∧
    (ok State.reset ((irqB + 0x180 + 8 * (15 : Fin 16).val)) 0 = true) ∧
    (ok State.reset ((irqB + 0x184 + 8 * (0 : Fin 16).val)) 0 = true) ∧
    (ok State.reset ((irqB + 0x184 + 8 * (15 : Fin 16).val)) 0 = true) :=
  ⟨by decide +kernel, by decide +kernel, by decide +kernel, by decide +kernel, by decide +kernel, by decide +kernel, by decide +kernel, by decide +kernel⟩

/-- States and operands that meet the hypotheses of HostIrqAndPowerCommandsWriteTheirRegister. -/
theorem witness_HostIrqAndPowerCommandsWriteTheirRegister_3 :
    (ok State.reset ((irqB + 0x1000 + 4 * (0 : Fin 512).val)) 0 = true) ∧
    (ok State.reset ((irqB + 0x1000 + 4 * (511 : Fin 512).val)) 0 = true) ∧
    (ok State.reset ((claimAddr (0 : Fin 260).val + 4)) 0 = true) ∧
    (atReg (claimAddr (259 : Fin 260).val + 4) (fun x => taken { State.reset with pwr := { firmware := true } } (.core 3 true) 0xF (claimAddr (259 : Fin 260).val + 4) 0 x) = true) ∧
    (ok State.reset ((irqB + 0x070)) 0 = true) ∧
    (ok State.reset ((irqB + 0x280 + 4 * (0 : Fin 32).val)) 0 = true) ∧
    (ok State.reset ((irqB + 0x280 + 4 * (31 : Fin 32).val)) 0 = true) ∧
    (ok State.reset ((pwrB + 0x048)) (w32 ((0x5C : Byte).toNat * 256 + 0)) = true) :=
  ⟨by decide +kernel, by decide +kernel, by decide +kernel, by decide +kernel, by decide +kernel, by decide +kernel, by decide +kernel, by decide +kernel⟩

/-- States and operands that meet the hypotheses of HostIrqAndPowerCommandsWriteTheirRegister. -/
theorem witness_HostIrqAndPowerCommandsWriteTheirRegister_4 :
    (ok State.reset ((pwrB + 0x048)) (w32 ((0x5C : Byte).toNat * 256 + 1)) = true) ∧
    (ok inService ((pwrB + 0x048)) (w32 ((0x5C : Byte).toNat * 256 + 2)) = true) ∧
    (ok p3Allowed ((pwrB + 0x048)) (w32 ((0x5C : Byte).toNat * 256 + 3)) = true) ∧
    (ok State.reset ((if false then pwrB + 0x094 else pwrB + 0x090)) 0 = true) ∧
    (ok State.reset ((if true then pwrB + 0x094 else pwrB + 0x090)) 0 = true) ∧
    (ok State.reset ((pwrB + 0x098)) (putBits 0 31 31 1) = true) ∧
    (ok nvmPage ((nvmB + 0x8000 + (0 : BitVec 15).toNat / 4 * 4)) 0 = true) ∧
    (ok State.reset ((histReg ((none : Option (Fin 8)).map Fin.val) (histUnit none 0))) (putBits 0 0 0 1) = true) :=
  ⟨by decide +kernel, by decide +kernel, by decide +kernel, by decide +kernel, by decide +kernel, by decide +kernel, by decide +kernel, by decide +kernel⟩

/-- States and operands that meet the hypotheses of HostIrqAndPowerCommandsWriteTheirRegister. -/
theorem witness_HostIrqAndPowerCommandsWriteTheirRegister_5 :
    (ok State.reset ((histReg ((some 7 : Option (Fin 8)).map Fin.val) (histUnit (some 7) 7))) (putBits 0 0 0 0) = true) ∧
    (ok State.reset ((histReg ((some 7 : Option (Fin 8)).map Fin.val) (histUnit (some 7) 7))) (putBits 0 0 0 1) = true) :=
  ⟨by decide +kernel, by decide +kernel⟩

/-- States and operands that meet the hypotheses of ReferenceAndLoopEventsHaveTheirEffect. -/
theorem witness_ReferenceAndLoopEventsHaveTheirEffect :
    (clkRuns held = false ∧ clkRuns clocked = true ∧ refEnabled State.reset 0 = false ∧ refEnabled (slotOn 0 2 5 false) 0 = true ∧ arrivalValid (slotOn 0 2 5 false) 0 .edge = none ∧ clkRuns (slotOn 0 2 5 false) = true) ∧
    (clkRuns (slotOn 0 1 0 true) = true ∧ refEnabled (slotOn 0 1 0 true) 0 = true ∧ arrivalValid (slotOn 0 1 0 true) 0 (.pps 0 0) = some false ∧ arrivalValid (slotOn 0 1 0 true) 0 (.pps (10 ^ 12) 0) = some true) ∧
    (clkRuns (slotOn 7 0 0 true) = true ∧ refEnabled (slotOn 7 0 0 true) 7 = true ∧ refActive (slotOn 7 0 0 true) 7 = true ∧ (clkRuns (slotOn 7 0 0 false) && (refEnabled (slotOn 7 0 0 false) 7 && refActive (slotOn 7 0 0 false) 7)) = false) ∧
    (let s := setSlotRec ((slotOn 0 0 0 true).wr (refStatus 0) 0x2A) 0 { qualMs := 300000 }; clkRuns s = true ∧ s.fld (refStatus 0) 1 0 = 2 ∧ s.flag (refStatus 0) 5 = true ∧ qualTime s ≤ (slotRec s 0).qualMs ∧ State.reset.fld (refStatus 7) 1 0 ≠ 2) ∧
    (let s : State := { dpllIn 0 0 1 with clk := { dplls := [(0, { lockMs := 4000 })] } }; clkRuns s = true ∧ dpllSt s 0 = 1 ∧ dpllMode s 0 ≠ 4 ∧ s.fld (clkB + 0x204) 23 16 * 1000 ≤ (loopRec s 0).lockMs ∧ dpllSt State.reset 3 ≠ 1) ∧
    (clkRuns (dpllIn 0 1 3) = true ∧ dpllSt (dpllIn 0 1 3) 0 = 3 ∧ dpllMode (dpllIn 0 1 3) 0 ≠ 4 ∧ AMap.wf (dpllIn 0 1 3).clk.dplls = true ∧ canon (dpllIn 0 1 3) = true ∧ dpllSt State.reset 3 ≠ 3) ∧
    (let s : State := { dpllIn 3 1 3 with clk := { dplls := [(3, { d := 2500 })] } }; clkRuns s = true ∧ dpllSt s 3 = 3 ∧ dpllMode s 3 ≠ 4 ∧ AMap.wf s.clk.dplls = true ∧ 0 ≤ (loopRec s 3).d ∧ (loopRec { s with clk := { dplls := [(3, { d := -1 })] } } 3).d < 0) :=
  ⟨by decide +kernel, by decide +kernel, by decide +kernel, by decide +kernel, by decide +kernel, by decide +kernel, by decide +kernel⟩

/-- States and operands that meet the hypotheses of BypassEventsHaveTheirEffect. -/
theorem witness_BypassEventsHaveTheirEffect :
    (State.reset.flag (clkB + 0x040) 0 = false ∧ clkRuns clocked = true ∧ clocked.flag (clkB + 0x040) 0 = true ∧ inBypass clocked = false ∧ 8 ≤ ({ clocked with clk := { pdBad := 8 } } : State).clk.pdBad) ∧
    (let s : State := { State.reset.setFlag (clkB + 0x040) 0 true with clk := { pdBad := 8 } }; clkRuns s = true ∧ s.flag (clkB + 0x040) 0 = true ∧ 8 ≤ s.clk.pdBad ∧ inBypass s = true) ∧
    (clkRuns State.reset = true ∧ apllLocks (State.reset.rd (clkB + 0x050)) 25000000 = true ∧ State.reset.clk.oscLost = false ∧ clocked.flag (clkB + 0x040) 0 = true) ∧
    (let s : State := { State.reset.setFlag (clkB + 0x040) 0 true with clk := { unlockClr := true }, elapsed := tuPerSec }; clkRuns s = true ∧ inBypass s = true ∧ s.flag (clkB + 0x040) 0 = true ∧ s.clk.lockedAt + s.fld (clkB + 0x05C) 31 16 * 1000000 * tuPerNs ≤ s.elapsed ∧ s.clk.unlockClr = true ∧ inBypass clocked = false) ∧
    (clkRuns State.reset = true ∧ inBypass State.reset = true ∧ State.reset.fld (clkB + 0x05C) 2 0 = 0 ∧ clkRuns held = false) ∧
    (let s := setClkOut (clocked.setFlag (clkOutA 7 + 0x10) 1 true) 7 { pos := 5, tgt := 5 }; clkRuns s = true ∧ s.flag (clkOutA 7 + 0x10) 1 = true ∧ (clkOut s 7).pos = (clkOut s 7).tgt ∧ inBypass s = false ∧ (clkOut (setClkOut s 7 { pos := 4, tgt := 5 }) 7).pos ≠ 5) :=
  ⟨by decide +kernel, by decide +kernel, by decide +kernel, by decide +kernel, by decide +kernel, by decide +kernel⟩

/-- States and operands that meet the hypotheses of SundialEventsHaveTheirEffect. -/
theorem witness_SundialEventsHaveTheirEffect_1 :
    (State.reset.sun.stopped = false ∧ ({ State.reset with sun := { stopped := true } } : State).sun.stopped = true) ∧
    (let s : State := { State.reset with sun := { d0 := { rem := .step, resid := 5, carried := true }, d1 := { rem := .step, carried := true }, hand := { rem := .step, carried := true } } }; stepDue s 0 = true ∧ (0 : Fin 3).val = activeDom s ∧ stepDue s 1 = true ∧ (1 : Fin 3).val ≠ 2 ∧ (1 : Fin 3).val ≠ activeDom s ∧ stepDue s 2 = true ∧ stepDue State.reset 2 = false) ∧
    ((ctrOf { State.reset with sun := { hand := { rem := .slew } } } 2).rem = .slew ∧ (ctrOf { State.reset with sun := { hand := { rem := .slew } } } 2).resid = 0) ∧
    (State.reset.sun.better = none ∧ State.reset.sun.leapAt = none ∧ State.reset.sun.setDom = none) ∧
    (let s : State := { (later State.reset).setFlag (sunB + 0x05C) 4 true with sun := { better := some 0 } }; s.sun.better = some 0 ∧ s.flag (sunB + 0x05C) 4 = true ∧ s.fld (sunB + 0x05C) 15 8 * tuPerSec ≤ s.elapsed - 0) ∧
    (let s : State := { State.reset with sun := { leapAt := some 1, d0 := { t := tuPerSec } } }; s.sun.leapAt = some 1 ∧ 1 ≤ nodeTime s / tuPerSec) ∧
    (let s : State := { State.reset.setFlag (cmpCfg 0) 0 true with sun := { cmp := [(0, 7)], d0 := { t := 7 } } }; cmpArmed s 0 = true ∧ cmpTarget s 0 ≤ nodeTime s ∧ s.flag (cmpCfg 0) 1 = false ∧ ¬(cmpArmed s 15 = true ∧ cmpTarget s 15 ≤ nodeTime s)) ∧
    (cmpArmed (State.reset.wr (cmpCfg 15) 3) 15 = true ∧ cmpTarget (State.reset.wr (cmpCfg 15) 3) 15 ≤ nodeTime State.reset ∧ (State.reset.wr (cmpCfg 15) 3).flag (cmpCfg 15) 1 = true) :=
  ⟨by decide +kernel, by decide +kernel, by decide +kernel, by decide +kernel, by decide +kernel, by decide +kernel, by decide +kernel, by decide +kernel⟩

/-- States and operands that meet the hypotheses of SundialEventsHaveTheirEffect. -/
theorem witness_SundialEventsHaveTheirEffect_2 :
    let s : State := { State.reset with sun := { setDom := some 1 } }; s.sun.setDom = some 1 ∧ (ctrOf s 1).rem = .none := by decide +kernel

/-- States and operands that meet the hypotheses of TimeTransferEventsHaveTheirEffect. -/
theorem witness_TimeTransferEventsHaveTheirEffect :
    (let s := (portOn 127 1 7).wr (dpllCfg 1) 0; trunkRuns s 127 = true ∧ domRuns s 1 = true ∧ wordDue s 127 1 0 = true ∧ wordDue s 127 1 (100000 * tuPerNs) = false ∧ domRuns (portOn 127 1 7) 0 = true ∧ wordDue (portOn 127 1 7) 127 0 0 = true) ∧
    (trunkRuns State.reset 3 = false ∧ bits (dwAt ((List.range 8).map (dwAt [])) 0) 31 28 ≠ 1) ∧
    (let w := (List.range 8).map (dwAt [0x10000000]); trunkRuns (portOn 3 1 7) 3 = true ∧ bits (dwAt w 0) 31 28 = 1 ∧ bits (dwAt w 6) 15 0 ≠ twCheck w) ∧
    (let s := portOn 3 1 7; let w := (List.range 8).map (dwAt (timeWordOf0 1)); trunkRuns s 3 = true ∧ bits (dwAt w 0) 31 28 = 1 ∧ bits (dwAt w 6) 15 0 = twCheck w ∧ bits (dwAt w 0) 27 24 = s.fld (trkState 3) 6 4 ∧ bits (dwAt w 0) 23 16 < 31 ∧ (dwAt w 2).toNat ≤ 999999999 ∧ exchangeDelay (trkTime s 3 1) w 0 0 = none ∧ (trkTime s 3 1).delays = []) ∧
    (let s := setLaneNow (wordSent (portOn 3 1 7)) 3 ⟨0, 0, 0, 0⟩; let w := (List.range 8).map (dwAt (timeWordOf0 0)); let x := trkTime s 3 0; let t2 (sub : Nat) := shiftTime ((ctrOf s 0).t + sub) (-((laneRxd s 3 : Int)) - portRxAdj s 3); let ds (sub : Nat) := ((exchangeDelay x w (t2 sub) (s.elapsed + sub)).map fun d => (d :: x.delays).take (2 ^ s.fld (sunB + 0x0F0) 3 0)).getD x.delays; ds 0 ≠ [] ∧ meanOf (ds 0) ≤ ((200000 * tuPerNs : Nat) : Int) ∧ ds (500000 * tuPerNs) ≠ [] ∧ ((200000 * tuPerNs : Nat) : Int) < meanOf (ds (500000 * tuPerNs))) ∧
    (let s := (portOn 9 0 0).wr (sunB + 0x1000 + 0x90) 0x10; s.fld (sunB + 0x1000 + 0x90) 5 4 = 1 ∧ (s.wr (sunB + 0x1000 + 0x90) 0x20).fld (sunB + 0x1000 + 0x90) 5 4 = 2 ∧ portIs s 9 0 = true ∧ State.reset.fld (sunB + 0x1000 + 0x90) 5 4 ≠ 1 ∧ (3 : Fin 7).val = 3 ∧ (6 : Fin 7).val ≠ 3) ∧
    (([0, 1, 2, 3].find? fun n => refEnabled State.reset n && slotType State.reset n == 1 && refRank State.reset 0 n == 1) = none) ∧
    (let s : State := wrs (portOn 9 2 7) [(refCfg 0, 0x00010101)]; ([0, 1, 2, 3].find? fun n => refEnabled s n && slotType s n == 1 && refRank s 0 n == 1) = some 0 ∧ portIs s 9 2 = true ∧ trkSt s 9 = 7 ∧ nodeTime s / tuPerSec = (0 : BitVec 48).toNat ∧ nodeTime s / tuPerSec ≠ (1 : BitVec 48).toNat ∧ s.sun.setDom = none ∧ ({ s with sun := { setDom := some 0 } } : State).sun.setDom.isSome = true) :=
  ⟨by decide +kernel, by decide +kernel, by decide +kernel, by decide +kernel, by decide +kernel, by decide +kernel, by decide +kernel, by decide +kernel⟩

/-- States and operands that meet the hypotheses of TdcEventsHaveTheirEffect. -/
theorem witness_TdcEventsHaveTheirEffect_1 :
    (armedThen State.reset 0 0 = false ∧ (tdcCh (setTdcCh State.reset 0 { retired := true }) 0).retired = true ∧ State.reset.fld (tdcCfg 0) 1 0 = 0 ∧ (State.reset.wr (tdcCfg 0) 1).fld (tdcCfg 0) 1 0 = 1) ∧
    (let s := State.reset.setFlag (tdcB + 0x040) 15 true; let at_ := s.elapsed - s.sun.bypInc; inBypass s = true ∧ armedThen s 15 at_ = true ∧ (tdcCh s 15).retired = false ∧ s.fld (tdcCfg 15) 1 0 = 0 ∧ s.tdc.hold.contains 15 = false ∧ (tdcCh s 15).lastEdge = none) ∧
    (let s : State := { State.reset.setFlag (tdcB + 0x040) 15 true with tdc := { hold := [15] } }; armedThen s 15 (s.elapsed - s.sun.bypInc) = true ∧ (tdcCh s 15).retired = false ∧ s.tdc.hold.contains (15 : Fin 16).val = true) ∧
    (let s := setTdcCh (State.reset.setFlag (tdcB + 0x040) 15 true) 15 { lastEdge := some 0 }; armedThen s 15 (s.elapsed - s.sun.bypInc) = true ∧ (tdcCh s 15).lastEdge = some 0 ∧ s.elapsed - s.sun.bypInc < 0 + 50 * tuPerNs) ∧
    (let s := wrs clocked [(tdcB + 0x040, 1), (tdcCfg 0 + 0x18, 509696), (tdcCfg 0 + 0x1C, 1029376)]; inBypass s = false ∧ armedThen s 0 0 = true ∧ (takePair s 0 0 0).2 = false ∧ (takePair s 0 1000 3048).2 = true ∧ ¬(256 * 3006 + 32 * 256 < s.fld (tdcCfg 0 + 0x18) 19 0 ∨ s.fld (tdcCfg 0 + 0x1C) 19 0 + 32 * 256 < 256 * 3006) ∧ s.fld (tdcCfg 0 + 0x1C) 19 0 + 32 * 256 < 256 * 4095) ∧
    ((tdcDiff State.reset 7).openA = none) ∧
    (let s : State := later (setTdcDiff (State.reset.wr (diffCfg 7) 1) 7 { openA := some 0 }); (tdcDiff s 7).openA = some 0 ∧ s.flag (diffCfg 7) 0 = true) ∧
    (let s : State := { setTdcDiff (State.reset.wr (diffCfg 7) 1) 7 { openA := some 0 } with sun := { d0 := { t := 100000 * tuPerNs } } }; (2 ^ s.fld (diffCfg 7) 28 24 * 65536 : Nat) < csDiff (csBody (timeOf s (tdcDom s (s.fld (diffCfg 7) 7 4)))) 0) :=
  ⟨by decide +kernel, by decide +kernel, by decide +kernel, by decide +kernel, by decide +kernel, by decide +kernel, by decide +kernel, by decide +kernel⟩

/-- States and operands that meet the hypotheses of TdcEventsHaveTheirEffect. -/
theorem witness_TdcEventsHaveTheirEffect_2 :
    (let s := later (clocked.setFlag (tdcB + 0x040) 3 true); tdcArmed s 3 = true ∧ inBypass s = false ∧ (tdcCh s 3).retired = false ∧ (tdcCh s 3).quietAt + 1000000 * tuPerNs ≤ s.elapsed ∧ tdcArmed s 4 = false) ∧
    (let s := State.reset.wr (tdcCfg 5) 0x38; tdcArm s 5 = 2 ∧ s.fld (tdcCfg 5) 7 4 = (3 : Fin 4).val ∧ (tdcCh s 5).retired = false ∧ s.tdc.gates.contains (3 : Fin 4).val = false) ∧
    (masterActs State.reset .host = true) :=
  ⟨by decide +kernel, by decide +kernel, by decide +kernel⟩

/-- States and operands that meet the hypotheses of CalibrationEventsHaveTheirEffect. -/
theorem witness_CalibrationEventsHaveTheirEffect_1 :
    (calDue clocked 0 0 = true ∧ calMay clocked 0 0 = true ∧ (calItem clocked 0 0).retryAt ≤ clocked.elapsed ∧ (calItem clocked 0 0).run = false ∧ calMay State.reset 0 0 = false) ∧
    (let s := setCalItem ((portOn 3 1 7).wr (lanB 3 + 0x040) 0x0F) 1 3 { wait := true }; (calItem s 1 3).wait = true ∧ calMay s 1 3 = true ∧ (calItem s 1 3).retryAt ≤ s.elapsed ∧ (calItem State.reset 1 3).wait = false) ∧
    ((calItem State.reset 2 127).run = false) ∧
    (let s := setCalItem clocked 0 3 { run := true }; (calItem s 0 3).run = true ∧ (0 : Fin 3).val ≠ 2 ∧ calTol s 0 * 65536 < ((1000000 : Int) - 0).natAbs * 1000 ∧ ((0 : Int) - 0).natAbs * 1000 ≤ calTol s 0 * 65536) ∧
    (let s := setCalItem clocked 1 127 { run := true }; (calItem s 1 127).run = true ∧ (1 : Fin 3).val ≠ 2 ∧ calTol s 1 * 65536 < (max ((1000000 : Int) - 0).natAbs 0) * 1000) ∧
    (let s := setCalItem (clocked.wr (tdcB + 0x3000 + 0x10 * 3) 3) 2 3 { run := true }; (calItem s 2 3).run = true ∧ s.elapsed < (calItem s 2 3).startAt + 2 * tuPerSec ∧ s.flag (tdcB + 0x3000 + 0x10 * 3) 1 = true ∧ (calItem s 2 3).noRange = false ∧ (calItem s 2 3).ranged = none) ∧
    (let s := later (setCalItem (measured 3) 2 3 { run := true }); (calItem s 2 3).run = true ∧ (calItem s 2 3).startAt + 2 * tuPerSec ≤ s.elapsed ∧ s.flag (tdcB + 0x3000 + 0x10 * 3) 1 = false ∧ asymMeans s 3 = some ((0, 1), (0, 1)) ∧ 0 ≤ calTol s 2 * (1 * 1 * 2 ^ 40)) ∧
    (let s := later (setCalItem (measured 3) 2 3 { run := true, sum1 := 2 ^ 40, num1 := 1 }); asymMeans s 3 = some ((2 ^ 40, 1), (0, 1)) ∧ calTol s 2 * (1 * 1 * 2 ^ 40) < ((2 ^ 40 : Int) * 1 - 0 * 1).natAbs * 1000) :=
  ⟨by decide +kernel, by decide +kernel, by decide +kernel, by decide +kernel, by decide +kernel, by decide +kernel, by decide +kernel, by decide +kernel⟩

/-- States and operands that meet the hypotheses of CalibrationEventsHaveTheirEffect. -/
theorem witness_CalibrationEventsHaveTheirEffect_2 :
    (let s := later (setCalItem ((measured 3).setFlag (tdcB + 0x3000 + 0x10 * 3) 1 true) 2 3 { run := true, ranged := some 0 }); (calItem s 2 3).run = true ∧ (s.flag (tdcB + 0x3000 + 0x10 * 3) 1 && !(calItem s 2 3).noRange) = true ∧ (calItem s 2 3).ranged = some 0 ∧ asymMeans s 3 = some ((0, 1), (0, 1)) ∧ ((0 : Int) * (2 * 1 * 1 * 2 ^ 40 : Nat) - 0 * 1000).natAbs ≤ calTol s 2 * (2 * 1 * 1 * 2 ^ 40) ∧ calTol s 2 * (2 * 1 * 1 * 2 ^ 40) < ((100000 : Int) * (2 * 1 * 1 * 2 ^ 40 : Nat) - 0 * 1000).natAbs) ∧
    (let s := setTdcCh clocked 15 { wSteps := 2, wDue := 1, gSteps := 3, gDue := 1 }; (tdcCh State.reset 15).wSteps = 0 ∧ (tdcCh State.reset 15).gSteps = 0 ∧ (tdcCh s 15).wSteps ≠ 0 ∧ (tdcCh s 15).wDue ≠ 0 ∧ (tdcCh s 15).gSteps ≠ 0 ∧ (tdcCh s 15).gDue ≠ 0 ∧ calLive s = true) ∧
    (let s := setTdcCh clocked 14 { ofs := 7 }; (14 : Fin 128).val < 16 ∧ sbits (s.rd (tdcCfg 14 + 0x20)) 31 0 ≠ (tdcCh s 14).ofs ∧ stepFree s 0 14 unitTime = true ∧ sbits (s.rd (tdcCfg 15 + 0x20)) 31 0 = (tdcCh s 15).ofs ∧ 16 ≤ (127 : Fin 128).val) ∧
    (let s := setLaneNow clocked 3 ⟨0, 0, 5, 5⟩; (laneNow s 3).moving = true ∧ stepFree s 1 3 unitTime = true ∧ (laneNow (setLaneNow clocked 4 ⟨5, 5, 5, 5⟩) 4).moving = false) ∧
    (let s := (portOn 3 1 7).wr (tdcB + 0x3000 + 0x10 * 3) 1; let s1 := s.wr (tdcB + 0x300C + 0x10 * 3) 1; let s2 := s.wr (tdcB + 0x300C + 0x10 * 3) 2; asymMoves s 3 = false ∧ asymMoves s1 3 = true ∧ stepFree s1 2 3 tuPerSec = true ∧ stepTo (asymNow s1 3) (asymTgt s1 3) 1 = asymTgt s1 3 ∧ asymMoves s2 3 = true ∧ stepTo (asymNow s2 3) (asymTgt s2 3) 1 ≠ asymTgt s2 3) ∧
    (let s := later (setCalItem (clocked.wr (tdcB + 0x3000 + 0x10 * 3) 3) 2 3 { run := true }); (calItem s 2 3).run = true ∧ s.flag (tdcB + 0x3000 + 0x10 * 3) 1 = true ∧ (calItem s 2 3).ranged.isNone = true ∧ (calItem s 2 3).noRange = false ∧ (calItem s 2 3).startAt + 10 * tuPerSec ≤ s.elapsed) :=
  ⟨by decide +kernel, by decide +kernel, by decide +kernel, by decide +kernel, by decide +kernel, by decide +kernel⟩

/-- States and operands that meet the hypotheses of GnssSignalEventsHaveTheirEffect. -/
theorem witness_GnssSignalEventsHaveTheirEffect_1 :
    (gnsRuns State.reset = false ∧ gnsRuns (clocked.setFlag (feCfg 0) 8 true) = true ∧ (clocked.setFlag (feCfg 0) 8 true).flag (feCfg 0) 8 = true ∧ (AMap.getD clocked.gns.notches 0 {}).next ≤ clocked.elapsed ∧ (clocked.setFlag (feCfg 0) 8 true).fld (ntCfg 0 1) 1 0 ≠ 1) ∧
    (let s := wrs (clocked.setFlag (feCfg 1) 8 true) [(ntCfg 1 3, 0x0A01), (ntCfg 1 3 + 0x0C, 2)]; gnsRuns s = true ∧ s.flag (feCfg 1) 8 = true ∧ (AMap.getD s.gns.notches 7 {}).next ≤ s.elapsed ∧ s.fld (ntCfg 1 3) 1 0 = 1 ∧ s.fld (ntCfg 1 3 + 0x0C) 1 0 = 2) ∧
    (let s := wrs (clocked.setFlag (feCfg 1) 8 true) [(ntCfg 1 3, 0x0A01)]; s.fld (ntCfg 1 3) 1 0 = 1 ∧ s.fld (ntCfg 1 3 + 0x0C) 1 0 ≠ 2 ∧ bestLine s 1 3 [] 0 = none ∧ bestLine s 1 3 [⟨1000, 11⟩] 0 = some ⟨1000, 11⟩ ∧ bestLine s 1 3 [⟨1000, 10⟩] 0 = none) ∧
    (let s : State := { wrs clocked [(ntCfg 1 3, 0x0A01), (ntCfg 1 3 + 0x0C, 2)] with gns := { notches := [(7, { lowMs := 100 })] } }; s.fld (ntCfg 1 3) 1 0 = 1 ∧ s.fld (ntCfg 1 3 + 0x0C) 1 0 = 2 ∧ 100 ≤ (AMap.getD s.gns.notches 7 {}).lowMs ∧ clocked.fld (ntCfg 0 0) 1 0 ≠ 1) ∧
    (let s : State := { clocked with gns := { acqs := [.host], acq := { req := 0x4000, got := 100000 } } }; gnsRuns s = true ∧ s.gns.acqs.head? = some .host ∧ acqWant s ≤ s.gns.acq.got ∧ 0 < acqWant s ∧ 2045 < 2 * sigChips (bits s.gns.acq.req 3 1) ∧ 0 < acqBins s ∧ State.reset.gns.acqs.head? ≠ some .host) ∧
    (let s : State := { clocked with gns := { acqs := [.host], acq := { req := 0x20004000 } } }; bits s.gns.acq.req 31 29 ≠ 0 ∧ 0 < acqWant s) ∧
    (let s := setGnsCh (wrs clocked [(chanCfg 63, 0x11), (chanCfg 63 + 0x14, 1)]) 63 { ended := some 5 }; (gnsCh s 63).ended = some 5 ∧ (gnsRuns s && s.flag (chanCfg 63) 0 && chanState s 63 == 1) = true ∧ s.flag (chanCfg 63) 23 = false ∧ (gnsCh State.reset 0).ended = none) ∧
    (let s := setGnsCh (wrs clocked [(chanCfg 0, 0x800011), (chanCfg 0 + 0x14, 1)]) 0 { ended := some 0 }; (gnsCh s 0).ended = some 0 ∧ (gnsRuns s && s.flag (chanCfg 0) 0 && chanState s 0 == 1) = true ∧ s.flag (chanCfg 0) 23 = true) :=
  ⟨by decide +kernel, by decide +kernel, by decide +kernel, by decide +kernel, by decide +kernel, by decide +kernel, by decide +kernel, by decide +kernel⟩

/-- States and operands that meet the hypotheses of GnssSignalEventsHaveTheirEffect. -/
theorem witness_GnssSignalEventsHaveTheirEffect_2 :
    State.reset.flag (gnsB + 0x040) 6 = false ∧ (State.reset.setFlag (gnsB + 0x040) 6 true).flag (gnsB + 0x040) 6 = true := by decide +kernel

/-- States and operands that meet the hypotheses of GnssTimeEventsHaveTheirEffect. -/
theorem witness_GnssTimeEventsHaveTheirEffect :
    (gnsRuns State.reset = false ∧ gnsRuns clocked = true ∧ clocked.fld (gnsB + 0x200) 9 8 ≠ 1 ∧ (clocked.setFlag (gnsB + 0x048) 23 true).flag (gnsB + 0x048) 23 = true ∧ clocked.flag (gnsB + 0x048) 23 = false ∧ 50000000 * tuPerNs ≤ 50000000 * tuPerNs) ∧
    (let s := clocked.setFld (gnsB + 0x200) 9 8 1; gnsRuns s = true ∧ s.fld (gnsB + 0x200) 9 8 = 1 ∧ (satWord (s.rd (gnsB + 0x20C)) 1).toNat < s.fld (gnsB + 0x200) 31 16) ∧
    (let s := wrs clocked [(gnsB + 0x200, 0x00010100)]; gnsRuns s = true ∧ s.fld (gnsB + 0x200) 9 8 = 1 ∧ s.fld (gnsB + 0x200) 31 16 ≤ (satWord (s.rd (gnsB + 0x20C)) 1).toNat) ∧
    (pulseKept State.reset = false ∧ (refEnabled clocked 4 && arrivalValid clocked 4 (.pps 0 0) == some true) = false) ∧
    (let s : State := { slotOn 4 1 0 true with gns := { msgValid := true, valid := true } }; let s1 : State := { s with gns := { s.gns with emitted := true } }; gnsRuns s = true ∧ pulseKept s = true ∧ s.gns.emitted = false ∧ s.gns.vco ≤ s.gns.msgAt ∧ s.gns.msgAt < s.gns.vco + vcoPerTick ∧ (refEnabled s1 4 && arrivalValid s1 4 (.pps (10 ^ 12) 0) == some true) = true) ∧
    (let s : State := { wrs clocked [(gnsB + 0x048, 0x200), (dpllState 0, 0xC2)] with gns := { msgValid := true, loaded := false, emitted := true, msgSec := 1 }, sun := { d0 := { t := tuPerSec } } }; s.gns.msgValid = true ∧ s.gns.loaded = false ∧ pulseComes s = true ∧ s.gns.sec0 < s.gns.msgSec ∧ s.gns.msgSec ≤ s.sun.d0.t / tuPerSec ∧ followed s 0 = some 4 ∧ s.flag (gnsB + 0x048) 9 = true ∧ State.reset.gns.msgValid = false) ∧
    (let s := setSnapRec (clocked.wr (gnsB + 0x40C) 0x1111) 3 { in0 := { got := [(1, 1)] } }; snapState s 3 = 1 ∧ gnsRuns s = true ∧ (snapRec s 3).in0.got ≠ [] ∧ (snapRec s 0).in0.got = [] ∧ (snapRec s 0).in1.got = []) ∧
    (let s := setSnapRec (clocked.wr (gnsB + 0x40C) 0x2222) 1 { cfg := 0x000A0001 }; snapState s 0 = 2 ∧ snapWant s (snapRec s 0) 0 ≤ (snapRec s 0).in0.got.length ∧ snapWant s (snapRec s 0) 1 ≤ (snapRec s 0).in1.got.length ∧ snapState clocked 1 ≠ 2 ∧ ¬(snapWant s (snapRec s 1) 0 ≤ (snapRec s 1).in0.got.length)) :=
  ⟨by decide +kernel, by decide +kernel, by decide +kernel, by decide +kernel, by decide +kernel, by decide +kernel, by decide +kernel, by decide +kernel⟩

/-- States and operands that meet the hypotheses of GrottoEventsHaveTheirEffect. -/
theorem witness_GrottoEventsHaveTheirEffect :
    (grtState clocked 0 ≠ 1 ∧ grtState (clocked.wr (grtCfg 7 + 0x14) 1) 7 = 1 ∧ (freeChan (clocked.wr (grtCfg 7 + 0x14) 1)).isSome = true ∧ (clocked.wr (grtCfg 7 + 0x14) 1).fld (grtCfg 7) 1 0 ≠ 2) ∧
    (let s := wrs clocked [(grtCfg 7, 2), (grtCfg 7 + 0x14, 1)]; grtState s 7 = 1 ∧ (freeChan s).isSome = true ∧ s.fld (grtCfg 7) 1 0 = 2 ∧ (freeMarker s).isSome = true) ∧
    (let s := forEach [1, 2, 3, 4] (wrs clocked [(grtCfg 7, 2), (grtCfg 7 + 0x14, 1)]) fun j t => setJobRec (t.wr (grtCfg j + 0x14) 2) j { marker := some (7 + j) }; grtState s 7 = 1 ∧ (freeChan s).isSome = true ∧ s.fld (grtCfg 7) 1 0 = 2 ∧ freeMarker s = none) ∧
    (let s := later (clocked.wr (grtCfg 7 + 0x14) 1); grtState s 7 = 1 ∧ (jobRec s 7).goAt + 10 * tuPerSec ≤ s.elapsed) ∧
    (let s := wrs clocked [(grtCfg 7, 2), (grtCfg 7 + 0x14, 2)]; let s1 := setJobRec s 7 { came := some 1, left := [4] }; s.fld (grtCfg 7) 1 0 = 2 ∧ grtState s 7 = 2 ∧ grtPort s 7 = (0 : Fin 128).val ∧ gnsRuns s = true ∧ (jobRec s 7).came = none ∧ (jobRec s1 7).came = some 1 ∧ grtState s1 7 = 2 ∧ ([0].flatMap fun f => (jobRec s1 7).left.map fun n => (timeDiff 1 f + timeDiff 2 n) / 2 : List Int) ≠ [] ∧ ([].flatMap fun f => (jobRec s1 7).left.map fun n => (timeDiff 1 f + timeDiff 2 n) / 2 : List Int) = []) ∧
    (let s := later (wrs clocked [(grtCfg 7, 2), (grtCfg 7 + 0x14, 2)]); s.fld (grtCfg 7) 1 0 = 2 ∧ grtState s 7 = 2 ∧ (jobRec s 7).heard = false ∧ (jobRec s 7).came = none ∧ (jobRec s 7).goAt + 10 * tuPerSec ≤ s.elapsed) ∧
    (let s : State := { clocked.wr (grtCfg 0 + 0x14) 2 with gns := { acqs := [.job 0] } }; grtState s 0 = 2 ∧ grtReady s 0 = true ∧ gnsRuns s = true ∧ (jobRec s 0).forPort = none ∧ grtState s 1 ≠ 2) ∧
    (let s := setJobRec (wrs clocked [(grtCfg 0, 2), (grtCfg 0 + 0x14, 2)]) 0 { exchanged := true, chips := 4095, forPort := some 127 }; grtState s 0 = 2 ∧ grtReady s 0 = true ∧ gnsRuns s = true ∧ (jobRec s 0).forPort = some 127 ∧ (calItem s 2 127).run = false ∧ (calItem (setCalItem s 2 127 { run := true }) 2 127).run = true) :=
  ⟨by decide +kernel, by decide +kernel, by decide +kernel, by decide +kernel, by decide +kernel, by decide +kernel, by decide +kernel, by decide +kernel⟩

/-- States and operands that meet the hypotheses of LineEventsHaveTheirEffect. -/
theorem witness_LineEventsHaveTheirEffect :
    ((State.reset.alive && portUp State.reset 0) = false ∧ ((queued 5).alive && portUp (queued 5) 5) = true ∧ rxRow (queued 5) 5 (frame64 0x88B5) false false = none ∧ rxRow (queued 5) 5 (frame64 0x8808) false false = some 0x134 ∧ rxRow (queued 5) 5 [] false false = some 0x124 ∧ rxRow (queued 5) 5 (List.replicate 64 0) false false = some 0x120) ∧
    (let s := wrs (portOn 127 0 0) [(lanB 127 + 0x040, 0x06)]; portIs s 127 0 = true ∧ s.fld (macB 127 + 0x040) 31 24 ≠ 0 ∧ mayStart s 127 = true ∧ allLanes s 127 1 = true ∧ allLanes s 127 2 = true ∧ faultFree s 127 = true ∧ s.flag (macB 127 + 0x044) 0 = false ∧ (s.setFlag (macB 127 + 0x044) 0 true).flag (macB 127 + 0x044) 0 = true ∧ portIs State.reset 0 0 = false) ∧
    (sendsLine State.reset 0 = false ∧ sendsLine ((portOn 3 1 7).wr (lanB 3 + 0x040) 0x0F) 3 = true) ∧
    (portOfLane State.reset 0 = none ∧ portOfLane (portOn 3 1 7) 3 = some 3 ∧ receivesLine (portOn 3 1 7) 3 3 = false ∧ receivesLine ((portOn 3 1 7).wr (lanB 3 + 0x040) 0x0F) 3 3 = true) ∧
    (let s := (portOn 3 1 7).wr (lanB 3 + 0x040) 0x0F; allLanes s 3 3 = true ∧ allLanes ((portOn 3 1 7).wr (lanB 3 + 0x040) 0x07) 3 3 = false) ∧
    (let s := later (((portOn 127 1 7).wr (lanB 127 + 0x068) 1).setFld (lanB 127 + 0x040) 15 8 5); s.flag (lanB 127 + 0x068) 0 = true ∧ eyeBits s 127 = 2 ^ s.fld (lanB 127 + 0x060) 31 24 ∧ (0 : BitVec 64).toNat ≤ eyeBits s 127 ∧ State.reset.flag (lanB 127 + 0x068) 0 = false) :=
  ⟨by decide +kernel, by decide +kernel, by decide +kernel, by decide +kernel, by decide +kernel, by decide +kernel⟩

/-- States and operands that meet the hypotheses of BringUpEventsHaveTheirEffect. -/
theorem witness_BringUpEventsHaveTheirEffect_1 :
    (portOfLane State.reset 127 = none ∧ portOfLane (wrs State.reset [(macB 3 + 0x040, 0x05010001)]) 3 = some 3 ∧ mayStart (wrs State.reset [(macB 3 + 0x040, 0x05010001)]) 3 = false) ∧
    (portOfLane (portOn 3 1 1) 3 = some 3 ∧ mayStart (portOn 3 1 1) 3 = true ∧ portIs (portOn 3 1 1) 3 1 = true ∧ trkSt (portOn 3 1 1) 3 = 1 ∧ allLanes ((portOn 3 1 1).orReg (lanB 3 + 0x040) 3) 3 1 = true) ∧
    (State.reset.flag (lanB 0 + 0x040) 1 = false ∧ (State.reset.wr (lanB 0 + 0x040) 0x0F).flag (lanB 0 + 0x040) 1 = true ∧ State.reset.flag (lanB 0 + 0x040) 2 = false) ∧
    ((clocked.wr (lanB 0 + 0x040) 0x0F).flag (lanB 0 + 0x040) 2 = true ∧ (clocked.wr (lanB 0 + 0x040) 0x0F).flag (clkB + 0x040) 0 = true ∧ (State.reset.wr (lanB 0 + 0x040) 0x0F).flag (clkB + 0x040) 0 = false) ∧
    (portIs (portOn 3 1 3) 3 1 = true ∧ 3 ≤ trkSt (portOn 3 1 3) 3 ∧ wbits 0x5A 7 0 = 0x5A ∧ trkSt (portOn 3 1 3) 3 ≤ 8 ∧ trkSt (portOn 3 1 3) 3 ≠ 4 ∧ wbits 0x5A 51 50 = 0 ∧ portIs State.reset 3 1 = false) ∧
    (let s := setPortRec (portOn 3 1 8) 3 { stepRate := 6, stepAt := if leadsPort (portOn 3 1 8) 3 then 4095 else 0 }; let s1 := setPortRec (portOn 3 1 3) 3 { stepRate := 6, stepAt := if leadsPort (portOn 3 1 3) 3 then 4095 else 0 }; portIs s 3 1 = true ∧ (portRec s 3).stepRate ≠ 0 ∧ trkSt s 3 = 8 ∧ rateStepDue s 3 = true ∧ trkSt s1 3 = 3 ∧ rateStepDue s1 3 = true ∧ portIs State.reset 3 1 = false) ∧
    (let s := portOn 3 1 4; configured s 3 = true ∧ mayStart s 3 = true ∧ portIs s 3 1 = true ∧ trkSt s 3 = 4 ∧ s.elapsed ≤ (portRec s 3).since + 100000 * tuPerNs ∧ ¬((later s).elapsed ≤ (portRec (later s) 3).since + 100000 * tuPerNs) ∧ (configured State.reset 3 && mayStart State.reset 3) = false) ∧
    (let s := (portOn 3 2 5).wr (lanB 3 + 0x040) 0x0F; portIs s 3 0 = false ∧ configured s 3 = true ∧ trkSt s 3 = 5 ∧ allLanes s 3 1 = true ∧ allLanes s 3 3 = true ∧ portIs s 3 2 = true ∧ trkSt State.reset 3 ≠ 5) :=
  ⟨by decide +kernel, by decide +kernel, by decide +kernel, by decide +kernel, by decide +kernel, by decide +kernel, by decide +kernel, by decide +kernel⟩

/-- States and operands that meet the hypotheses of BringUpEventsHaveTheirEffect. -/
theorem witness_BringUpEventsHaveTheirEffect_2 :
    (let s := (portOn 3 1 5).wr (lanB 3 + 0x040) 0x0F; portIs s 3 1 = true ∧ allLanes s 3 1 = true ∧ allLanes s 3 3 = true ∧ s.elapsed ≤ (portRec s 3).since + trainLimit s 3) ∧
    (let s := setPortRec (portOn 3 1 6) 3 { checked := 65536 }; portIs s 3 0 = false ∧ configured s 3 = true ∧ trkSt s 3 = 6 ∧ (if portRate s 3 = 1 then 16384 else 65536) ≤ (portRec s 3).checked ∧ trkSt State.reset 3 ≠ 6) ∧
    (let s := later (portOn 3 1 2); portIs s 3 1 = true ∧ 2 ≤ trkSt s 3 ∧ trkSt s 3 ≤ 6 ∧ (portRec s 3).since + tuPerSec ≤ s.elapsed) ∧
    (let s := later (portOn 3 1 6); portIs s 3 1 = true ∧ trkSt s 3 = 6 ∧ (portRec s 3).leftNeg + 200000000 * tuPerNs ≤ s.elapsed ∧ 2 ≤ s.fld (trkState 3) 23 16) ∧
    (let s := (portOn 3 1 8).wr (trkPeer 3 + 4) 5000; portIs s 3 1 = true ∧ 6 ≤ trkSt s 3 ∧ trkSt s 3 ≤ 8 ∧ 5000 ≤ (sbits (s.rd (trkPeer 3 + 4)) 31 0).natAbs ∧ (sbits (State.reset.rd (trkPeer 3 + 4)) 31 0).natAbs < 5000) ∧
    (bestUp State.reset = none ∧ refEnabled State.reset 7 = false ∧ bestUp (mayFollow [] |>.wr (refCfg 7) 0x03030101) = none ∧ refEnabled (mayFollow [] |>.wr (refCfg 7) 0x03030101) 7 = true ∧ upEligible (mayFollow [] |>.wr (refCfg 7) 0x03030101) 3 = false ∧ ¬(refEnabled State.reset 7 = true ∧ refSource State.reset 7 < 128 ∧ upEligible State.reset (refSource State.reset 7) = true)) ∧
    (let s := mayFollow [3]; bestUp s = some 3 ∧ ¬(refEnabled s 7 = true ∧ refSource s 7 < 128 ∧ upEligible s (refSource s 7) = true)) ∧
    (let s := (mayFollow [3]).wr (refCfg 7) 0x03030101; bestUp s = some 3 ∧ refEnabled s 7 = true ∧ refSource s 7 = 3 ∧ upEligible s 3 = true) :=
  ⟨by decide +kernel, by decide +kernel, by decide +kernel, by decide +kernel, by decide +kernel, by decide +kernel, by decide +kernel, by decide +kernel⟩

/-- States and operands that meet the hypotheses of BringUpEventsHaveTheirEffect. -/
theorem witness_BringUpEventsHaveTheirEffect_3 :
    (let s := (mayFollow [3, 9]).wr (refCfg 7) 0x09030101; bestUp s = some 3 ∧ refSource s 7 = 9 ∧ upEligible s 9 = true ∧ s.elapsed < AMap.getD (nowBetter s 9) 3 s.elapsed + 2 * tuPerSec) ∧
    (let s : State := forEach [3, 9] ({ (mayFollow [3, 9]).wr (refCfg 7) 0x09030101 with elapsed := 2 * tuPerSec, upBetter := [(3, 0)] } : State) fun p t => setTrkTime t p 0 { lastAt := some (2 * tuPerSec) }; bestUp s = some 3 ∧ refEnabled s 7 = true ∧ refSource s 7 = 9 ∧ upEligible s 9 = true ∧ 3 ≠ refSource s 7 ∧ AMap.getD (nowBetter s 9) 3 s.elapsed + 2 * tuPerSec ≤ s.elapsed) :=
  ⟨by decide +kernel, by decide +kernel⟩

/-- States and operands that meet the hypotheses of SwitchEventsHaveTheirEffect. -/
theorem witness_SwitchEventsHaveTheirEffect :
    (switchRuns held = false ∧ ([0, 1, 2].findSome? fun l => (nextFifo State.reset 0 l).map fun x => (l, x)) = none ∧ fifoOf State.reset (fifoKey 0 0 0) = []) ∧
    (let s := crossing 7; switchRuns s = true ∧ attachOk s 7 = true ∧ AMap.getD s.sw.across 7 0 < s.elapsed + baseInc s (activeDom s) ∧ ([0, 1, 2].findSome? fun l => (nextFifo s 7 l).map fun x => (l, x)) = some (1, 0, fifoKey 5 7 1) ∧ fifoOf s (fifoKey 5 7 1) ≠ []) ∧
    (fifoOf State.reset (fifoKey 136 8 2) = [] ∧ (crossing 7).elapsed < AMap.getD (crossing 7).sw.heads (fifoKey 5 7 1) 0 + 2000 * tuPerNs ∧ AMap.getD (crossing 7).sw.heads (fifoKey 5 7 1) 0 + 2000 * tuPerNs ≤ (later (crossing 7)).elapsed) ∧
    (clocked.pavIsolated 0 = false ∧ (clocked.setFlag (pavBase 7 + 0x70040) 31 true).pavIsolated 7 = true ∧ switchRuns (clocked.setFlag (pavBase 7 + 0x70040) 31 true) = true ∧ switchRuns clocked = true ∧ portUp clocked 5 = false ∧ (pickClass { wrs (portOn 5 0 0) [(macB 5 + 0x044, 1)] with sw := {} } 5).isNone = true) ∧
    (switchRuns (queued 5) = true ∧ portUp (queued 5) 5 = true ∧ (portSw (queued 5) 5).tx = none ∧ (pickClass (forEach (List.range 7) (queued 5) fun t y => dropGated y 5 t (queueOf y 5 t).length) 5).isSome = true) ∧
    (let s := State.reset.wr (queSlot 127 + 0x004) 0x100; s.flag (queSlot 127 + 0x004) 8 = true ∧ s.flag (queSlot 127 + 0x004) 0 = false ∧ (portSw s 127).tx.isNone = true) ∧
    (let s := moving; queMoving s 136 3 = true ∧ ((queueOf s 136 3).all fun c => c.tier == newTier s 136 3) = true) ∧
    (queMoving State.reset 0 0 = false ∧ moveDownDue ((later State.reset).setFlag (queAdm 0 0 + 0x0C) 30 true) 0 0 = true) :=
  ⟨by decide +kernel, by decide +kernel, by decide +kernel, by decide +kernel, by decide +kernel, by decide +kernel, by decide +kernel, by decide +kernel⟩

/-- States and operands that meet the hypotheses of TableEngineEventsHaveTheirEffect. -/
theorem witness_TableEngineEventsHaveTheirEffect_1 :
    (switchRuns State.reset = true ∧ switchRuns held = false ∧ nextLearner State.reset = none ∧ nextLearner { State.reset with tbl := { learnQ := [(7, [⟨1, 2, 3⟩])] } } = some 7 ∧ learnQ { State.reset with tbl := { learnQ := [(7, [⟨1, 2, 3⟩])] } } 7 = [⟨1, 2, 3⟩]) ∧
    (({ State.reset with tbl := { track := [⟨1, 2, 3, 0, 0, none⟩] } } : State).tbl.track.any (fun x => x.vid == (1 : BitVec 12).toNat && x.mac == (2 : BitVec 48).toNat && x.frozen.isNone && decide (x.ends ≤ 0)) = true) ∧
    (let s : State := { State.reset with tbl := { track := [⟨1, 2, 3, 0, 0, some 0⟩] } }; (s.tbl.track.any fun x => x.vid == 1 && x.mac == 2 && x.frozen == some 0 && decide (0 ≤ s.elapsed)) = true ∧ findKey s false (l2Key 1 2) = none) ∧
    (let s : State := { withEntry with tbl := { withEntry.tbl with track := [⟨1, 2, 3, 0, 0, some 0⟩] } }; (findKey s false (l2Key 1 2)).isSome = true) ∧
    (refQ State.reset 0 = [] ∧ refQ { State.reset with tbl := { refQ := [(7, [⟨0, []⟩])] } } 7 ≠ []) ∧
    (State.reset.tbl.dels = [] ∧ delReady State.reset ⟨⟨0, []⟩, 0, []⟩ = true ∧ held.alive = false) ∧
    ((later State.reset).alive = true ∧ (later State.reset).tbl.ageAt + (later State.reset).tbl.agePer * 10000000 * tuPerNs ≤ (later State.reset).elapsed ∧ State.reset.elapsed < ({ State.reset with tbl := { ageAt := 1 } } : State).tbl.ageAt + State.reset.tbl.agePer * 10000000 * tuPerNs) ∧
    (State.reset.tbl.downs.contains 0 = false ∧ ({ State.reset with tbl := { downs := [127] } } : State).tbl.downs.contains (127 : Fin 128).val = true ∧ State.reset.tbl.flushes = [] ∧ flushPlaces State.reset 255 0 = []) :=
  ⟨by decide +kernel, by decide +kernel, by decide +kernel, by decide +kernel, by decide +kernel, by decide +kernel, by decide +kernel, by decide +kernel⟩

/-- States and operands that meet the hypotheses of TableEngineEventsHaveTheirEffect. -/
theorem witness_TableEngineEventsHaveTheirEffect_2 :
    (({ State.reset with tbl := { flushes := [⟨255, 0, 0, 0, 0⟩] } } : State).tbl.flushes = [⟨255, 0, 0, 0, 0⟩]) ∧
    (AMap.get State.reset.tbl.lockAt 7 = none) ∧
    (let s : State := { wrs (later State.reset) [(tblB + 0x064, 0x80), (tblB + 0x06C, 100)] with tbl := { lockAt := [(7, 0)] } }; AMap.get s.tbl.lockAt 7 = some 0 ∧ bankLocked s 7 = true ∧ s.fld (tblB + 0x06C) 7 0 ≠ 0 ∧ 0 + s.fld (tblB + 0x06C) 7 0 * tuPerSec ≤ s.elapsed) :=
  ⟨by decide +kernel, by decide +kernel, by decide +kernel⟩

/-- States and operands that meet the hypotheses of TableDmaDescriptorsHaveTheirEffect. -/
theorem witness_TableDmaDescriptorsHaveTheirEffect_1 :
    (canTake (ringOf 255 3) 255 3 = true ∧ switchRuns (ringOf 255 3) = true ∧ canTake State.reset 255 3 = false ∧ tdCheck (tableDesc 0 0 0 0) = 0x01 ∧ tdCheck (tableDesc 1 0 1 0) = 0x05) ∧
    ([tableDesc 1 0 1 16, tableDesc 2 0 1 16, tableDesc 3 0 0 16, tableDesc 4 0 0 16, tableDesc 5 0 0 16, tableDesc 6 0 0 0].map tdCheck = [0, 0, 0, 0, 0, 0] ∧ [tableDesc 1 0 1 16, tableDesc 2 0 1 16, tableDesc 3 0 0 16, tableDesc 4 0 0 16, tableDesc 5 0 0 16, tableDesc 6 0 0 0].map tdOp = [1, 2, 3, 4, 5, 6]) ∧
    (tdCheck (tableDesc 1 0 0 0) = 0 ∧ tdCount (tableDesc 1 0 0 0) = 0 ∧ rangeCode (tableDesc 1 0 0x2000000 0) ≠ 0 ∧ tdCheck (tableDesc 1 0 0x2000000 0x40000000) = 0) ∧
    (rangeCode (tableDesc 1 0 1 16) = 0 ∧ lockCode (ringOf 255 3) (tableDesc 1 0 1 16) ≠ 0 ∧ lockCode ((ringOf 255 3).wr (tblB + 0x064) 0xFF) (tableDesc 1 0 1 16) = 0) ∧
    (checkWrite (ringOf 255 3) 0 0 [goodEntry] ≠ 0 ∧ checkWrite (ringOf 255 3) 0 0 [[0, 0, 0, 0]] = 0 ∧ checkWrite (ringOf 255 3) 2 0 [List.replicate 8 0] = 0) ∧
    (bit (dwAt goodEntry (vdw false)) 31 = true ∧ bit (dwAt [0, 0, 0, 0] (vdw false)) 31 = false ∧ checkEntry 0 goodEntry = 0 ∧ checkEntry 0 [0, 0x80000000, 0, 0] ≠ 0) ∧
    (findKey (ringOf 255 3) false (keyOf false goodEntry) = none ∧ (findKey withEntry false (keyOf false [w32 2, 0x00010000, 0, 0])).isSome = true) ∧
    ([snapDesc 0 0, snapDesc 0 16].map tdCheck = [0, 0] ∧ [snapDesc 0 0, snapDesc 0 16].map tdSnap = [true, true] ∧ [snapDesc 0 0, snapDesc 0 16].map tdLen = [0, 16]) :=
  ⟨by decide +kernel, by decide +kernel, by decide +kernel, by decide +kernel, by decide +kernel, by decide +kernel, by decide +kernel, by decide +kernel⟩

/-- States and operands that meet the hypotheses of TableDmaDescriptorsHaveTheirEffect. -/
theorem witness_TableDmaDescriptorsHaveTheirEffect_2 :
    snapState (ringOf 255 3) 1 = 0 ∧ snapState ((ringOf 255 3).wr (gnsB + 0x40C) 0x10) 1 = 1 ∧ 3 ≤ snapState ((ringOf 255 3).wr (gnsB + 0x40C) 0x30) 1 ∧ 2 ^ 25 < tdCount (snapDesc 0x2000000 16) + tdLen (snapDesc 0x2000000 16) ∧ tdCheck (snapDesc 0x2000000 16) = 0 := by decide +kernel

/-- States and operands that meet the hypotheses of CueEventsHaveTheirEffect. -/
theorem witness_CueEventsHaveTheirEffect :
    (canTake State.reset 0 4 = false ∧ canTake (ringOf 0 4) 0 4 = true ∧ (descImage (ringOf 0 4) [1, 0, 0, 0, 0, 0, 0, 0] []).2 ≠ 0 ∧ (descImage (ringOf 0 4) [0, 0, 64, 0, 0, 0, 0, 0] []).2 = 0 ∧ freeSlot (ringOf 0 4) = some 0) ∧
    (freeSlot (forEach (List.range 64) (ringOf 0 4) fun k t => setSlotState t k 2) = none) ∧
    (({ State.reset with cue := { waiting := [⟨255, 0, 0, [], 0, none⟩] } } : State).cue.waiting.find? (fun x => x.ring == (255 : Fin 256).val) = some ⟨255, 0, 0, [], 0, none⟩ ∧ State.reset.cue.waiting.find? (fun x => x.ring == (0 : Fin 256).val) = none) ∧
    (byOrder ((stagedCues State.reset).filter fun e => willCommit e && decide (e.2.t ≤ nodeTime State.reset)) = [] ∧ (byOrder ((stagedCues (staged 0 0)).filter fun e => willCommit e && decide (e.2.t ≤ nodeTime (staged 0 0)))).length = 1) ∧
    (commitCode (staged 0 0) { image := [0x00070000], t := 0 } = 0 ∧ commitCode (staged 0 0) { image := [0], t := 0 } ≠ 0) ∧
    (((stagedCues (staged 0 0)).filter fun e => willCommit e && decide (e.2.t ≤ nodeTime (staged 0 0) + 1000 * tuPerNs)).length = 1) ∧
    ((State.reset.cue.changes.filter fun x => x.port == 0 && decide (x.due ≤ nodeTime State.reset)) = [] ∧ (({ State.reset with cue := { changes := [⟨127, 0, []⟩] } } : State).cue.changes.filter fun x => x.port == (127 : Fin 128).val && decide (x.due ≤ 0)) = [⟨127, 0, []⟩]) :=
  ⟨by decide +kernel, by decide +kernel, by decide +kernel, by decide +kernel, by decide +kernel, by decide +kernel, by decide +kernel⟩

/-- States and operands that meet the hypotheses of FabricCueEventsHaveTheirEffect. -/
theorem witness_FabricCueEventsHaveTheirEffect :
    (trunkUp State.reset 0 = false ∧ trunkUp (portOn 127 1 7) 127 = true) ∧
    ([0x10000000, 0x20000000, 0x30000000, 0x40000000, 0x50000000, 0x60000000].map (fun (w : Word) => (⟨[w], []⟩ : CueMsg).mtype) = [1, 2, 3, 4, 5, 6]) ∧
    (upPort State.reset = none ∧ upPort ((portOn 3 1 7).wr (refCfg 7) 0x03030101) = some 3 ∧ isRoot ((portOn 3 1 7).wr (refCfg 7) 0x03030101) = false ∧ trunkUp ((portOn 3 1 7).wr (refCfg 7) 0x03030101) 3 = true ∧ ((portOn 3 1 7).wr (refCfg 7) 0x03030101).cue.presentAt ≤ 0) ∧
    ((State.reset.cue.cues.find? fun e => e.2.own && !e.2.armed && !e.2.aborted && !e.2.finished && decide (e.2.t ≤ nodeTime State.reset + e.2.lead)) = none) ∧
    (let s : State := { State.reset with cue := { cues := [(0, { image := [], t := 0, own := true })] } }; (s.cue.cues.find? fun e => e.2.own && !e.2.armed && !e.2.aborted && !e.2.finished && decide (e.2.t ≤ nodeTime s + e.2.lead)).isSome = true) ∧
    ((byOrder ((stagedCues (staged 1 0)).filter fun e => e.2.kind == 1 && !e.2.own && !e.2.armed && decide (e.2.t ≤ nodeTime (staged 1 0)))).length = 1 ∧ byOrder ((stagedCues State.reset).filter fun e => e.2.kind == 1) = []) ∧
    (let s : State := { State.reset with sun := { d0 := { t := 100 * tuPerSec } }, cue := { cues := [(0, { image := [], t := 0, own := true, finished := true })] } }; (s.cue.cues.find? fun e => e.2.own && e.2.finished && decide (e.2.t + s.fld (cueB + 0x050) 31 16 * 1000000 * tuPerNs ≤ nodeTime s)).isSome = true) :=
  ⟨by decide +kernel, by decide +kernel, by decide +kernel, by decide +kernel, by decide +kernel, by decide +kernel, by decide +kernel⟩

/-- States and operands that meet the hypotheses of BandstandEventsHaveTheirEffect. -/
theorem witness_BandstandEventsHaveTheirEffect_1 :
    (let s : State := { clocked with sun := { before := 5333333 * tuPerNs, d0 := { t := 5333334 * tuPerNs } } }; (cellsRun State.reset && boundaryDue State.reset 0 3) = false ∧ (cellsRun s && boundaryDue s 1 8) = true) ∧
    (jobOf State.reset 9 = none ∧ jobOf (computing [(9, meterJob)]) 9 = some meterJob ∧ meterJob.move = none) ∧
    (let s := computing [(9, { meterJob with proc := some 0 })]; cellsRun s = true ∧ (movesNow s).length < 8 ∧ movesNow s = [] ∧ moveTarget s { meterJob with proc := some 0 } = none) ∧
    (let s := (computing [(9, { meterJob with proc := some 0 })]).wr (bstB 0 + 0x004) 0; (moveTarget s { meterJob with proc := some 0 }).isSome = true) ∧
    (let s : State := { computing [(9, { meterJob with move := some { dst := 5 } })] with plc := { jobs := [(9, { meterJob with move := some { dst := 5 } })], cells := [(5, { ready := true })] } }; cellsRun s = true ∧ (cellOf s 5).ready = true) ∧
    (inboxOf State.reset 7 = [] ∧ inboxOf (delivered 0) 7 = [packet 0] ∧ streamsFor (delivered 0) (packet 0) 1 ≠ [] ∧ cellsRun (delivered 0) = true ∧ udpPayload (packet 0).bytes = none ∧ (udpPayload (packet 28).bytes).isSome = true ∧ streamsFor State.reset (packet 0) 1 = []) ∧
    (packetJobs (delivered 0) 7 (packet 0) 6 ≠ [] ∧ packetJobs (delivered 0) 7 (packet 0) 7 ≠ [] ∧ packetJobs State.reset 7 (packet 0) 6 = [] ∧ packetJobs State.reset 7 (packet 0) 7 = []) ∧
    (let s := later (computing [(9, { meterJob with kind := 6 })]); cellsRun s = true ∧ (meterJob.sentAt + meterJob.arg1 * 1000000 * tuPerNs ≤ s.elapsed) ∧ meterJob.started = true) :=
  ⟨by decide +kernel, by decide +kernel, by decide +kernel, by decide +kernel, by decide +kernel, by decide +kernel, by decide +kernel, by decide +kernel⟩

/-- States and operands that meet the hypotheses of BandstandEventsHaveTheirEffect. -/
theorem witness_BandstandEventsHaveTheirEffect_2 :
    (cellServes (computing []) 127 = true ∧ (cellOf (computing []) 127).ready = false ∧ (computing []).pstate = 0) ∧
    (let s := (computing [(9, meterJob)]).wr (bstB 0 + 0x004) 0; cellsRun s = true ∧ meterJob.homeless = false ∧ meterJob.move = none ∧ meterJob.stopping = false ∧ movesNow s = [] ∧ (moveTarget s meterJob).isSome = true ∧ meterJob.proc = none) :=
  ⟨by decide +kernel, by decide +kernel⟩

/-- States and operands that meet the hypotheses of ComputeDescriptorsHaveTheirEffect. -/
theorem witness_ComputeDescriptorsHaveTheirEffect_1 :
    (canTake State.reset 2 5 = false ∧ canTake (computing []) 2 5 = true ∧ cdCheck (computing []) (computeDesc 0 0 0 0 0) [] = 0x01 ∧ cdCheck (computing []) (computeDesc 2 9 0 0 0) [] = 0x06 ∧ cdCheck (computing []) (computeDesc 7 9 0 0 0) [] = 0x05) ∧
    (cdCheck (computing []) (computeDesc 1 0 68 0 0) meterRec = 0 ∧ jobCheck (computing []) meterRec [] (jobOfRec meterRec []) = 0 ∧ jobCheck (computing []) (meterRec.take 16) [] (jobOfRec (meterRec.take 16) []) ≠ 0) ∧
    ((bestCell (computing []) (jobOfRec meterRec []) allCells).isSome = true ∧ (computing []).plc.jobs.length < 8192) ∧
    (bestCell (forEach allCells (computing []) fun c t => t.wr (bstB c + 0x004) 0) (jobOfRec meterRec []) allCells = none) ∧
    (let s := computing [(9, meterJob)]; cdCheck s (computeDesc 2 9 0 0 0) [] = 0 ∧ jobOf s 9 = some meterJob ∧ tapsRead s 9 meterJob.outs = false ∧ tapsRead (computing [(9, meterJob), (10, { meterJob with ins := [5] })]) 9 [5] = true) ∧
    (let s := computing [(9, { meterJob with kind := 2, outs := [5] })]; cdCheck s (computeDesc 3 9 0 0x01000000 0) [] = 0 ∧ paramCheck { meterJob with kind := 2 } 1 0 = 0x06 ∧ paramCheck { meterJob with kind := 2 } 0 0x3F800000 = 0 ∧ cdCheck s (computeDesc 3 9 0 0 0x3F800000) [] = 0) ∧
    (let s := computing [(9, { meterJob with kind := 1, outs := [5] })]; cdCheck s (computeDesc 4 9 4 1 0) [] = 0 ∧ ([0x7F800000].all f32Finite) = false ∧ ([0x3F800000].all f32Finite) = true ∧ meterJob.kind ≠ 1 ∧ ¬((1 : Nat) = 0 ∨ 128 < 1 ∨ [5].length < 0 + 1 ∨ meterJob.arg0 ≤ 0) ∧ ¬(16 * f32One < (f32Val 0x3F800000).natAbs)) ∧
    (cdCheck (ringOf 2 5) (computeDesc 5 0 64 0 0) streamRec = 0 ∧ streamCheck (ringOf 2 5) streamRec (streamOfRec streamRec) = 0 ∧ streamCheck (ringOf 2 5) [] (streamOfRec []) ≠ 0) :=
  ⟨by decide +kernel, by decide +kernel, by decide +kernel, by decide +kernel, by decide +kernel, by decide +kernel, by decide +kernel, by decide +kernel⟩

/-- States and operands that meet the hypotheses of ComputeDescriptorsHaveTheirEffect. -/
theorem witness_ComputeDescriptorsHaveTheirEffect_2 :
    (cdCheck (computing []) (computeDesc 6 1 0 0 0) [] = 0 ∧ streamOf (computing []) 1 = some audioIn ∧ tapsRead (computing []) 0 [1] = false ∧ tapsRead (computing [(9, meterJob)]) 0 [1] = true) ∧
    (cdCheck (computing [(9, meterJob)]) (computeDesc 7 9 32 0 0) [] = 0 ∧ cdOp (computeDesc 7 9 32 0 0) = 7) :=
  ⟨by decide +kernel, by decide +kernel⟩

/-- States and operands that meet the hypotheses of RingEventsHaveTheirEffect. -/
theorem witness_RingEventsHaveTheirEffect_1 :
    (let s := State.reset.wr (hifB + 0x080) 1; ringActive s 0 = true ∧ ringEn s 0 = false ∧ ringDraining s 0 = false) ∧
    (held.alive = false ∧ State.reset.alive = true ∧ doorbellCode State.reset 0xF 0 0 ≠ 0 ∧ (0xFF004 : BitVec 20).toNat % 0x1000 ≠ 0) ∧
    (doorbellCode (cqOn.setFld (cqCfg 0) 7 4 6) 0xF 0 0xC0000000 = 0 ∧ bit 0xC0000000 31 = true ∧ bit 0xC0000000 30 = true ∧ doorbellCode (cqOn.setFld (cqCfg 0) 7 4 6) 0xF 0 0x80000000 = 0 ∧ bit 0x80000000 30 = false) ∧
    (doorbellCode (ringOf 255 6) 0xF 255 0 = 0 ∧ ringType (ringOf 255 6) 255 = 6 ∧ doorbellCode (ringOf 255 1) 0xF 255 1 = 0 ∧ ringType (ringOf 255 1) 255 ≠ 6) ∧
    (nextTx State.reset = none ∧ nextTx (ringOf 0 1) = some (0 : Fin 256).val ∧ switchRuns (ringOf 0 1) = true ∧ nextTx (ringOf 255 1) = some (255 : Fin 256).val ∧ [txDesc 0 0, txDesc 64 0x00000001, txDesc 64 0x40000001, txDesc 64 0x80000001, txDesc 64 0x44000001].map txCode = [5, 1, 0, 0, 0]) ∧
    (txCode [0, 0, 0x00400010, 0, 0, 0, 0, 0] = 0 ∧ bits (0 : Word) 31 30 = 0 ∧ bit 0x44000001 26 = true ∧ bits 0x40000001 31 30 = 1 ∧ 2 ≤ bits 0x80000001 31 30) ∧
    (hostPortDown State.reset = true ∧ nextDelivery (ringOf 0 2) = none) ∧
    (let s : State := { ringOf 0 2 with sw := { queues := [(8 * 128 + 7, [copyTo 128])] } }; hostPortDown s = false ∧ s.alive = true ∧ nextDelivery s = some 7 ∧ (7 : Nat) ≠ 8) :=
  ⟨by decide +kernel, by decide +kernel, by decide +kernel, by decide +kernel, by decide +kernel, by decide +kernel, by decide +kernel, by decide +kernel⟩

/-- States and operands that meet the hypotheses of RingEventsHaveTheirEffect. -/
theorem witness_RingEventsHaveTheirEffect_2 :
    ((ringRec State.reset 255).wait = [] ∧ (ringRec { ringOf 0 1 with hif := { rings := [(255, { wait := [{ status := 0, desc := 0, info := 0 }] })] } } 255).wait ≠ [] ∧ cqFull (ringOf 0 1) 0 = false ∧ hostPortDown (ringOf 0 1) = false) ∧
    (let s : State := { (cqOn.setFld (cqCfg 0) 8 4 6) with hif := { cqs := [(0, { unann := 65535 })] } }; cqDue (setArmed s 0 true) 0 = true ∧ (setArmed s 0 true).alive = true ∧ cqFull s 0 = false) ∧
    (canTake (ringOf 255 1) 255 (ringType (ringOf 255 1) 255) = true ∧ ringType (ringOf 255 1) 255 = 1 ∧ canTake (ringOf 255 2) 255 (ringType (ringOf 255 2) 255) = true ∧ ringType (ringOf 255 2) 255 = 2) ∧
    (let s : State := { ringOf 2 5 with sw := { samples := [⟨0, 5, 3, 64, 64, 0, []⟩] } }; hostPortDown s = false ∧ s.alive = true ∧ nextDelivery s = some 8) :=
  ⟨by decide +kernel, by decide +kernel, by decide +kernel, by decide +kernel⟩

/-- States and operands that meet the hypotheses of HostLinkEventsHaveTheirEffect. -/
theorem witness_HostLinkEventsHaveTheirEffect :
    (State.reset.alive = true ∧ held.alive = false ∧ State.reset.hif.flr = false ∧ ({ State.reset with hif := { l1Exit := true } } : State).hif.l1Exit = true) ∧
    (State.reset.pwr.perstLow = false ∧ ({ State.reset.setFld (pwrB + 0x040) 31 30 2 with pwr := { perstLow := true } } : State).pstate = 2) ∧
    ((State.reset.alive && State.reset.pwr.ready && !State.reset.pwr.perstLow && linkState State.reset != 4) = false) ∧
    (linkTrains (4 : BitVec 4).toNat (5 : BitVec 4).toNat = true ∧ linkTrains (3 : BitVec 4).toNat (5 : BitVec 4).toNat = false ∧ (4 : Fin 5).val = 4 ∧ State.reset.pwr.perstLow = false) ∧
    (let s : State := { (ringOf 0 1).setFld (hifB + 0x040) 19 16 0 with pwr := { ready := true, imaged := true } }; (s.alive && s.pwr.ready && !s.pwr.perstLow && linkState s != 4) = true ∧ s.pwr.imaged = true ∧ ({ s with pwr := { ready := true } } : State).pwr.imaged = false) :=
  ⟨by decide +kernel, by decide +kernel, by decide +kernel, by decide +kernel, by decide +kernel⟩

/-- States and operands that meet the hypotheses of PowerStateEventsHaveTheirEffect. -/
theorem witness_PowerStateEventsHaveTheirEffect :
    (State.reset.pwr.change = .idle ∧ (changing .trim).pwr.change = .trim ∧ (changing .untrim).pwr.change = .untrim) ∧
    (let s := State.reset.setFld (pwrB + 0x040) 31 30 1; s.alive = true ∧ s.pstate = 1 ∧ s.pwr.change = .idle ∧ pavIdle s 7 = true ∧ s.pwr.gated.contains (7 : Fin 8).val = false) ∧
    (let s : State := { portOn 127 1 7 with pwr := { gated := [7] } }; s.pwr.gated.contains (7 : Fin 8).val = true ∧ pavIdle s 7 = false) ∧
    ((changing (.hold true false)).pwr.change = .hold true false ∧ holdReached (changing (.hold true false)) = true ∧ (∀ x y, State.reset.pwr.change ≠ .hold x y)) ∧
    ((changing (.gating true)).pwr.change = .gating true ∧ (changing (.leave false)).pwr.change = .leave false ∧ (∀ x, State.reset.pwr.change ≠ .gating x) ∧ (∀ x, State.reset.pwr.change ≠ .leave x) ∧ (∀ x, State.reset.pwr.change ≠ .linkWait x)) ∧
    ((changing (.linkWait false)).pwr.change = .linkWait false ∧ waited (later (changing (.linkWait false))) 0 ((later (changing (.linkWait false))).fld (pwrB + 0x050) 31 16 * 1000000 * tuPerNs) = true) ∧
    ((changing .lastSecond).pwr.change = .lastSecond ∧ lastEdgeDone (changing .lastSecond) = true ∧ (changing .railsOff).pwr.change = .railsOff) ∧
    (let s : State := { State.reset.setFld (pwrB + 0x040) 31 30 3 with pwr := { change := .restart, railEn := false } }; s.pwr.change = .restart ∧ s.pstate = 3 ∧ s.pwr.railEn = false) :=
  ⟨by decide +kernel, by decide +kernel, by decide +kernel, by decide +kernel, by decide +kernel, by decide +kernel, by decide +kernel, by decide +kernel⟩

/-- States and operands that meet the hypotheses of LodgeEventsHaveTheirEffect. -/
theorem witness_LodgeEventsHaveTheirEffect_1 :
    (let s : State := { State.reset with pwr := { imaged := true } }; s.pwr.imaged = true ∧ s.held = false ∧ s.pwr.loaded = none ∧ s.pwr.handedBack = false ∧ lodgeNow (reachLodge s (secondFrom (lodgeNow s) * tuPerSec)) % tuPerSec < lodgeInc s) ∧
    (let s : State := { State.reset with pwr := { loaded := some 0 } }; s.pwr.loaded = some 0 ∧ nodeTime s < (0 + 1) * tuPerSec ∧ State.reset.pwr.loaded = none) ∧
    (let s : State := { State.reset with sun := { d0 := { t := tuPerSec } }, pwr := { loaded := some 0, change := .restart } }; (0 + 1) * tuPerSec ≤ nodeTime s ∧ s.pwr.change = .restart ∧ State.reset.pwr.change ≠ .restart) ∧
    (let s : State := { State.reset with sun := { hand := { carried := true } } }; s.alive = true ∧ s.sun.stopped = false ∧ s.sun.hand.carried = true ∧ s.pwr.lapse = false ∧ s.pwr.change = .idle) ∧
    (State.reset.pwr.lodgePps = none) ∧
    (let s : State := { State.reset with pwr := { lodgePps := some (1000, 0, 0) } }; s.pwr.lodgePps = some (1000, 0, 0) ∧ s.pwr.lodgeOn = true ∧ s.pwr.lapse = false ∧ fieldOff s 0 = false ∧ s.sun.stopped = false ∧ s.pwr.loaded = none ∧ lodgeInc s ≠ 0 ∧ divRound ((nextPps s 0 0 * tuPerSec : Nat) + adjTu (0 * 2 ^ 40) - lodgeNow s) (lodgeInc s) = 0) ∧
    (let s : State := { State.reset.setFlag (pwrB + 0x0A0) 0 true with pwr := { lodgePps := some (1000, 0, 0) } }; fieldOff s 0 = true ∧ lodgeInc s ≠ 0 ∧ divRound ((nextPps s 0 0 * tuPerSec : Nat) + adjTu (0 * 2 ^ 40) - lodgeNow s) (lodgeInc s) = 0) ∧
    (let s : State := { State.reset with pwr := { lodgePps := some (1000, 0, 5) } }; divRound ((nextPps s 0 5 * tuPerSec : Nat) + adjTu (0 * 2 ^ 40) - lodgeNow s) (lodgeInc s) ≠ 0 ∧ s.sun.stopped = false) :=
  ⟨by decide +kernel, by decide +kernel, by decide +kernel, by decide +kernel, by decide +kernel, by decide +kernel, by decide +kernel, by decide +kernel⟩

/-- States and operands that meet the hypotheses of LodgeEventsHaveTheirEffect. -/
theorem witness_LodgeEventsHaveTheirEffect_2 :
    (let s := State.reset.setFlag (pwrB + 0x094) 31 true; s.pwr.lodgeOn = true ∧ alarmOn s = true ∧ alarmSec s * tuPerSec ≤ lodgeNow (reachLodge s (alarmSec s * tuPerSec))) ∧
    (let s : State := { State.reset with pwr := { wakeBusy := true } }; s.pwr.wakeBusy = true ∧ (List.range 128).all (fun p => !portIs s p 1 || !s.flag (lanB p + 0x040) 2 || (portRec s p).wakes == []) = true) ∧
    (let s := portOn 127 1 8; s.alive = true ∧ portIs s 127 1 = true ∧ 3 ≤ trkSt s 127 ∧ trkSt s 127 ≤ 8 ∧ wakeValid 0x69 = true) :=
  ⟨by decide +kernel, by decide +kernel, by decide +kernel⟩

/-- States and operands that meet the hypotheses of FeedEventsHaveTheirEffect. -/
theorem witness_FeedEventsHaveTheirEffect :
    (feedsOk.pwr.lodgeOn = true ∧ feedOk feedsOk 1 = true ∧ inRange (takeVolts feedsOk 0 0) 1 = false ∧ feedOk State.reset 0 = false ∧ inRange (takeVolts State.reset 1200 1200) 0 = true) ∧
    (State.reset.pwr.holdSince = none) ∧
    (let s : State := { later ((wrs State.reset [(pwrB + 0x040, 0x00030000), (pwrB + 0x058, 0x80000001)])) with pwr := { fet := some 1, holdSince := some 0 } }; s.pwr.holdSince = some 0 ∧ s.flag (pwrB + 0x058) 31 = true ∧ s.pwr.fet = some (1 - prefFeed s) ∧ feedOk s (prefFeed s) = true ∧ waited s 0 (s.fld (pwrB + 0x058) 7 0 * 100000000 * tuPerNs) = true) ∧
    (let s : State := { State.reset.setFlag (pwrB + 0x040) 19 true with pwr := { fet := none } }; s.pwr.lodgeOn = true ∧ s.pwr.fet = none ∧ s.flag (pwrB + 0x040) 19 = true) ∧
    (State.reset.pwr.charging = false ∧ State.reset.pwr.chargeAt = none) ∧
    (let s : State := { later State.reset with pwr := { charging := true, chargeAt := some 0 } }; s.pwr.charging = true ∧ s.pwr.chargeAt = some 0 ∧ (799 : BitVec 16).toNat < 800 ∧ waited s 0 (5 * tuPerSec) = true) ∧
    (State.reset.pwr.lodgeOn = true ∧ fieldOff State.reset 11 = false) ∧
    (let s := later (State.reset.setFlag (pwrB + 0x0A0) 11 true); s.pwr.lodgeOn = true ∧ fieldOff s 11 = true ∧ waited s (AMap.getD s.pwr.fieldAt 11 0) tuPerSec = true) :=
  ⟨by decide +kernel, by decide +kernel, by decide +kernel, by decide +kernel, by decide +kernel, by decide +kernel, by decide +kernel, by decide +kernel⟩

/-- States and operands that meet the hypotheses of MonitorEventsHaveTheirEffect. -/
theorem witness_MonitorEventsHaveTheirEffect :
    (State.reset.nvm.jobs = [] ∧ ({ State.reset with nvm := { jobs := [⟨0x80000, [1], none⟩] } } : State).nvm.jobs = ⟨0x80000, [1], none⟩ :: [] ∧ (⟨0x80000, [1], some (0x8000, .host)⟩ : NvmJob).win = some (0x8000, .host)) ∧
    (State.reset.alive = true ∧ held.alive = false ∧ ({ later State.reset with mon := { outAt := [(7, 0)] } } : State).alive = true ∧ AMap.get ({ later State.reset with mon := { outAt := [(7, 0)] } } : State).mon.outAt 7 = some 0 ∧ 0 + 100000 * tuPerNs ≤ (later State.reset).elapsed ∧ AMap.get State.reset.mon.outAt 0 = none ∧ fatalNow State.reset = false ∧ fatalNow (State.reset.setFlag (monB + 0x048) 31 true) = true ∧ State.reset.mode ≠ 3) ∧
    (canTake (perfCount (ringOf 0 1) none { ev := 0x0B } 1) 0 (ringType (perfCount (ringOf 0 1) none { ev := 0x0B } 1) 0) = true) ∧
    (attachOf 128 = 8 ∧ attachOf 0 ≠ 8 ∧ 1 < retireLim State.reset) :=
  ⟨by decide +kernel, by decide +kernel, by decide +kernel, by decide +kernel⟩

/-- States and operands that meet the hypotheses of ResetEventsHaveTheirEffect. -/
theorem witness_ResetEventsHaveTheirEffect_1 :
    (State.reset.pwr.lodgeOn = true ∧ ({ State.reset with pwr := { lodgeOn := false } } : State).pwr.lapse = false) ∧
    (State.reset.pwr.fet.isSome = true ∧ held.held = true ∧ held.pstate ≠ 3 ∧ held.pwr.lodgeOn = true) ∧
    (let s : State := { State.reset with pwr := { railGood := false, railWait := true } }; s.pwr.railEn = true ∧ s.pwr.railGood = false ∧ s.pwr.railWait = true ∧ State.reset.pwr.railGood = true) ∧
    (({ State.reset with pwr := { railLow := true, railWant := true } } : State).pwr.railLow = true) ∧
    (held.held = true ∧ State.reset.held = false ∧ held.pwr.railEn = true ∧ held.pwr.railGood = true ∧ held.pwr.pinLow = false ∧ held.pwr.testen = false ∧ (State.reset.setFld (pwrB + 0x040) 31 30 3).pstate = 3) ∧
    (State.reset.alive = true ∧ State.reset.pwr.loading = true ∧ ({ State.reset with pwr := { loading := false } } : State).pwr.loading = false) ∧
    ((State.reset.alive && State.reset.pwr.firmware && !State.reset.pwr.imaged && State.reset.mode == 0) = false) ∧
    (let s : State := { State.reset with pwr := { firmware := true } }; (s.alive && s.pwr.firmware && !s.pwr.imaged && s.mode == 0) = true ∧ imageSlot s = none) :=
  ⟨by decide +kernel, by decide +kernel, by decide +kernel, by decide +kernel, by decide +kernel, by decide +kernel, by decide +kernel, by decide +kernel⟩

/-- States and operands that meet the hypotheses of ResetEventsHaveTheirEffect. -/
theorem witness_ResetEventsHaveTheirEffect_2 :
    (withImage.alive && withImage.pwr.firmware && !withImage.pwr.imaged && withImage.mode == 0) = true ∧ imageSlot withImage = some 0 := by decide +kernel

/-- States and operands that meet the hypotheses of TestPortInstructionsHaveTheirEffect. -/
theorem witness_TestPortInstructionsHaveTheirEffect :
    tapWorks State.reset = true ∧ State.reset.held = false ∧ held.held = true ∧ tapWorks held = true ∧ tapWorks { State.reset with pwr := { railGood := false } } = false := by decide +kernel

/-- States and operands that meet the hypotheses of AClaimTakesTheBestDeliverableSource. -/
theorem witness_AClaimTakesTheBestDeliverableSource :
    (deliverable sources 0 = true ∧ deliverable sources 511 = true ∧ srcTarget sources 0 = 0 ∧ srcTarget sources 511 = 0 ∧ srcPrio sources 511 < srcPrio sources 0 ∧ AMap.wf sources.irq.prioStacks = true ∧ bestSource sources 0 = some 0) ∧
    ((List.range 512).all (fun k => k == 0 || !(deliverable sources k) || srcTarget sources k != 0 || decide (srcPrio sources k < srcPrio sources 0)) = true) ∧
    ((List.range 512).all (fun k => !(deliverable State.reset k)) = true ∧ bestSource State.reset 259 = none ∧ State.reset.alive = true ∧ Master.host.num = 0 ∧ (Master.core 3 true).num = 259 - 255 ∧ State.reset.regs = []) :=
  ⟨by decide +kernel, by decide +kernel, by decide +kernel⟩

/-- States and operands that meet the hypotheses of AnEoiPopsTheTopOrFaults. -/
theorem witness_AnEoiPopsTheTopOrFaults :
    (let s : State := { State.reset with irq := { prioStacks := [(259, [511, 3])] } }; irqStack s 259 = 511 :: [3] ∧ AMap.wf s.irq.prioStacks = true ∧ s.regs = [] ∧ (irqStack s 259).head? ≠ some 3 ∧ (irqStack s 0).head? ≠ some 0) ∧
    (ok State.reset (claimAddr 0 + 4) 0 = true) :=
  ⟨by decide +kernel, by decide +kernel⟩

/-- States and operands that meet the hypotheses of ATickMovesACounterByItsIncrementAndSlew. -/
theorem witness_ATickMovesACounterByItsIncrementAndSlew :
    let c : TimeCtr := { resid := -5, rem := .slew }; c.slewing = true ∧ (c.advance 1000000000 2).resid = -3 ∧ (c.advance 1000000000 2).t = 0 ∧ (c.advance 1000000000 7).resid = 0 ∧ ({} : TimeCtr).slewing = false ∧ c.resid ≤ 0 ∧ ¬(0 ≤ c.resid) := by decide +kernel

/-- States and operands that meet the hypotheses of PowerRequestsNeedTheirModeAndKey. -/
theorem witness_PowerRequestsNeedTheirModeAndKey :
    (State.reset.alive = true ∧ atReg (pwrB + 0x048) (fun x => !isolatedBad State.reset x) = true ∧ State.reset.mode = 0 ∧ noChange State.reset = true ∧ State.reset.pstate = 0) ∧
    (inService.mode = 1 ∧ (0x5B : Byte) ≠ 0x5C ∧ (State.reset.setFld (pwrB + 0x040) 31 30 1).pstate = 1 ∧ noChange (State.reset.setFld (pwrB + 0x040) 31 30 1) = true) :=
  ⟨by decide +kernel, by decide +kernel⟩

end Sys2Proof.Tests
end

section
/-!
Proofs/RegisterModel: the statements of 02_register_model.md. First what an interrupt signalled on the way of an access can change, then the words of
BLK_ERR and of the counters, then the obligations.
-/
namespace Sys2Proof.Machine

/-! ### What latching a source and counting an event leave alone -/

/-- `t` differs from `s` at most in what the latching of an interrupt source reaches: registers, outputs, and the records of the interrupt controller,
of power and of the host port (R669 to R697, R706 to R710). -/
def SignalsOnly (s t : State) : Prop :=
  t = { s with regs := t.regs, sent := t.sent, wakeNLow := t.wakeNLow, irq := t.irq, pwr := t.pwr, hif := t.hif }

namespace SignalsOnly

theorem refl (s : State) : SignalsOnly s s := rfl

theorem trans {s t u : State} (h : SignalsOnly s t) (k : SignalsOnly t u) : SignalsOnly s u := by
  unfold SignalsOnly at k
  rw [h] at k
  exact k

theorem ite {s t u : State} {c : Prop} [Decidable c] (h : SignalsOnly s t) (k : SignalsOnly s u) : SignalsOnly s (if c then t else u) := by
  split
  · exact h
  · exact k

theorem forEach {α : Type} {g : α → State → State} (hg : ∀ a u, SignalsOnly u (g a u)) (l : List α) (s : State) :
    SignalsOnly s (forEach l s g) := by
  induction l generalizing s with
  | nil => exact refl s
  | cons a l ih => exact (hg a s).trans (ih (g a s))

theorem busOut_eq {s t : State} (h : SignalsOnly s t) : t.busOut = s.busOut := by rw [h]

end SignalsOnly

theorem signalsOnly_wr (s : State) (a : Nat) (v : Word) : SignalsOnly s (s.wr a v) := rfl

theorem signalsOnly_wr64 (s : State) (a n : Nat) : SignalsOnly s (s.wr64 a n) := rfl

theorem signalsOnly_msixEmit (s : State) (v : Nat) : SignalsOnly s (msixEmit s v) := .ite rfl rfl

theorem signalsOnly_holdVec (s : State) (v : Nat) : SignalsOnly s (holdVec s v) := .ite rfl rfl

theorem signalsOnly_wakeHost (s : State) : SignalsOnly s (wakeHost s) := .ite (.ite rfl rfl) (.ite rfl rfl)

theorem signalsOnly_irqSignal (s : State) (v : Nat) : SignalsOnly s (irqSignal s v) := by
  have held : SignalsOnly s (if hostPortDown s then s else holdVec s v) := .ite (.refl s) (signalsOnly_holdVec s v)
  exact .ite (signalsOnly_msixEmit s v) (.ite (held.trans (signalsOnly_wakeHost _)) held)

theorem signalsOnly_notifyAll (s : State) (ns : List Nat) : SignalsOnly s (notifyAll s ns) :=
  have claimed := SignalsOnly.forEach (g := fun n t => lodgeClaim t n) (fun _ _ => rfl) (claimOrder s (ns.filter fun n => srcTarget s n = 260)) s
  claimed.trans (.forEach (fun v t => signalsOnly_irqSignal t v) _ _)

theorem signalsOnly_latchPend (s : State) (n : Nat) : SignalsOnly s (latchPend s n) := by
  have judged : SignalsOnly s (rejudge s (setPend s n true) [n]) := .trans (t := setPend s n true) rfl (signalsOnly_notifyAll _ _)
  exact .ite (.ite (.ite rfl rfl) judged) (.refl s)

theorem signalsOnly_startWake (s : State) (n : Nat) : SignalsOnly s (startWake s n) := .ite rfl rfl

theorem signalsOnly_stateDone (s : State) (mayWake : Bool) : SignalsOnly s (stateDone s mayWake) := by
  have latched : SignalsOnly s (latchPend (s.orReg (pwrB + 0x044) (bitW 8 true)) 456) :=
    (signalsOnly_wr s _ _).trans (signalsOnly_latchPend _ _)
  exact .ite (latched.trans (signalsOnly_startWake _ _)) latched

theorem signalsOnly_abortEntry (s : State) (result src : Nat) : SignalsOnly s (abortEntry s result src) := by
  refine .trans ?_ (signalsOnly_stateDone _ true)
  rfl

theorem signalsOnly_wakeJudge (s : State) (n : Nat) : SignalsOnly s (wakeJudge s n) := by
  unfold wakeJudge
  have abort : SignalsOnly s (abortEntry (setWakeLast s n) 4 n) := (signalsOnly_wr s _ _).trans (signalsOnly_abortEntry _ _ _)
  have defer : SignalsOnly s (if s.pwr.deferred.isSome then s else { s with pwr := { s.pwr with deferred := some n } }) := .ite rfl rfl
  refine .ite (.refl s) ?_
  cases s.pwr.change with
  | idle => exact .ite (signalsOnly_startWake s n) (.refl s)
  | hold => exact abort
  | linkWait committed =>
    cases committed with
    | false => exact abort
    | true => exact defer
  | gating | lastSecond | railsOff => exact defer
  | trim | untrim | leave | restart => exact .refl s

/-- Latching a source changes no data port, no counter of time and no engine's record. -/
theorem signalsOnly_latchSource (s : State) (n : Nat) : SignalsOnly s (latchSource s n) :=
  .ite ((signalsOnly_latchPend s n).trans (signalsOnly_wakeJudge _ n)) (.refl s)

theorem signalsOnly_raise (s : State) (reg b n : Nat) : SignalsOnly s (raise s reg b n) :=
  (signalsOnly_wr s _ _).trans (signalsOnly_latchSource _ n)

theorem signalsOnly_perfAdd (s : State) (r : Option Nat) (a k : Nat) : SignalsOnly s (perfAdd s r a k) := by
  unfold perfAdd
  refine .ite ?_ (signalsOnly_wr64 s _ _)
  cases r with
  | none => exact (signalsOnly_wr64 s _ _).trans (signalsOnly_raise _ _ _ _)
  | some r => exact (signalsOnly_wr64 s _ _).trans (signalsOnly_raise _ _ _ _)

theorem signalsOnly_perfCount (s : State) (r : Option Nat) (e : PerfEv) (k : Nat) : SignalsOnly s (perfCount s r e k) :=
  .ite (.refl s) (.forEach (fun a t => .ite (signalsOnly_perfAdd t r a k) (.refl t)) _ s)

/-- The count of an access leaves the data it returned (R764). -/
@[simp] theorem counted_busOut (s : State) (m : Master) (a : Nat) : (counted s m a).busOut = s.busOut :=
  (signalsOnly_perfCount s none _ 1).busOut_eq

/-! ### Fields of a word that is put together from fields -/

theorem bits_or (v w : Word) (hi lo : Nat) : bits (v ||| w) hi lo = bits v hi lo ||| bits w hi lo := by
  simp only [bits, BitVec.toNat_or, Nat.shiftRight_or_distrib, Nat.or_mod_two_pow]

theorem bit_or (v w : Word) (i : Nat) : bit (v ||| w) i = (bit v i || bit w i) := by
  simp only [bit_eq_getLsbD, BitVec.getLsbD_or]

theorem fieldW_eq_putBits (hi lo x : Nat) : fieldW hi lo x = putBits 0 hi lo x := by
  simp [fieldW, putBits]

@[simp] theorem bits_zero (hi lo : Nat) : bits 0 hi lo = 0 := by simp [bits]

@[simp] theorem bit_zero (i : Nat) : bit 0 i = false := by simp [bit]

theorem bits_fieldW_self (hi lo x : Nat) (h : hi < 32) : bits (fieldW hi lo x) hi lo = x % 2 ^ (hi + 1 - lo) := by
  rw [fieldW_eq_putBits, bits_putBits_self _ _ _ _ h]

theorem bits_fieldW_ne (hi lo x hi' lo' : Nat) (h : hi' < lo ∨ hi < lo') : bits (fieldW hi lo x) hi' lo' = 0 := by
  rw [fieldW_eq_putBits, bits_putBits_ne _ _ _ _ _ _ h, bits_zero]

theorem bit_fieldW_ne (hi lo x i : Nat) (h : i < lo ∨ hi < i) : bit (fieldW hi lo x) i = false := by
  rw [fieldW_eq_putBits, bit_putBits_ne _ _ _ _ _ h, bit_zero]

theorem bitW_eq_fieldW (i : Nat) (b : Bool) : bitW i b = fieldW i i b.toNat := by
  cases b with
  | false => simp [bitW, fieldW]
  | true => simp [bitW, fieldW, maskOf, Nat.one_shiftLeft]

theorem bit_fieldW_self (i x : Nat) (h : i < 32) : bit (fieldW i i x) i = (x % 2 == 1) := by
  rw [fieldW_eq_putBits, bit_putBits_self _ _ _ h]

/-! ### The word of BLK_ERR -/

/-- BLK_ERR with OVF, MASTER, CODE and OFFSET (R50). -/
def errWord (ovf : Bool) (m : Master) (code off : Nat) : Word := bitW 31 ovf ||| fieldW 30 28 m.num ||| fieldW 23 16 code ||| fieldW 15 0 off

/-- Latching an error stores that word in BLK_ERR and then drives the error source while ERR_INT_EN is 1 (R50, R671). -/
theorem latchErr_eq (s : State) (b : Block) (code off : Nat) (m : Master) :
    latchErr s b code off m =
      if s.flag (b.base + 0x004) 2
      then latchSource (s.wr (b.base + 0x008) (errWord (decide (s.fld (b.base + 0x008) 23 16 ≠ 0)) m code off)) (errSource b)
      else s.wr (b.base + 0x008) (errWord (decide (s.fld (b.base + 0x008) 23 16 ≠ 0)) m code off) := rfl

theorem Master.num_lt (m : Master) : m.num < 8 := by
  cases m with
  | host | cue => decide
  | core c sup => have := c.isLt; simp only [Master.num]; omega

section
variable (ovf : Bool) (m : Master) (code off : Nat)

theorem bits_errWord_code : bits (errWord ovf m code off) 23 16 = code % 256 := by
  simp [errWord, bits_or, bitW_eq_fieldW, bits_fieldW_self, bits_fieldW_ne]

theorem bits_errWord_offset : bits (errWord ovf m code off) 15 0 = off % 65536 := by
  simp [errWord, bits_or, bitW_eq_fieldW, bits_fieldW_self, bits_fieldW_ne]

theorem bits_errWord_master : bits (errWord ovf m code off) 30 28 = m.num := by
  have := Master.num_lt m
  simp [errWord, bits_or, bitW_eq_fieldW, bits_fieldW_self, bits_fieldW_ne, Nat.mod_eq_of_lt this]

theorem bit_errWord_ovf : bit (errWord ovf m code off) 31 = ovf := by
  cases ovf <;> simp [errWord, bit_or, bitW_eq_fieldW, bit_fieldW_self, bit_fieldW_ne]

end

/-! ### Counters that saturate (R79) -/

theorem satAdd_eq_min (w old n : Nat) : satAdd w old n = min (old + n) (2 ^ w - 1) := by
  have := Nat.two_pow_pos w
  unfold satAdd
  split <;> omega

theorem satAdd_lt (w old n : Nat) : satAdd w old n < 2 ^ w := by
  have := Nat.two_pow_pos w
  rw [satAdd_eq_min]
  omega

theorem toNat_satWord (old : Word) (n : Nat) : (satWord old n).toNat = min (old.toNat + n) (2 ^ 32 - 1) := by
  rw [satWord, BitVec.toNat_ofNat, Nat.mod_eq_of_lt (satAdd_lt 32 _ _), satAdd_eq_min]

theorem rd_count_self {s : State} (h : s.regsCanonical) (a n : Nat) : (s.count a n).rd a = satWord (s.rd a) n := rd_wr_self h _ _

theorem rd_count_ne {s : State} (h : s.regsCanonical) {a b : Nat} (n : Nat) (hb : b ≠ a) : (s.count a n).rd b = s.rd b := rd_wr_ne h _ hb

theorem rd64_count64_self {s : State} (h : s.regsCanonical) (a n : Nat) : (s.count64 a n).rd64 a = satAdd 64 (s.rd64 a) n :=
  rd64_wr64_self h _ _ (satAdd_lt 64 _ _)

theorem rd_count64_ne {s : State} (h : s.regsCanonical) {a b : Nat} (n : Nat) (h0 : b ≠ a) (h4 : b ≠ a + 4) : (s.count64 a n).rd b = s.rd b :=
  rd_wr64_ne h _ h0 h4

/-! ### Accesses by what they reach -/

/-- A write of a register of class RO, RC or SNAP stores nothing and latches nothing (R92). -/
theorem writeReg_readOnly {x : Reg} (hx : x.row.cls = .ro ∨ x.row.cls = .rc ∨ x.row.cls = .rcHi ∨ x.row.cls = .snap) (s : State) (m : Master)
    (v : Word) (p : Bool) (a : Nat) : writeReg s m x v p a = s := by
  unfold writeReg
  obtain hc | hc | hc | hc := hx <;> rw [hc]

/-- A read in which parity finds an error has the effect of one without, and then latches E_PARITY (R94). -/
theorem busRead_parityErr {s : State} {m : Master} {be : BitVec 4} {a : Nat} {x : Reg} (hm : masterActs s m = true) (h : regOf a = some x) :
    busRead s m be a true = counted (latchErr { readEffect s m x with busOut := readView s m x } x.b 0x12 x.o m) m a := by
  obtain ⟨hr, hf⟩ := regOf_resolve h
  simp [busRead, readAt, hm, hr, hf]

/-- A write of a reserved range of BAR0 is recorded and counted (R44). -/
theorem busWrite_reserved {s : State} {m : Master} {be : BitVec 4} {a : Nat} {v : Word} {p : Bool} (hm : masterActs s m = true)
    (h : resolve a = none) : busWrite s m be a v p = counted (reservedAccess s m true be a) m a := by
  simp [busWrite, writeAt, hm, h]

/-- A read of one is recorded and counted, and returns 0 (R44). -/
theorem busRead_reserved {s : State} {m : Master} {be : BitVec 4} {a : Nat} {p : Bool} (hm : masterActs s m = true)
    (h : resolve a = none) : busRead s m be a p = counted { reservedAccess s m false be a with busOut := 0 } m a := by
  simp [busRead, readAt, hm, h]

section
variable (s : State) (m : Master) (be : BitVec 4) (a : BitVec 25)

theorem exec_registerWrite_single (v : Word) (p : Bool) : exec (.registerWrite m be a v ⟨p, []⟩) s = .next (busWrite s m be a.toNat v p) := rfl

theorem exec_reservedRangeAccess_write : exec (.reservedRangeAccess m true be a) s = .next (busWrite s m be a.toNat 0 false) := rfl

theorem exec_reservedRangeAccess_read : exec (.reservedRangeAccess m false be a) s = .next (busRead s m be a.toNat false) := rfl

theorem exec_registerReadParityError : exec (.registerReadParityError m be a) s = .next (busRead s m be a.toNat true) := rfl

/-- A read of a single dword leaves no further data on the port (R48). -/
theorem exec_counterRead_single : exec (.counterRead m ⟨be, []⟩ a) s = .next { busRead s m be a.toNat false with busMore := [] } := rfl

end

/-- A read of a single dword at a register returns its view, has its effect, and is counted: the count leaves the data on the port. -/
theorem exec_counterRead_reg {s : State} {m : Master} {be : BitVec 4} {a : BitVec 25} {x : Reg} (hm : masterActs s m = true)
    (h : regOf a.toNat = some x) :
    exec (.counterRead m ⟨be, []⟩ a) s =
      .next { counted { readEffect s m x with busOut := readView s m x } m a.toNat with busOut := readView s m x, busMore := [] } := by
  have data := counted_busOut { readEffect s m x with busOut := readView s m x } m a.toNat
  rw [exec_counterRead_single, busRead_reg hm h]
  exact congrArg (fun w => Host.Outcome.next { counted _ m a.toNat with busOut := w, busMore := [] }) data

open Claims in
theorem reaches_iff {s : State} {m : Master} {a : Nat} {x : Reg} :
    reaches s m a x = true ↔ masterActs s m = true ∧ a % 4 = 0 ∧ regOf a = some x := by
  simp [reaches, and_assoc]

end Sys2Proof.Machine

/-! ### The obligations -/

open Sys2Proof Sys2Proof.Machine

/-- Settles O11: a full-width access reaches `writeReg`, which has no effect on a register of these classes. -/
theorem writeToReadOnlyClassesIsIgnored : Obligations.WriteToReadOnlyClassesIsIgnored := by
  intro s m a v p x hx hc
  obtain ⟨hm, h4, hr⟩ := reaches_iff.mp hx
  rw [exec_registerWrite_single, busWrite_full hm h4 hr, writeReg_readOnly hc]

/-- Settles O13: the state before the source latches is the one write of BLK_ERR, whose fields are read back one by one. -/
theorem newErrorOverwritesBlkErr : Obligations.NewErrorOverwritesBlkErr := by
  intro s b code off m hs
  have stored (v : Word) : (s.wr (b.base + 0x008) v).rd (b.base + 0x008) = v := rd_wr_self hs _ v
  refine ⟨s.wr (b.base + 0x008) (errWord (decide (s.fld (b.base + 0x008) 23 16 ≠ 0)) m code off), rfl, fun a' ha => rd_wr_ne hs _ ha, ?_, ?_, ?_, ?_,
    latchErr_eq s b code off m⟩
  · rw [State.fld, stored, bits_errWord_code, Nat.mod_eq_of_lt code.isLt]
  · rw [State.fld, stored, bits_errWord_offset, Nat.mod_eq_of_lt off.isLt]
  · rw [State.fld, stored, bits_errWord_master]
  · rw [State.flag, stored, bit_errWord_ovf]

/-- Settles O15: an address that no block answers is recorded by `reservedAccess`; a master that does not act changes nothing. -/
theorem reservedRangeIsRecorded : Obligations.ReservedRangeIsRecorded := by
  intro s m be a hr
  refine ⟨fun hm wr => ?_, fun hm => ⟨?_, ?_⟩⟩
  · cases wr with
    | false => rw [exec_reservedRangeAccess_read, busRead_still hm]
    | true => rw [exec_reservedRangeAccess_write, busWrite_still hm]
  · rw [exec_reservedRangeAccess_read, busRead_reserved hm hr]
    rfl
  · rw [exec_reservedRangeAccess_write, busWrite_reserved hm hr]
    rfl

/-- Settles O20: both reads have the register's own effect, and the one with the parity error latches E_PARITY after it. -/
theorem readParityErrorLatches : Obligations.ReadParityErrorLatches := by
  intro s m be a x hm hr
  refine ⟨?_, exec_counterRead_reg hm hr⟩
  rw [exec_registerReadParityError, busRead_parityErr hm hr]

/-- Settles O21: a counter is one write of the saturated sum, which fits its width. -/
theorem countersSaturate : Obligations.CountersSaturate := by
  intro s a n hs
  refine ⟨?_, fun a' ha => rd_count_ne hs n ha, ?_, fun a' h0 h4 => rd_count64_ne hs n h0 h4⟩
  · rw [rd_count_self hs, toNat_satWord]
  · rw [rd64_count64_self hs, satAdd_eq_min]
end

section
/-!
Proofs/Interrupts: the statements of 13_interrupts_and_wake.md about claims and EOIs. First the bits and the stack of a source, then the order in
which a target claims its sources, then the claim and EOI registers, then the obligations.
-/
namespace Sys2Proof.Machine

/-! ### The bits of a source and the stack of a target -/

theorem regsCanonical_setFlag {s : State} (h : s.regsCanonical) (a i : Nat) (b : Bool) : (s.setFlag a i b).regsCanonical := regsCanonical_wr h _ _

/-- Writing one bit leaves every other bit of the register file. -/
theorem flag_setFlag_of_ne {s : State} (h : s.regsCanonical) {a a' i j : Nat} (b : Bool) (hne : a' ≠ a ∨ j ≠ i) :
    (s.setFlag a i b).flag a' j = s.flag a' j := by
  by_cases ha : a' = a
  · subst ha
    exact flag_setFlag_ne h a' i j b (hne.resolve_left (· rfl))
  · exact flag_wr_ne h _ j ha

section
variable {s : State} (h : s.regsCanonical) {n k : Nat} (b : Bool)
include h

theorem srcPend_setPend_self : srcPend (setPend s n b) n = b := flag_setFlag_self h _ _ b (Nat.mod_lt n (by decide))

theorem srcActive_setActive_self : srcActive (setActive s n b) n = b := flag_setFlag_self h _ _ b (Nat.mod_lt n (by decide))

theorem srcPend_setPend_ne (hk : k ≠ n) : srcPend (setPend s n b) k = srcPend s k := flag_setFlag_of_ne h b (by omega)

theorem srcActive_setActive_ne (hk : k ≠ n) : srcActive (setActive s n b) k = srcActive s k := flag_setFlag_of_ne h b (by omega)

/-- IRQ_ACTIVE lies above the pending bits. -/
theorem srcActive_setPend (hn : n < 512) : srcActive (setPend s n b) k = srcActive s k := flag_setFlag_of_ne h b (.inl (by omega))

theorem srcPend_setActive (hk : k < 512) : srcPend (setActive s n b) k = srcPend s k := flag_setFlag_of_ne h b (.inl (by omega))

end

@[simp] theorem setStack_flag (s : State) (t : Nat) (l : List Nat) (a i : Nat) : (setStack s t l).flag a i = s.flag a i := rfl

@[simp] theorem srcPend_setStack (s : State) (t : Nat) (l : List Nat) (n : Nat) : srcPend (setStack s t l) n = srcPend s n := by
  rw [srcPend, srcPend, setStack_flag]

@[simp] theorem srcActive_setStack (s : State) (t : Nat) (l : List Nat) (n : Nat) : srcActive (setStack s t l) n = srcActive s n := by
  rw [srcActive, srcActive, setStack_flag]

@[simp] theorem setPend_irq (s : State) (n : Nat) (b : Bool) : (setPend s n b).irq = s.irq := State_setFlag_irq _ _ _ _

@[simp] theorem setActive_irq (s : State) (n : Nat) (b : Bool) : (setActive s n b).irq = s.irq := State_setFlag_irq _ _ _ _

@[simp] theorem irqStack_setPend (s : State) (n : Nat) (b : Bool) (t : Nat) : irqStack (setPend s n b) t = irqStack s t := by
  simp only [irqStack, setPend_irq]

@[simp] theorem irqStack_setActive (s : State) (n : Nat) (b : Bool) (t : Nat) : irqStack (setActive s n b) t = irqStack s t := by
  simp only [irqStack, setActive_irq]

theorem irqStack_setStack_self {s : State} (h : AMap.wf s.irq.prioStacks = true) (t : Nat) (l : List Nat) : irqStack (setStack s t l) t = l :=
  AMap.getD_put_self _ _ _ _ (AMap.rising_of_wf _ h)

theorem irqStack_setStack_ne {s : State} (h : AMap.wf s.irq.prioStacks = true) {t t' : Nat} (l : List Nat) (ht : t' ≠ t) :
    irqStack (setStack s t l) t' = irqStack s t' :=
  AMap.getD_put_ne _ _ _ _ _ _ (AMap.rising_of_wf _ h) ht

/-! ### The order in which a target claims its sources -/

theorem mem_onesOf {v : Word} {i : Nat} : i ∈ onesOf v ↔ i < 32 ∧ bit v i = true := by simp [onesOf]

theorem onesOf_zero : onesOf 0 = [] := by decide

/-- A word of pending bits that is zero names no source, so the test for it may be left out. -/
theorem pendingSources_eq (s : State) :
    pendingSources s = (List.range 16).flatMap fun w => (onesOf (s.rd (irqB + 0x100 + 8 * w))).map (32 * w + ·) := by
  refine congrArg ((List.range 16).flatMap ·) (funext fun w => ?_)
  dsimp only
  split
  · next h => rw [h, onesOf_zero, List.map_nil]
  · rfl

theorem mem_pendingSources {s : State} {n : Nat} : n ∈ pendingSources s ↔ n < 512 ∧ srcPend s n = true := by
  simp only [pendingSources_eq, List.mem_flatMap, List.mem_range, List.mem_map, mem_onesOf]
  constructor
  · rintro ⟨w, hw, i, ⟨hi, hb⟩, rfl⟩
    have hq : (32 * w + i) / 32 = w := by omega
    have hr : (32 * w + i) % 32 = i := by omega
    refine ⟨by omega, ?_⟩
    rwa [srcPend, State.flag, hq, hr]
  · rintro ⟨hn, hb⟩
    exact ⟨n / 32, by omega, n % 32, ⟨Nat.mod_lt n (by decide), hb⟩, Nat.div_add_mod n 32⟩

/-- The pending sources are listed in rising order. -/
theorem pairwise_pendingSources (s : State) : (pendingSources s).Pairwise (· < ·) := by
  rw [pendingSources_eq, List.pairwise_flatMap]
  constructor
  · intro w _
    have rising : (onesOf (s.rd (irqB + 0x100 + 8 * w))).Pairwise (· < ·) := List.pairwise_lt_range.filter _
    exact List.pairwise_map.mpr (rising.imp fun h => Nat.add_lt_add_left h _)
  · refine List.pairwise_lt_range.imp fun {w w'} hw x hx y hy => ?_
    obtain ⟨i, hi, rfl⟩ := List.mem_map.mp hx
    obtain ⟨j, -, rfl⟩ := List.mem_map.mp hy
    have := (mem_onesOf.mp hi).1
    omega

/-- Source `n` is claimed before source `k`: by its higher PRIO, or by its lower number (R681). -/
def Precedes (s : State) (n k : Nat) : Prop := srcPrio s k < srcPrio s n ∨ (srcPrio s k = srcPrio s n ∧ n < k)

theorem Precedes.asymm {s : State} {n k : Nat} (h : Precedes s n k) : ¬Precedes s k n := by
  unfold Precedes at *
  omega

theorem srcPrio_lt (s : State) (n : Nat) : srcPrio s n < 16 := Nat.mod_lt _ (by decide)

theorem mem_claimOrder {s : State} {ns : List Nat} {n : Nat} : n ∈ claimOrder s ns ↔ n ∈ ns := by
  have := srcPrio_lt s n
  simp [claimOrder, this]

/-- Sources in rising order are claimed in the order of `Precedes`. -/
theorem pairwise_claimOrder {s : State} {ns : List Nat} (h : ns.Pairwise (· < ·)) : (claimOrder s ns).Pairwise (Precedes s) := by
  rw [claimOrder, List.pairwise_flatMap]
  constructor
  · intro p _
    refine (h.filter _).imp_of_mem fun {n k} hn hk hlt => ?_
    simp only [List.mem_filter, decide_eq_true_eq] at hn hk
    exact .inr ⟨hk.2.trans hn.2.symm, hlt⟩
  · refine (List.pairwise_reverse.mpr List.pairwise_lt_range).imp fun {p q} hq n hn k hk => ?_
    simp only [List.mem_filter, decide_eq_true_eq] at hn hk
    exact .inl (by omega)

/-- In a list ordered by an asymmetric relation, the element related to every other comes first. -/
theorem head?_of_pairwise {α : Type} {r : α → α → Prop} (asymm : ∀ {a b}, r a b → ¬r b a) {l : List α} {a : α} (hl : l.Pairwise r) (ha : a ∈ l)
    (least : ∀ b ∈ l, b ≠ a → r a b) : l.head? = some a := by
  cases l with
  | nil => cases ha
  | cons b l =>
    by_cases hb : b = a
    · rw [hb, List.head?_cons]
    · have hba : r b a := (List.pairwise_cons.mp hl).1 a ((List.mem_cons.mp ha).resolve_left (Ne.symm hb))
      exact absurd (least b (List.mem_cons_self ..) hb) (asymm hba)

/-- A target's candidates for a claim: the sources deliverable to it. -/
theorem mem_candidates {s : State} {t n : Nat} :
    n ∈ claimOrder s ((pendingSources s).filter fun n => deliverable s n && decide (srcTarget s n = t)) ↔
      n < 512 ∧ deliverable s n = true ∧ srcTarget s n = t := by
  have pending : deliverable s n = true → srcPend s n = true := by
    simp only [deliverable, Bool.and_eq_true]
    exact fun h => h.1.1
  simp only [mem_claimOrder, List.mem_filter, mem_pendingSources, Bool.and_eq_true, decide_eq_true_eq]
  exact ⟨fun ⟨⟨hn, _⟩, hd, ht⟩ => ⟨hn, hd, ht⟩, fun ⟨hn, hd, ht⟩ => ⟨⟨hn, pending hd⟩, hd, ht⟩⟩

theorem bestSource_eq_none {s : State} {t : Nat} (h : ∀ n : Nat, n < 512 → ¬(deliverable s n = true ∧ srcTarget s n = t)) :
    bestSource s t = none :=
  List.head?_eq_none_iff.mpr (List.eq_nil_iff_forall_not_mem.mpr fun n hn => h n (mem_candidates.mp hn).1 (mem_candidates.mp hn).2)

/-- The best source of a target is the deliverable one that precedes every other (R681). -/
theorem bestSource_eq_some {s : State} {t n : Nat} (hn : n < 512) (hd : deliverable s n = true) (ht : srcTarget s n = t)
    (best : ∀ k : Nat, k < 512 → k ≠ n → deliverable s k = true → srcTarget s k = t → Precedes s n k) : bestSource s t = some n := by
  refine head?_of_pairwise Precedes.asymm (pairwise_claimOrder ((pairwise_pendingSources s).filter _)) (mem_candidates.mpr ⟨hn, hd, ht⟩) ?_
  intro k hk hne
  obtain ⟨hk, hdk, htk⟩ := mem_candidates.mp hk
  exact best k hk hne hdk htk

/-! ### Claims -/

theorem claim_of_none {s : State} {t : Nat} (h : bestSource s t = none) : claim s t = (0, s) := by rw [claim, h]

/-- A claim of source `n` returns its word, clears its pending bit, sets its active bit and puts it on the stack (R681). -/
theorem claim_of_some {s : State} {t n : Nat} (h : bestSource s t = some n) :
    claim s t = (bitW 31 true ||| fieldW 19 16 (srcPrio s n) ||| w32 n,
      setStack (setActive (setPend s n false) n true) t (n :: irqStack s t)) := by rw [claim, h]

/-- `m` is the master that the claim and EOI registers of target `t` serve: the host for a vector, else the target's core (R684). -/
abbrev serves (m : Master) (t : Nat) : Prop := if t < 256 then m.num = 0 else m.num = t - 255

/-- The claim registers decode as the claims of the vectors and of the management cores (R696). -/
theorem regOf_claimAddr : ∀ t : Fin 260, (regOf (claimAddr t.val)).map (fun x => (x.row.eff, x.i)) =
    some (if t.val < 256 then (.irqClaimV, t.val) else (.irqClaimC, t.val - 256)) := by decide +kernel

/-- A read of a claim register is a claim for the master it serves, and nothing for any other (R681, R684). -/
theorem exists_claimReg (t : Fin 260) : ∃ x, regOf (claimAddr t.val) = some x ∧ ∀ (s : State) (m : Master),
    readView s m x = (if serves m t.val then (claim s t.val).1 else 0) ∧
    readEffect s m x = if serves m t.val ∧ (bestSource s t.val).isSome
      then perfCount (claim s t.val).2 none { ev := 0x0C, master := some m.num } 1 else s := by
  obtain ⟨x, hx, he⟩ := Option.map_eq_some_iff.mp (regOf_claimAddr t)
  refine ⟨x, hx, fun s m => ?_⟩
  by_cases ht : t.val < 256
  · rw [if_pos ht, Prod.mk.injEq] at he
    obtain ⟨heff, hi⟩ := he
    simp only [serves, readView, readEffect, heff, hi, if_pos ht, and_self]
  · rw [if_neg ht, Prod.mk.injEq] at he
    obtain ⟨heff, hi⟩ := he
    have hcore : t.val - 256 + 1 = t.val - 255 := by omega
    have htgt : 256 + (t.val - 256) = t.val := by omega
    simp only [serves, readView, readEffect, heff, hi, if_neg ht, hcore, htgt, and_self]

/-! ### EOIs -/

/-- An EOI of the source on top pops it, and the target's sources are judged again (R682). -/
theorem eoi_top {s : State} {t n : Nat} {rest : List Nat} (h : irqStack s t = n :: rest) :
    let u := setStack (setActive s n false) t rest
    eoi s t n = (rejudge s u ((pendingSources u).filter fun k => srcTarget u k = t), false) := by
  simp only [eoi, h, if_true]

/-- Any other EOI is an ORDER_FAULT (R683). -/
theorem eoi_fault {s : State} {t n : Nat} (h : (irqStack s t).head? ≠ some n) : eoi s t n = (orderFault s t n, true) := by
  unfold eoi
  cases hs : irqStack s t with
  | nil => rfl
  | cons top rest =>
    rw [hs, List.head?_cons] at h
    exact if_neg fun e => h (congrArg some e)

/-- ORDER_FAULT records the target, the top (0x3FF for an empty stack) and the number written, counts, and latches source 16 (R683). -/
theorem orderFault_eq (s : State) (t n : Nat) :
    orderFault s t n = latchSource
      (((s.wr (irqB + 0x048) (w32 t)).wr (irqB + 0x04C) (fieldW 25 16 ((irqStack s t).headD 0x3FF) ||| fieldW 9 0 n)).count (irqB + 0x060)) 16 := by
  unfold orderFault
  cases irqStack s t <;> rfl

/-- The EOI registers decode as those of the vectors and of the management cores (R696). -/
theorem regOf_eoiAddr : ∀ t : Fin 260, (regOf (claimAddr t.val + 4)).map (fun x => (x.b.ty, x.row.eff, x.i)) =
    some (if t.val < 256 then (.irq, .irqEoiV, t.val) else (.irq, .irqEoiC, t.val - 256)) := by decide +kernel

/-- A write of an EOI register that passes every check is an EOI of its target, and latches E_ORDER where that faults (R682, R683). -/
theorem storeWrite_eoi {t : Fin 260} {x : Reg} (hx : regOf (claimAddr t.val + 4) = some x) (s : State) (m : Master) (v : Word) :
    let c := eoi (s.wr x.home (newWord x (s.rd x.home) v)) t.val (bits v 8 0)
    useKey (storeWrite s m x v) m x = if c.2 then latchErr c.1 ⟨.irq, 0, 0⟩ 0x0C x.o m else c.1 := by
  have he := regOf_eoiAddr t
  rw [hx, Option.map_some, Option.some.injEq] at he
  by_cases ht : t.val < 256
  · simp only [if_pos ht, Prod.mk.injEq] at he
    obtain ⟨hty, heff, hi⟩ := he
    simp [useKey, storeWrite, chapterApply, irqApply, hty, heff, hi]
  · simp only [if_neg ht, Prod.mk.injEq] at he
    obtain ⟨hty, heff, hi⟩ := he
    have htgt : 256 + (t.val - 256) = t.val := by omega
    simp [useKey, storeWrite, chapterApply, irqApply, hty, heff, hi, htgt]

theorem exec_irqClaim (m : Master) (be : BitVec 4) (t : Fin 260) (s : State) :
    exec (.irqClaim m be t) s = .next (busRead s m be (claimAddr t.val) false) := rfl

theorem exec_irqEoi (m : Master) (be : BitVec 4) (t : Fin 260) (v : Word) (s : State) :
    exec (.irqEoi m be t v) s = .next (busWrite s m be (claimAddr t.val + 4) v false) := rfl

open Claims in
theorem taken_iff {s : State} {m : Master} {be : BitVec 4} {a : Nat} {v : Word} {x : Reg} :
    taken s m be a v x = true ↔ reaches s m a x = true ∧ be = 0xF ∧
      (x.row.cls = .rw ∨ x.row.cls = .w1c ∨ x.row.cls = .set ∨ x.row.cls = .clr) ∧ writeCode s m x v false = 0 := by
  simp [taken, plain, and_assoc, or_assoc]

open Claims in
/-- A taken write of an EOI register leaves what `storeWrite` does, counted. -/
theorem exec_irqEoi_taken {s : State} {m : Master} {be : BitVec 4} {t : Fin 260} {v : Word} {x : Reg}
    (h : taken s m be (claimAddr t.val + 4) v x = true) :
    exec (.irqEoi m be t v) s = .next (written s m (claimAddr t.val + 4) v x) := by
  obtain ⟨hreach, rfl, hcls, hcode⟩ := taken_iff.mp h
  obtain ⟨hm, h4, hx⟩ := reaches_iff.mp hreach
  rw [exec_irqEoi, busWrite_taken hm h4 hx hcls hcode, written]

end Sys2Proof.Machine

/-! ### The obligations -/

open Sys2Proof Sys2Proof.Machine

/-- Settles O57: the head of the claim order is the one deliverable source that precedes all others; a claim register's read is that claim. -/
theorem aClaimTakesTheBestDeliverableSource : Obligations.AClaimTakesTheBestDeliverableSource := by
  refine ⟨fun s t hs hst => ⟨fun none => claim_of_none (bestSource_eq_none none), fun n hn hd ht best => ?_⟩, fun s m be t hm => ?_⟩
  · have hc := claim_of_some (bestSource_eq_some hn hd ht best)
    have cleared : (setPend s n false).regsCanonical := regsCanonical_setFlag hs _ _ _
    simp only [hc, srcPend_setStack, srcActive_setStack, true_and]
    have wf : AMap.wf (setActive (setPend s n false) n true).irq.prioStacks = true := by simpa using hst
    refine ⟨?_, srcActive_setActive_self cleared true, irqStack_setStack_self wf t _, fun k hk hne => ⟨?_, ?_⟩, fun t' ht' => ?_⟩
    · rw [srcPend_setActive cleared true hn, srcPend_setPend_self hs]
    · rw [srcPend_setActive cleared true hk, srcPend_setPend_ne hs false hne]
    · rw [srcActive_setActive_ne cleared true hne, srcActive_setPend hs false hn]
    · simp [irqStack_setStack_ne wf _ ht']
  · obtain ⟨x, hx, reads⟩ := exists_claimReg t
    obtain ⟨view, effect⟩ := reads s m
    have hrun := exec_irqClaim m be t s
    rw [busRead_reg hm hx, view, effect] at hrun
    refine ⟨fun other => hrun.trans ?_, fun served idle => hrun.trans ?_, fun served found => hrun.trans ?_⟩
    · simp only [other, false_and, if_false]
    · simp only [if_pos served, idle, claim_of_none idle, Option.isSome_none, Bool.false_eq_true, and_false, if_false]
    · simp only [served, Option.isSome_iff_ne_none.mpr found, and_self, if_true]

/-- Settles O58: the cases of `eoi` by the top of the stack; a taken write of an EOI register is that EOI. -/
theorem anEoiPopsTheTopOrFaults : Obligations.AnEoiPopsTheTopOrFaults := by
  refine fun s t n => ⟨fun rest hs => ⟨eoi_top hs, fun hst => ⟨?_, fun t' ht' => ?_⟩, fun hc hn => ⟨?_, fun k hk hne => ?_⟩⟩, fun hs => ⟨?_, rfl⟩, ?_⟩
  · exact irqStack_setStack_self (by simpa using hst) t rest
  · rw [irqStack_setStack_ne (by simpa using hst) rest ht', irqStack_setActive]
  · exact srcActive_setActive_self hc false
  · exact srcActive_setActive_ne hc false hne
  · rw [eoi_fault hs, orderFault_eq]
  · intro m be k v x hx
    have hrun := exec_irqEoi_taken hx
    obtain ⟨_, _, hreg⟩ := reaches_iff.mp (taken_iff.mp hx).1
    rw [Claims.written, storeWrite_eoi hreg] at hrun
    intro c out
    refine ⟨fun popped => ?_, fun faulted => ?_⟩
    · exact hrun.trans (by rw [if_neg (by simpa using popped)])
    · exact hrun.trans (by rw [if_pos faulted])
end

section
/-!
Proofs/Steps: the statements about the block and its queue. First that every command answers a next state, then what every command keeps, by the laws
of Laws/Kept*, then the obligations.
-/
namespace Sys2Proof.Machine

/-! ### Every command answers a next state -/

/-- A meaning that answers a next state. -/
def Answers (r : Result) : Prop := ∃ t, r = .next t

theorem Answers.next (t : State) : Answers (.next t) := ⟨t, rfl⟩

theorem Answers.ite {c : Prop} [Decidable c] {r q : Result} (h : Answers r) (k : Answers q) : Answers (if c then r else q) := by
  split
  · exact h
  · exact k

/-- A command with one condition answers on either side of it. -/
theorem Answers.test {c : Prop} [Decidable c] (t u : State) : Answers (if c then .next t else .next u) := .ite (.next t) (.next u)

theorem answers_execBar2ReservedWrite {a x} (s : State) : Answers (execBar2ReservedWrite a x s) := by
  unfold execBar2ReservedWrite
  split
  · exact .next _
  · exact .next _

theorem answers_execDwWindowExpiry {m a} (s : State) : Answers (execDwWindowExpiry m a s) := by
  unfold execDwWindowExpiry
  split
  · exact .next _
  · exact .next _

theorem answers_execAutoDomainSwitch (s : State) : Answers (execAutoDomainSwitch s) := by
  unfold execAutoDomainSwitch
  split
  · exact .test _ _
  · exact .next _

theorem answers_execLeapSecond (s : State) : Answers (execLeapSecond s) := by
  unfold execLeapSecond
  split
  · exact .test _ _
  · exact .next _

theorem answers_execTimeSetDone (s : State) : Answers (execTimeSetDone s) := by
  unfold execTimeSetDone
  split
  · exact .test _ _
  · exact .next _

theorem answers_execTdcPairTimeout {u} (s : State) : Answers (execTdcPairTimeout u s) := by
  unfold execTdcPairTimeout
  split
  · exact .test _ _
  · exact .next _

theorem answers_execCalRunComplete {k idx a0 a1 b0 b1} (s : State) : Answers (execCalRunComplete k idx a0 a1 b0 b1 s) := by
  unfold execCalRunComplete
  exact .ite (.next _) (.ite (.next _) (.test _ _))

theorem answers_execNotchSearch {n k lines depth pwr floor follow} (s : State) : Answers (execNotchSearch n k lines depth pwr floor follow s) := by
  unfold execNotchSearch
  refine .ite (.next _) (.ite (.next _) (.ite ?_ ?_))
  · split
    · exact .next _
    · exact .next _
  · split
    · exact .next _
    · exact .next _

theorem answers_execEpochEnd {c data pilot half cn0} (s : State) : Answers (execEpochEnd c data pilot half cn0 () s) := by
  unfold execEpochEnd
  split
  · exact .next _
  · exact .test _ _

theorem answers_execRangingExchange {j p good aFar sFar} (s : State) : Answers (execRangingExchange j p good aFar sFar s) := by
  unfold execRangingExchange
  refine .ite ?_ (.next _)
  dsimp only
  split
  · exact .next _
  · split
    · exact .next _
    · exact .next _

theorem answers_execSuperblockReceive {l line fix ppt sub} (s : State) : Answers (execSuperblockReceive l line fix ppt sub s) := by
  unfold execSuperblockReceive
  split
  · exact .next _
  · exact .ite (.next _) (.test _ _)

theorem answers_execCdrLock {l} (s : State) : Answers (execCdrLock l s) := by
  unfold execCdrLock
  split
  · exact .next _
  · exact .test _ _

theorem answers_execUpstreamSelect (s : State) : Answers (execUpstreamSelect s) := by
  unfold execUpstreamSelect
  refine .ite ?_ ?_
  · split
    · exact .test _ _
    · exact .next _
  · split
    · exact .next _
    · exact .test _ _

theorem answers_execLocalTimeMessage {p sec utc} (s : State) : Answers (execLocalTimeMessage p sec utc s) := by
  unfold execLocalTimeMessage
  split
  · exact .test _ _
  · exact .next _

theorem answers_execCrossbarGrant {e} (s : State) : Answers (execCrossbarGrant e s) := by
  unfold execCrossbarGrant
  refine .ite (.next _) ?_
  split
  · exact .next _
  · split
    · exact .next _
    · exact .next _

theorem answers_execCrossbarTimeoutDrop {ing e l} (s : State) : Answers (execCrossbarTimeoutDrop ing e l s) := by
  unfold execCrossbarTimeoutDrop
  dsimp only
  split
  · exact .next _
  · exact .test _ _

theorem answers_execFrameTransmit {p : Fin 137} (s : State) : Answers (execFrameTransmit p s) := by
  unfold execFrameTransmit
  refine .ite (.next _) (.ite (.next _) (.ite (.next _) ?_))
  dsimp only
  split
  · exact .next _
  · exact .next _

theorem answers_execLearnCommit (s : State) : Answers (execLearnCommit s) := by
  unfold execLearnCommit
  split
  · exact .next _
  · split
    · exact .next _
    · exact .next _

theorem answers_execAgeDeleteCommit (s : State) : Answers (execAgeDeleteCommit s) := by
  unfold execAgeDeleteCommit
  split
  · exact .next _
  · exact .test _ _

theorem answers_execLockExpired {b} (s : State) : Answers (execLockExpired b s) := by
  unfold execLockExpired
  split
  · exact .test _ _
  · exact .next _

theorem answers_execCueValidated {n} (s : State) : Answers (execCueValidated n s) := by
  unfold execCueValidated
  split
  · exact .next _
  · exact .next _

theorem answers_execCueCommit (s : State) : Answers (execCueCommit s) := by
  unfold execCueCommit
  split
  · exact .next _
  · exact .next _

theorem answers_execScheduleChangeAtB {p} (s : State) : Answers (execScheduleChangeAtB p s) := by
  unfold execScheduleChangeAtB
  dsimp only
  split
  · exact .next _
  · exact .next _

theorem answers_execPresenceSend (s : State) : Answers (execPresenceSend s) := by
  unfold execPresenceSend
  split
  · exact .test _ _
  · exact .next _

theorem answers_execArmDeadline (s : State) : Answers (execArmDeadline s) := by
  unfold execArmDeadline
  split
  · exact .next _
  · exact .next _

theorem answers_execFabricCueTimeout (s : State) : Answers (execFabricCueTimeout s) := by
  unfold execFabricCueTimeout
  split
  · exact .next _
  · exact .next _

theorem answers_execResultWindowExpiry (s : State) : Answers (execResultWindowExpiry s) := by
  unfold execResultWindowExpiry
  split
  · exact .next _
  · exact .next _

theorem answers_execJobMoveStart {h : BitVec 16} (s : State) : Answers (execJobMoveStart h () s) := by
  unfold execJobMoveStart
  split
  · exact .next _
  · refine .ite (.next _) ?_
    split
    · exact .next _
    · exact .test _ _

theorem answers_execJobStateCopy {h} (s : State) : Answers (execJobStateCopy h s) := by
  unfold execJobStateCopy
  split
  · split
    · exact .test _ _
    · exact .next _
  · exact .next _

theorem answers_execE131SourceTimeout {h} (s : State) : Answers (execE131SourceTimeout h s) := by
  unfold execE131SourceTimeout
  split
  · exact .test _ _
  · exact .next _

theorem answers_execE131Keepalive {h} (s : State) : Answers (execE131Keepalive h s) := by
  unfold execE131Keepalive
  split
  · exact .test _ _
  · exact .next _

theorem answers_execTxDescriptor {n d data} (s : State) : Answers (execTxDescriptor n d data s) := by
  unfold execTxDescriptor
  exact .ite (.next _) (.ite (.next _) (.test _ _))

theorem answers_execRxFrameDelivery {descs} (s : State) : Answers (execRxFrameDelivery descs s) := by
  unfold execRxFrameDelivery
  refine .ite (.next _) ?_
  split
  · exact .next _
  · exact .next _
  · exact .next _

theorem answers_execCompletionResume {n} (s : State) : Answers (execCompletionResume n s) := by
  unfold execCompletionResume
  split
  · exact .next _
  · exact .test _ _

theorem answers_execPerstDeassert (s : State) : Answers (execPerstDeassert s) := by
  unfold execPerstDeassert
  split
  · exact .next _
  · exact .test _ _

theorem answers_execP2Commit (s : State) : Answers (execP2Commit s) := by
  unfold execP2Commit
  split
  · exact .test _ _
  · exact .next _

theorem answers_execP2EntryDone (s : State) : Answers (execP2EntryDone s) := by
  unfold execP2EntryDone
  split
  · exact .next _
  · exact .next _

theorem answers_execP2DepartureDone (s : State) : Answers (execP2DepartureDone s) := by
  unfold execP2DepartureDone
  split
  · exact .next _
  · exact .next _

theorem answers_execP3LinkReady {ready} (s : State) : Answers (execP3LinkReady ready s) := by
  unfold execP3LinkReady
  split
  · exact .test _ _
  · exact .next _

theorem answers_execP3RestartDone (s : State) : Answers (execP3RestartDone s) := by
  unfold execP3RestartDone
  split
  · exact .test _ _
  · exact .next _

theorem answers_execFeedRevert (s : State) : Answers (execFeedRevert s) := by
  unfold execFeedRevert
  split
  · exact .test _ _
  · exact .next _

theorem answers_execChargeTimeout {v} (s : State) : Answers (execChargeTimeout v s) := by
  unfold execChargeTimeout
  split
  · exact .test _ _
  · exact .next _

theorem answers_execSupplyFault {m} (s : State) : Answers (execSupplyFault m s) := by
  unfold execSupplyFault
  split
  · exact .test _ _
  · exact .next _

theorem answers_execConfigImageApply (s : State) : Answers (execConfigImageApply s) := by
  unfold execConfigImageApply
  refine .ite ?_ (.next _)
  split
  · exact .next _
  · exact .next _

theorem answers_execJtagExtest (s : State) : Answers (execJtagExtest s) := by
  unfold execJtagExtest
  split
  · exact .next _
  · exact .test _ _

theorem answers_execJtagHighz (s : State) : Answers (execJtagHighz s) := by
  unfold execJtagHighz
  split
  · exact .next _
  · exact .test _ _

theorem answers_execTimeSolutionUpdate {x px py pz} (s : State) : Answers (execTimeSolutionUpdate x px py pz s) := by
  unfold execTimeSolutionUpdate
  exact .ite (.next _) (.ite (.test _ _) (.next _))

theorem answers_execPtpPortStateChange {p st mpd} (s : State) : Answers (execPtpPortStateChange p st mpd s) := by
  unfold execPtpPortStateChange
  exact .ite (.next _) (.ite (.next _) (.test _ _))

theorem answers_execPcieLinkChange {link width speed} (s : State) : Answers (execPcieLinkChange link width speed s) := by
  unfold execPcieLinkChange
  exact .ite (.next _) (.ite (.next _) (.test _ _))

theorem answers_execPcieConfigRequest {x} (s : State) : Answers (execPcieConfigRequest x s) := by
  unfold execPcieConfigRequest
  refine .ite (.next _) (.ite (.next _) ?_)
  split
  all_goals exact .next _

/-- No meaning refuses or faults: it is a next state, or one on either side of a condition, or by the cases of an operand or a record. -/
theorem exec_answers (s : State) : ∀ c : Instr, Answers (exec c s)
  | .registerWrite .. | .reservedRangeAccess .. | .blkErrRead .. | .registerReadParityError .. | .counterRead .. | .counterLowHalfRead ..
  | .blkLockWrite .. | .snapshotPort .. | .snapshotPavilion .. | .snapshotChip .. | .dwFirstWrite .. | .dwComplementWrite .. | .modeKeyWrite ..
  | .modeKeyExpiry .. | .modeChange .. | .refConfigWrite .. | .refPulseArrival .. | .refActivityLost .. | .dpllModeWrite .. | .outputEnableSet ..
  | .outputEnableClear .. | .outputDelayWrite .. | .sundialTick .. | .domainSelectWrite .. | .timeOutputEnable .. | .timeOutputDisable ..
  | .outputAdjWrite .. | .compareArm .. | .compareDisarm .. | .captureCounters .. | .timeSetStep .. | .timeSetSlew .. | .timeWordReceive ..
  | .ptpConfigWrite .. | .tdcEdge .. | .tdcArmContinuous .. | .tdcArmGate .. | .tdcArmCompare .. | .tdcDisarm .. | .tdcGateRise .. | .tdcGateFall ..
  | .tdcResultRead .. | .tdcDiffConfigWrite .. | .calCommandOffset .. | .calCommandTrunk .. | .calCommandAsym .. | .calApplyStep ..
  | .calEnableWrite .. | .acqGo .. | .channelNcoWrite .. | .channelSlewWrite .. | .ownerWrite .. | .snapshotGo .. | .snapshotRelease ..
  | .grottoGo .. | .grottoCancel .. | .gnssDisable .. | .portEnable .. | .portDisable .. | .frameReceive .. | .superblockTransmit .. | .cdrLoss ..
  | .txpllLoss .. | .eyeScanGo .. | .eyeScanStop .. | .gateEntryChange .. | .schedulerEnable .. | .schedulerDisable .. | .flushComplete ..
  | .agerVisit .. | .tableRead .. | .tableWrite .. | .tableInsert .. | .tableDelete .. | .tableSearch .. | .tableFlush .. | .snapshotRead ..
  | .tblLockSet .. | .tblLockClr .. | .cueCommitting | .cueCancel .. | .cleanSwitchPoint | .cswForced | .presenceReceive .. | .prepareReceive ..
  | .readyReceive .. | .armReceive .. | .abortReceive .. | .resultReceive .. | .audioInPacket .. | .e131Packet .. | .st20227Packet ..
  | .createJob .. | .deleteJob .. | .setParam .. | .loadSet .. | .createStream .. | .deleteStream .. | .readJob .. | .cellEvacuate ..
  | .cellReturn .. | .ringEnable .. | .ringDisable .. | .cqEnable .. | .cqDisable .. | .ringDoorbell .. | .cqDoorbell .. | .cqRearm ..
  | .pendSetWrite .. | .pendClrWrite .. | .maskSetWrite .. | .maskClrWrite .. | .irqTargetWrite .. | .irqClaim .. | .irqEoi .. | .stackClear ..
  | .wakeEntryWrite .. | .powerRequestP0 .. | .powerRequestP1 .. | .powerRequestP2 .. | .powerRequestP3 .. | .lodgePps | .alarmSet ..
  | .trunkWakeSend .. | .nvmWindowWrite .. | .nvmWriteDone .. | .histogramEnable .. | .histogramDisable .. | .lodgePowerOn | .clearOnRead ..
  | .timeBusLatencyMeasured => .next _
  | .foffUpdate .. | .slotQualified .. | .selectionTick .. | .dpllLocked .. | .holdoverBin .. | .holdoverSecond .. | .apllLossOfLock | .apllLock ..
  | .bypassReturn | .bypassIncScale | .delayWalkDone .. | .domainStep .. | .slewDone .. | .compareFire .. | .timeWordSend ..
  | .tdcIdleCalibration .. | .calTrigger .. | .calDeferredStart .. | .notchRelease .. | .acqDone .. | .timeMessage .. | .belvederePps ..
  | .gnssUtcLoad | .snapshotCaptureStart .. | .snapshotCaptureEnd .. | .grottoChannelClaim .. | .grottoWaitTimeout .. | .grottoPeerTimeout ..
  | .grottoDone .. | .ethLinkUp .. | .ethLinkDown .. | .negWordReceive .. | .rateStep .. | .txpllLock .. | .trainComplete .. | .verifyComplete ..
  | .bringupTimeout .. | .rateFallback .. | .phaseSlip .. | .eyeScanDone .. | .schedulerStopped .. | .tierMoveStart .. | .tierMoveDone ..
  | .moveWindowExpiry .. | .flapHoldEnd .. | .refreshCommit .. | .ageTick | .portDownTableFlush .. | .tableFlushDone | .cueSubmit ..
  | .blockBoundary .. | .cellReady .. | .ringStopped .. | .cqFire .. | .linkL0Reached | .dmaReadError .. | .hostPortDown .. | .hostPortUp
  | .functionLevelReset | .perstAssert | .p1EntryDone | .p0ReturnDone | .pavilionGate .. | .pavilionUngateDone .. | .p3SundialLastPps | .p3EntryDone
  | .p3Restart | .sundialLodgeLoad | .lodgeSync | .oscinLapse | .lodgeAlarm | .wakePinEdge .. | .trunkWakeSendDone | .trunkWakeReceive ..
  | .feedLost .. | .feedReturn .. | .lodgeStop | .chargeComplete .. | .fieldShort .. | .fieldRetry .. | .sensorRead .. | .supplyRead ..
  | .eccUncorrectable .. | .lodgeStart .. | .railEnable | .railGoodRise | .railGoodTimeout | .railGoodFall | .railOffHoldEnd | .chipResetPin ..
  | .chipReset .. | .chipResetRelease | .firmwareLoad .. | .gatehouseReady | .testenHigh .. | .jtagBypass | .jtagIdcode | .jtagSamplePreload ..
  | .oscinReturn | .calRangingTimeout .. | .antennaFaultChange .. => .test _ _
  | .bar2ReservedWrite .. => answers_execBar2ReservedWrite s
  | .dwWindowExpiry .. => answers_execDwWindowExpiry s
  | .autoDomainSwitch => answers_execAutoDomainSwitch s
  | .leapSecond => answers_execLeapSecond s
  | .timeSetDone => answers_execTimeSetDone s
  | .tdcPairTimeout .. => answers_execTdcPairTimeout s
  | .calRunComplete .. => answers_execCalRunComplete s
  | .notchSearch .. => answers_execNotchSearch s
  | .epochEnd .. => answers_execEpochEnd s
  | .rangingExchange .. => answers_execRangingExchange s
  | .superblockReceive .. => answers_execSuperblockReceive s
  | .cdrLock .. => answers_execCdrLock s
  | .upstreamSelect => answers_execUpstreamSelect s
  | .localTimeMessage .. => answers_execLocalTimeMessage s
  | .crossbarGrant .. => answers_execCrossbarGrant s
  | .crossbarTimeoutDrop .. => answers_execCrossbarTimeoutDrop s
  | .frameTransmit .. => answers_execFrameTransmit s
  | .learnCommit => answers_execLearnCommit s
  | .ageDeleteCommit => answers_execAgeDeleteCommit s
  | .lockExpired .. => answers_execLockExpired s
  | .cueValidated .. => answers_execCueValidated s
  | .cueCommit => answers_execCueCommit s
  | .scheduleChangeAtB .. => answers_execScheduleChangeAtB s
  | .presenceSend => answers_execPresenceSend s
  | .armDeadline => answers_execArmDeadline s
  | .fabricCueTimeout => answers_execFabricCueTimeout s
  | .resultWindowExpiry => answers_execResultWindowExpiry s
  | .jobMoveStart .. => answers_execJobMoveStart s
  | .jobStateCopy .. => answers_execJobStateCopy s
  | .e131SourceTimeout .. => answers_execE131SourceTimeout s
  | .e131Keepalive .. => answers_execE131Keepalive s
  | .txDescriptor .. => answers_execTxDescriptor s
  | .rxFrameDelivery .. => answers_execRxFrameDelivery s
  | .completionResume .. => answers_execCompletionResume s
  | .perstDeassert => answers_execPerstDeassert s
  | .p2Commit => answers_execP2Commit s
  | .p2EntryDone => answers_execP2EntryDone s
  | .p2DepartureDone => answers_execP2DepartureDone s
  | .p3LinkReady .. => answers_execP3LinkReady s
  | .p3RestartDone => answers_execP3RestartDone s
  | .feedRevert => answers_execFeedRevert s
  | .chargeTimeout .. => answers_execChargeTimeout s
  | .supplyFault .. => answers_execSupplyFault s
  | .configImageApply => answers_execConfigImageApply s
  | .jtagExtest => answers_execJtagExtest s
  | .jtagHighz => answers_execJtagHighz s
  | .timeSolutionUpdate .. => answers_execTimeSolutionUpdate s
  | .ptpPortStateChange .. => answers_execPtpPortStateChange s
  | .pcieLinkChange .. => answers_execPcieLinkChange s
  | .pcieConfigRequest .. => answers_execPcieConfigRequest s

/-! ### What every command keeps -/

/-- Every command but the two that complete an NVM write and release the chip keeps all of `Kept`. -/
theorem kept_exec (s : State) : ∀ c : Instr, (∀ fail, c ≠ .nvmWriteDone fail) → c ≠ .chipResetRelease → KeptR s (exec c s)
  | .nvmWriteDone fail, h, _ => absurd rfl (h fail)
  | .chipResetRelease, _, h => absurd rfl h
  | .registerWrite .., _, _ => kept_execRegisterWrite (.refl s) _ _ _ _ _
  | .reservedRangeAccess .., _, _ => kept_execReservedRangeAccess (.refl s) _ _ _ _
  | .bar2ReservedWrite .., _, _ => kept_execBar2ReservedWrite (.refl s) _ _
  | .blkErrRead .., _, _ => kept_execBlkErrRead (.refl s) _ _ _
  | .registerReadParityError .., _, _ => kept_execRegisterReadParityError (.refl s) _ _ _
  | .counterRead .., _, _ => kept_execCounterRead (.refl s) _ _ _
  | .counterLowHalfRead .., _, _ => kept_execCounterLowHalfRead (.refl s) _ _ _
  | .blkLockWrite .., _, _ => kept_execBlkLockWrite (.refl s) _ _ _ _
  | .snapshotPort .., _, _ => kept_execSnapshotPort (.refl s) _ _ _ _
  | .snapshotPavilion .., _, _ => kept_execSnapshotPavilion (.refl s) _ _ _ _
  | .snapshotChip .., _, _ => kept_execSnapshotChip (.refl s) _ _ _ _
  | .dwFirstWrite .., _, _ => kept_execDwFirstWrite (.refl s) _ _ _ _
  | .dwComplementWrite .., _, _ => kept_execDwComplementWrite (.refl s) _ _ _ _
  | .dwWindowExpiry .., _, _ => kept_execDwWindowExpiry (.refl s) _ _
  | .modeKeyWrite .., _, _ => kept_execModeKeyWrite (.refl s) _ _ _
  | .modeKeyExpiry .., _, _ => kept_execModeKeyExpiry (.refl s) _
  | .modeChange .., _, _ => kept_execModeChange (.refl s) _ _ _
  | .refConfigWrite .., _, _ => kept_execRefConfigWrite (.refl s) _ _ _ _ _
  | .refPulseArrival .., _, _ => kept_execRefPulseArrival (.refl s) _ _
  | .refActivityLost .., _, _ => kept_execRefActivityLost (.refl s) _
  | .foffUpdate .., _, _ => kept_execFoffUpdate (.refl s) _ _
  | .slotQualified .., _, _ => kept_execSlotQualified (.refl s) _
  | .selectionTick .., _, _ => kept_execSelectionTick (.refl s) _
  | .dpllModeWrite .., _, _ => kept_execDpllModeWrite (.refl s) _ _ _ _
  | .dpllLocked .., _, _ => kept_execDpllLocked (.refl s) _
  | .holdoverBin .., _, _ => kept_execHoldoverBin (.refl s) _ _ _
  | .holdoverSecond .., _, _ => kept_execHoldoverSecond (.refl s) _
  | .apllLossOfLock, _, _ => kept_execApllLossOfLock (.refl s)
  | .apllLock .., _, _ => kept_execApllLock (.refl s) _
  | .bypassReturn, _, _ => kept_execBypassReturn (.refl s)
  | .bypassIncScale, _, _ => kept_execBypassIncScale (.refl s)
  | .outputEnableSet .., _, _ => kept_execOutputEnableSet (.refl s) _ _ _
  | .outputEnableClear .., _, _ => kept_execOutputEnableClear (.refl s) _ _ _
  | .outputDelayWrite .., _, _ => kept_execOutputDelayWrite (.refl s) _ _ _ _
  | .delayWalkDone .., _, _ => kept_execDelayWalkDone (.refl s) _
  | .sundialTick .., _, _ => kept_execSundialTick (.refl s) _
  | .domainStep .., _, _ => kept_execDomainStep (.refl s) _
  | .slewDone .., _, _ => kept_execSlewDone (.refl s) _
  | .domainSelectWrite .., _, _ => kept_execDomainSelectWrite (.refl s) _ _ _
  | .autoDomainSwitch, _, _ => kept_execAutoDomainSwitch (.refl s)
  | .leapSecond, _, _ => kept_execLeapSecond (.refl s)
  | .timeOutputEnable .., _, _ => kept_execTimeOutputEnable (.refl s) _ _ _ _
  | .timeOutputDisable .., _, _ => kept_execTimeOutputDisable (.refl s) _ _ _ _
  | .outputAdjWrite .., _, _ => kept_execOutputAdjWrite (.refl s) _ _ _ _
  | .compareArm .., _, _ => kept_execCompareArm (.refl s) _ _ _ _
  | .compareDisarm .., _, _ => kept_execCompareDisarm (.refl s) _ _ _ _
  | .compareFire .., _, _ => kept_execCompareFire (.refl s) _
  | .captureCounters .., _, _ => kept_execCaptureCounters (.refl s) _ _ _
  | .timeSetStep .., _, _ => kept_execTimeSetStep (.refl s) _ _ _
  | .timeSetSlew .., _, _ => kept_execTimeSetSlew (.refl s) _ _ _
  | .timeSetDone, _, _ => kept_execTimeSetDone (.refl s)
  | .timeWordSend .., _, _ => kept_execTimeWordSend (.refl s) _ _ _
  | .timeWordReceive .., _, _ => kept_execTimeWordReceive (.refl s) _ _ _
  | .ptpConfigWrite .., _, _ => kept_execPtpConfigWrite (.refl s) _ _ _ _
  | .tdcEdge .., _, _ => kept_execTdcEdge (.refl s) _ _ _ _ _
  | .tdcPairTimeout .., _, _ => kept_execTdcPairTimeout (.refl s) _
  | .tdcIdleCalibration .., _, _ => kept_execTdcIdleCalibration (.refl s) _ _ _
  | .tdcArmContinuous .., _, _ => kept_execTdcArmContinuous (.refl s) _ _ _ _
  | .tdcArmGate .., _, _ => kept_execTdcArmGate (.refl s) _ _ _ _
  | .tdcArmCompare .., _, _ => kept_execTdcArmCompare (.refl s) _ _ _ _
  | .tdcDisarm .., _, _ => kept_execTdcDisarm (.refl s) _ _ _ _
  | .tdcGateRise .., _, _ => kept_execTdcGateRise (.refl s) _
  | .tdcGateFall .., _, _ => kept_execTdcGateFall (.refl s) _
  | .tdcResultRead .., _, _ => kept_execTdcResultRead (.refl s) _ _ _
  | .tdcDiffConfigWrite .., _, _ => kept_execTdcDiffConfigWrite (.refl s) _ _ _ _
  | .calTrigger .., _, _ => kept_execCalTrigger (.refl s) _ _
  | .calCommandOffset .., _, _ => kept_execCalCommandOffset (.refl s) _ _ _
  | .calCommandTrunk .., _, _ => kept_execCalCommandTrunk (.refl s) _ _ _
  | .calCommandAsym .., _, _ => kept_execCalCommandAsym (.refl s) _ _ _
  | .calDeferredStart .., _, _ => kept_execCalDeferredStart (.refl s) _
  | .calRunComplete .., _, _ => kept_execCalRunComplete (.refl s) _ _ _ _ _ _
  | .calApplyStep .., _, _ => kept_execCalApplyStep (.refl s) _ _
  | .calEnableWrite .., _, _ => kept_execCalEnableWrite (.refl s) _ _ _
  | .notchSearch .., _, _ => kept_execNotchSearch (.refl s) _ _ _ _ _ _ _
  | .notchRelease .., _, _ => kept_execNotchRelease (.refl s) _ _
  | .acqGo .., _, _ => kept_execAcqGo (.refl s) _ _ _
  | .acqDone .., _, _ => kept_execAcqDone (.refl s) _ _ _ _
  | .epochEnd .., _, _ => kept_execEpochEnd (.refl s) _ _ _ _ _ ()
  | .channelNcoWrite .., _, _ => kept_execChannelNcoWrite (.refl s) _ _ _ _ _
  | .channelSlewWrite .., _, _ => kept_execChannelSlewWrite (.refl s) _ _ _ _
  | .ownerWrite .., _, _ => kept_execOwnerWrite (.refl s) _ _ _ _
  | .timeMessage .., _, _ => kept_execTimeMessage (.refl s) _ _ _ _ _ _
  | .belvederePps .., _, _ => kept_execBelvederePps (.refl s) _ ()
  | .gnssUtcLoad, _, _ => kept_execGnssUtcLoad (.refl s)
  | .snapshotGo .., _, _ => kept_execSnapshotGo (.refl s) _ _ _
  | .snapshotCaptureStart .., _, _ => kept_execSnapshotCaptureStart (.refl s) _ ()
  | .snapshotCaptureEnd .., _, _ => kept_execSnapshotCaptureEnd (.refl s) _ () () () ()
  | .snapshotRelease .., _, _ => kept_execSnapshotRelease (.refl s) _ _ _
  | .grottoGo .., _, _ => kept_execGrottoGo (.refl s) _ _ _ _
  | .grottoChannelClaim .., _, _ => kept_execGrottoChannelClaim (.refl s) _
  | .grottoWaitTimeout .., _, _ => kept_execGrottoWaitTimeout (.refl s) _
  | .rangingExchange .., _, _ => kept_execRangingExchange (.refl s) _ _ _ _ _
  | .grottoPeerTimeout .., _, _ => kept_execGrottoPeerTimeout (.refl s) _
  | .grottoDone .., _, _ => kept_execGrottoDone (.refl s) _ () () ()
  | .grottoCancel .., _, _ => kept_execGrottoCancel (.refl s) _ _ _ _
  | .gnssDisable .., _, _ => kept_execGnssDisable (.refl s) _ _ _
  | .portEnable .., _, _ => kept_execPortEnable (.refl s) _ _ _ _
  | .portDisable .., _, _ => kept_execPortDisable (.refl s) _ _ _ _
  | .frameReceive .., _, _ => kept_execFrameReceive (.refl s) _ _ _ _ _ _
  | .ethLinkUp .., _, _ => kept_execEthLinkUp (.refl s) _
  | .ethLinkDown .., _, _ => kept_execEthLinkDown (.refl s) _ _ _
  | .superblockTransmit .., _, _ => kept_execSuperblockTransmit (.refl s) _
  | .superblockReceive .., _, _ => kept_execSuperblockReceive (.refl s) _ _ _ _ _
  | .cdrLock .., _, _ => kept_execCdrLock (.refl s) _
  | .cdrLoss .., _, _ => kept_execCdrLoss (.refl s) _
  | .negWordReceive .., _, _ => kept_execNegWordReceive (.refl s) _ _ _
  | .rateStep .., _, _ => kept_execRateStep (.refl s) _
  | .txpllLock .., _, _ => kept_execTxpllLock (.refl s) _
  | .trainComplete .., _, _ => kept_execTrainComplete (.refl s) _
  | .verifyComplete .., _, _ => kept_execVerifyComplete (.refl s) _
  | .bringupTimeout .., _, _ => kept_execBringupTimeout (.refl s) _
  | .rateFallback .., _, _ => kept_execRateFallback (.refl s) _
  | .phaseSlip .., _, _ => kept_execPhaseSlip (.refl s) _
  | .txpllLoss .., _, _ => kept_execTxpllLoss (.refl s) _
  | .upstreamSelect, _, _ => kept_execUpstreamSelect (.refl s)
  | .localTimeMessage .., _, _ => kept_execLocalTimeMessage (.refl s) _ _ _
  | .eyeScanGo .., _, _ => kept_execEyeScanGo (.refl s) _ _ _ _
  | .eyeScanStop .., _, _ => kept_execEyeScanStop (.refl s) _ _ _ _
  | .eyeScanDone .., _, _ => kept_execEyeScanDone (.refl s) _ _
  | .crossbarGrant .., _, _ => kept_execCrossbarGrant (.refl s) _
  | .crossbarTimeoutDrop .., _, _ => kept_execCrossbarTimeoutDrop (.refl s) _ _ _
  | .frameTransmit .., _, _ => kept_execFrameTransmit (.refl s) _
  | .gateEntryChange .., _, _ => kept_execGateEntryChange (.refl s) _
  | .schedulerEnable .., _, _ => kept_execSchedulerEnable (.refl s) _ _ _ _
  | .schedulerDisable .., _, _ => kept_execSchedulerDisable (.refl s) _ _ _ _
  | .schedulerStopped .., _, _ => kept_execSchedulerStopped (.refl s) _
  | .flushComplete .., _, _ => kept_execFlushComplete (.refl s) _
  | .tierMoveStart .., _, _ => kept_execTierMoveStart (.refl s) _ _
  | .tierMoveDone .., _, _ => kept_execTierMoveDone (.refl s) _ _
  | .learnCommit, _, _ => kept_execLearnCommit (.refl s)
  | .moveWindowExpiry .., _, _ => kept_execMoveWindowExpiry (.refl s) _ _
  | .flapHoldEnd .., _, _ => kept_execFlapHoldEnd (.refl s) _ _
  | .refreshCommit .., _, _ => kept_execRefreshCommit (.refl s) _
  | .ageTick, _, _ => kept_execAgeTick (.refl s)
  | .agerVisit .., _, _ => kept_execAgerVisit (.refl s) _ _
  | .ageDeleteCommit, _, _ => kept_execAgeDeleteCommit (.refl s)
  | .portDownTableFlush .., _, _ => kept_execPortDownTableFlush (.refl s) _
  | .tableRead .., _, _ => kept_execTableRead (.refl s) _ _
  | .tableWrite .., _, _ => kept_execTableWrite (.refl s) _ _ _
  | .tableInsert .., _, _ => kept_execTableInsert (.refl s) _ _ _
  | .tableDelete .., _, _ => kept_execTableDelete (.refl s) _ _ _
  | .tableSearch .., _, _ => kept_execTableSearch (.refl s) _ _ _
  | .tableFlush .., _, _ => kept_execTableFlush (.refl s) _ _
  | .tableFlushDone, _, _ => kept_execTableFlushDone (.refl s)
  | .snapshotRead .., _, _ => kept_execSnapshotRead (.refl s) _ _
  | .tblLockSet .., _, _ => kept_execTblLockSet (.refl s) _ _ _
  | .tblLockClr .., _, _ => kept_execTblLockClr (.refl s) _ _ _
  | .lockExpired .., _, _ => kept_execLockExpired (.refl s) _
  | .cueSubmit .., _, _ => kept_execCueSubmit (.refl s) _ _ _
  | .cueValidated .., _, _ => kept_execCueValidated (.refl s) _
  | .cueCommitting, _, _ => kept_execCueCommitting (.refl s)
  | .cueCommit, _, _ => kept_execCueCommit (.refl s)
  | .scheduleChangeAtB .., _, _ => kept_execScheduleChangeAtB (.refl s) _
  | .cueCancel .., _, _ => kept_execCueCancel (.refl s) _ _ _
  | .cleanSwitchPoint, _, _ => kept_execCleanSwitchPoint (.refl s)
  | .cswForced, _, _ => kept_execCswForced (.refl s)
  | .presenceSend, _, _ => kept_execPresenceSend (.refl s)
  | .presenceReceive .., _, _ => kept_execPresenceReceive (.refl s) _ _ _
  | .prepareReceive .., _, _ => kept_execPrepareReceive (.refl s) _ _ _
  | .readyReceive .., _, _ => kept_execReadyReceive (.refl s) _ _ _
  | .armReceive .., _, _ => kept_execArmReceive (.refl s) _ _ _
  | .abortReceive .., _, _ => kept_execAbortReceive (.refl s) _ _ _
  | .armDeadline, _, _ => kept_execArmDeadline (.refl s)
  | .fabricCueTimeout, _, _ => kept_execFabricCueTimeout (.refl s)
  | .resultReceive .., _, _ => kept_execResultReceive (.refl s) _ _ _
  | .resultWindowExpiry, _, _ => kept_execResultWindowExpiry (.refl s)
  | .blockBoundary .., _, _ => kept_execBlockBoundary (.refl s) _ _ _ _ () _
  | .jobMoveStart .., _, _ => kept_execJobMoveStart (.refl s) _ ()
  | .jobStateCopy .., _, _ => kept_execJobStateCopy (.refl s) _
  | .audioInPacket .., _, _ => kept_execAudioInPacket (.refl s) _
  | .e131Packet .., _, _ => kept_execE131Packet (.refl s) _
  | .e131SourceTimeout .., _, _ => kept_execE131SourceTimeout (.refl s) _
  | .e131Keepalive .., _, _ => kept_execE131Keepalive (.refl s) _
  | .st20227Packet .., _, _ => kept_execSt20227Packet (.refl s) _
  | .createJob .., _, _ => kept_execCreateJob (.refl s) _ _ _ _ ()
  | .deleteJob .., _, _ => kept_execDeleteJob (.refl s) _ _
  | .setParam .., _, _ => kept_execSetParam (.refl s) _ _
  | .loadSet .., _, _ => kept_execLoadSet (.refl s) _ _ _
  | .createStream .., _, _ => kept_execCreateStream (.refl s) _ _ _
  | .deleteStream .., _, _ => kept_execDeleteStream (.refl s) _ _
  | .readJob .., _, _ => kept_execReadJob (.refl s) _ _
  | .cellEvacuate .., _, _ => kept_execCellEvacuate (.refl s) _ _ _ _
  | .cellReturn .., _, _ => kept_execCellReturn (.refl s) _ _ _ _
  | .cellReady .., _, _ => kept_execCellReady (.refl s) _
  | .ringEnable .., _, _ => kept_execRingEnable (.refl s) _ _ _ _
  | .ringDisable .., _, _ => kept_execRingDisable (.refl s) _ _ _ _
  | .ringStopped .., _, _ => kept_execRingStopped (.refl s) _
  | .cqEnable .., _, _ => kept_execCqEnable (.refl s) _ _ _ _
  | .cqDisable .., _, _ => kept_execCqDisable (.refl s) _ _ _ _
  | .ringDoorbell .., _, _ => kept_execRingDoorbell (.refl s) _ _ _
  | .cqDoorbell .., _, _ => kept_execCqDoorbell (.refl s) _ _ _
  | .cqRearm .., _, _ => kept_execCqRearm (.refl s) _ _ _
  | .txDescriptor .., _, _ => kept_execTxDescriptor (.refl s) _ _ _
  | .rxFrameDelivery .., _, _ => kept_execRxFrameDelivery (.refl s) _
  | .completionResume .., _, _ => kept_execCompletionResume (.refl s) _
  | .cqFire .., _, _ => kept_execCqFire (.refl s) _
  | .linkL0Reached, _, _ => kept_execLinkL0Reached (.refl s)
  | .dmaReadError .., _, _ => kept_execDmaReadError (.refl s) _ _
  | .hostPortDown .., _, _ => kept_execHostPortDown (.refl s) _ _ _
  | .hostPortUp, _, _ => kept_execHostPortUp (.refl s)
  | .functionLevelReset, _, _ => kept_execFunctionLevelReset (.refl s)
  | .perstAssert, _, _ => kept_execPerstAssert (.refl s)
  | .perstDeassert, _, _ => kept_execPerstDeassert (.refl s)
  | .pendSetWrite .., _, _ => kept_execPendSetWrite (.refl s) _ _ _ _
  | .pendClrWrite .., _, _ => kept_execPendClrWrite (.refl s) _ _ _ _
  | .maskSetWrite .., _, _ => kept_execMaskSetWrite (.refl s) _ _ _ _
  | .maskClrWrite .., _, _ => kept_execMaskClrWrite (.refl s) _ _ _ _
  | .irqTargetWrite .., _, _ => kept_execIrqTargetWrite (.refl s) _ _ _ _
  | .irqClaim .., _, _ => kept_execIrqClaim (.refl s) _ _ _
  | .irqEoi .., _, _ => kept_execIrqEoi (.refl s) _ _ _ _
  | .stackClear .., _, _ => kept_execStackClear (.refl s) _ _ _
  | .wakeEntryWrite .., _, _ => kept_execWakeEntryWrite (.refl s) _ _ _ _
  | .powerRequestP0 .., _, _ => kept_execPowerRequestP0 (.refl s) _ _ _
  | .powerRequestP1 .., _, _ => kept_execPowerRequestP1 (.refl s) _ _ _
  | .powerRequestP2 .., _, _ => kept_execPowerRequestP2 (.refl s) _ _ _
  | .powerRequestP3 .., _, _ => kept_execPowerRequestP3 (.refl s) _ _ _
  | .p1EntryDone, _, _ => kept_execP1EntryDone (.refl s)
  | .p0ReturnDone, _, _ => kept_execP0ReturnDone (.refl s)
  | .pavilionGate .., _, _ => kept_execPavilionGate (.refl s) _
  | .pavilionUngateDone .., _, _ => kept_execPavilionUngateDone (.refl s) _
  | .p2Commit, _, _ => kept_execP2Commit (.refl s)
  | .p2EntryDone, _, _ => kept_execP2EntryDone (.refl s)
  | .p2DepartureDone, _, _ => kept_execP2DepartureDone (.refl s)
  | .p3LinkReady .., _, _ => kept_execP3LinkReady (.refl s) _
  | .p3SundialLastPps, _, _ => kept_execP3SundialLastPps (.refl s)
  | .p3EntryDone, _, _ => kept_execP3EntryDone (.refl s)
  | .p3Restart, _, _ => kept_execP3Restart (.refl s)
  | .sundialLodgeLoad, _, _ => kept_execSundialLodgeLoad (.refl s)
  | .p3RestartDone, _, _ => kept_execP3RestartDone (.refl s)
  | .lodgeSync, _, _ => kept_execLodgeSync (.refl s)
  | .lodgePps, _, _ => kept_execLodgePps (.refl s)
  | .oscinLapse, _, _ => kept_execOscinLapse (.refl s)
  | .alarmSet .., _, _ => kept_execAlarmSet (.refl s) _ _ _ _
  | .lodgeAlarm, _, _ => kept_execLodgeAlarm (.refl s)
  | .wakePinEdge .., _, _ => kept_execWakePinEdge (.refl s) _
  | .trunkWakeSend .., _, _ => kept_execTrunkWakeSend (.refl s) _ _ _
  | .trunkWakeSendDone, _, _ => kept_execTrunkWakeSendDone (.refl s)
  | .trunkWakeReceive .., _, _ => kept_execTrunkWakeReceive (.refl s) _ _
  | .feedLost .., _, _ => kept_execFeedLost (.refl s) _ _ _
  | .feedReturn .., _, _ => kept_execFeedReturn (.refl s) _ _ _
  | .feedRevert, _, _ => kept_execFeedRevert (.refl s)
  | .lodgeStop, _, _ => kept_execLodgeStop (.refl s)
  | .chargeComplete .., _, _ => kept_execChargeComplete (.refl s) _
  | .chargeTimeout .., _, _ => kept_execChargeTimeout (.refl s) _
  | .fieldShort .., _, _ => kept_execFieldShort (.refl s) _
  | .fieldRetry .., _, _ => kept_execFieldRetry (.refl s) _
  | .nvmWindowWrite .., _, _ => kept_execNvmWindowWrite (.refl s) _ _ _ _
  | .histogramEnable .., _, _ => kept_execHistogramEnable (.refl s) _ _ _ _ _
  | .histogramDisable .., _, _ => kept_execHistogramDisable (.refl s) _ _ _ _ _
  | .sensorRead .., _, _ => kept_execSensorRead (.refl s) _
  | .supplyRead .., _, _ => kept_execSupplyRead (.refl s) _
  | .supplyFault .., _, _ => kept_execSupplyFault (.refl s) _
  | .eccUncorrectable .., _, _ => kept_execEccUncorrectable (.refl s) _
  | .lodgePowerOn, _, _ => kept_execLodgePowerOn (.refl s)
  | .lodgeStart .., _, _ => kept_execLodgeStart (.refl s) _ _
  | .railEnable, _, _ => kept_execRailEnable (.refl s)
  | .railGoodRise, _, _ => kept_execRailGoodRise (.refl s)
  | .railGoodTimeout, _, _ => kept_execRailGoodTimeout (.refl s)
  | .railGoodFall, _, _ => kept_execRailGoodFall (.refl s)
  | .railOffHoldEnd, _, _ => kept_execRailOffHoldEnd (.refl s)
  | .chipResetPin .., _, _ => kept_execChipResetPin (.refl s) _
  | .chipReset .., _, _ => kept_execChipReset (.refl s) _
  | .firmwareLoad .., _, _ => kept_execFirmwareLoad (.refl s) _
  | .gatehouseReady, _, _ => kept_execGatehouseReady (.refl s)
  | .configImageApply, _, _ => kept_execConfigImageApply (.refl s)
  | .testenHigh .., _, _ => kept_execTestenHigh (.refl s) _
  | .jtagBypass, _, _ => kept_execJtagBypass (.refl s)
  | .jtagIdcode, _, _ => kept_execJtagIdcode (.refl s)
  | .jtagSamplePreload .., _, _ => kept_execJtagSamplePreload (.refl s) _ _
  | .jtagExtest, _, _ => kept_execJtagExtest (.refl s)
  | .jtagHighz, _, _ => kept_execJtagHighz (.refl s)
  | .oscinReturn, _, _ => kept_execOscinReturn (.refl s)
  | .clearOnRead .., _, _ => kept_execClearOnRead (.refl s) _ _ _
  | .timeBusLatencyMeasured, _, _ => kept_execTimeBusLatencyMeasured (.refl s)
  | .calRangingTimeout .., _, _ => kept_execCalRangingTimeout (.refl s) _
  | .antennaFaultChange .., _, _ => kept_execAntennaFaultChange (.refl s) _
  | .timeSolutionUpdate .., _, _ => kept_execTimeSolutionUpdate (.refl s) _ _ _ _
  | .ptpPortStateChange .., _, _ => kept_execPtpPortStateChange (.refl s) _ _ _
  | .pcieLinkChange .., _, _ => kept_execPcieLinkChange (.refl s) _ _ _
  | .pcieConfigRequest .., _, _ => kept_execPcieConfigRequest (.refl s) _

/-- What a command keeps, whichever it is: of all that `Kept` speaks of, only the bytes of the NVM and the hold in reset may have changed before, and the
bytes keep their canonical form. -/
theorem exec_kept {c : Instr} {s t : State} (h : exec c s = .next t) : ∃ bytes held, (BytesOk s.nvm.bytes → BytesOk bytes) ∧
    Kept { s with held := held, nvm := { s.nvm with bytes := bytes } } t := by
  by_cases hw : ∃ fail, c = .nvmWriteDone fail
  · obtain ⟨fail, rfl⟩ := hw
    obtain ⟨m, u, hu, hm, hk⟩ := execNvmWriteDone_kept fail s
    obtain rfl : u = t := Host.Outcome.next.inj (hu.symm.trans h)
    exact ⟨m, s.held, hm, hk⟩
  by_cases hr : c = .chipResetRelease
  · subst hr
    obtain ⟨u, hu, hk⟩ := execChipResetRelease_kept s
    obtain rfl : u = t := Host.Outcome.next.inj (hu.symm.trans h)
    exact ⟨s.nvm.bytes, false, id, hk⟩
  exact ⟨s.nvm.bytes, s.held, id, kept_exec s c (fun fail e => hw ⟨fail, e⟩) hr t h⟩

/-! ### A step -/

theorem step_nil {s : State} (h : s.pending = []) : step s = .next s := by rw [step, h]

theorem step_cons {s : State} {c : Instr} {rest : List Instr} (h : s.pending = c :: rest) : step s = exec c { s with pending := rest } := by
  rw [step, h]

/-- What a step keeps: as `exec_kept`, of the state whose queue has lost its front command. -/
theorem step_kept {s t : State} (h : step s = .next t) : ∃ bytes held, (BytesOk s.nvm.bytes → BytesOk bytes) ∧
    Kept { s with pending := s.pending.tail, held := held, nvm := { s.nvm with bytes := bytes } } t := by
  cases hp : s.pending with
  | nil =>
    rw [step_nil hp] at h
    obtain rfl : s = t := Host.Outcome.next.inj h
    refine ⟨s.nvm.bytes, s.held, id, ?_⟩
    rw [List.tail_nil, ← hp]
    exact Kept.refl s
  | cons c rest =>
    rw [step_cons hp] at h
    exact exec_kept h

theorem regsCanonical_iff {s : State} : s.regsCanonical ↔ RegsOk s.regs :=
  and_congr_left fun _ => ⟨AMap.rising_of_wf _, AMap.wf_of_rising _⟩

theorem nvmCanonical_iff {s : State} : s.nvmCanonical ↔ BytesOk s.nvm.bytes :=
  and_congr_left fun _ => ⟨AMap.rising_of_wf _, AMap.wf_of_rising _⟩

end Sys2Proof.Machine

/-! ### The obligations -/

open Sys2Proof Sys2Proof.Machine

/-- Settles O1: by the two arms of `step`. -/
theorem stepRunsTheFrontCommand : Obligations.StepRunsTheFrontCommand :=
  ⟨fun _ _ => rfl, fun _ h => step_nil h⟩

/-- Settles O2: the queue is empty, or its front command answers. -/
theorem everyStepAnswersANextState : Obligations.EveryStepAnswersANextState := by
  intro s
  cases hp : s.pending with
  | nil => exact ⟨s, step_nil hp⟩
  | cons c rest =>
    obtain ⟨t, ht⟩ := exec_answers { s with pending := rest } c
    exact ⟨t, (step_cons hp).trans ht⟩

/-- Settles O3: every operation keeps the register file's form, and the NVM's bytes change only in a form that is canonical again. -/
theorem everyStepKeepsTheCanonicalForm : Obligations.EveryStepKeepsTheCanonicalForm := by
  intro s t ⟨hregs, hnvm⟩ h
  obtain ⟨bytes, held, hbytes, kept⟩ := step_kept h
  refine ⟨regsCanonical_iff.mpr (kept.regs (regsCanonical_iff.mp hregs)), nvmCanonical_iff.mpr ?_⟩
  rw [kept.bytes]
  exact hbytes (nvmCanonical_iff.mp hnvm)

/-- Settles O4: both memories list nothing after reset. -/
theorem resetIsCanonical : Obligations.ResetIsCanonical :=
  ⟨⟨rfl, fun _ h => nomatch h⟩, ⟨rfl, fun _ h => nomatch h⟩⟩

/-- Settles O5: no operation touches the queue, so what is left is its tail. -/
theorem everyStepTakesExactlyOneCommand : Obligations.EveryStepTakesExactlyOneCommand := by
  intro s t h
  obtain ⟨_, _, _, kept⟩ := step_kept h
  exact kept.queue

/-- Settles O6: outputs are only added, time and the count of free values only go on. -/
theorem outputsAndTimeNeverRunBack : Obligations.OutputsAndTimeNeverRunBack := by
  intro s t h
  obtain ⟨_, _, _, kept⟩ := step_kept h
  exact ⟨kept.sent, kept.time, kept.fresh⟩

/-- Settles O7: every other command keeps the bytes, the release of the chip among them. -/
theorem onlyACompletedWriteChangesTheNvm : Obligations.OnlyACompletedWriteChangesTheNvm := by
  intro c s t hw h a
  suffices hb : t.nvm.bytes = s.nvm.bytes by rw [hb]
  by_cases hr : c = .chipResetRelease
  · subst hr
    obtain ⟨u, hu, kept⟩ := execChipResetRelease_kept s
    obtain rfl : u = t := Host.Outcome.next.inj (hu.symm.trans h)
    exact kept.bytes
  · exact (kept_exec s c hw hr t h).bytes

/-- Settles O8: a completed NVM write keeps the hold in reset as every other command does. -/
theorem onlyTheReleaseEndsAChipReset : Obligations.OnlyTheReleaseEndsAChipReset := by
  intro c s t hr held h
  by_cases hw : ∃ fail, c = .nvmWriteDone fail
  · obtain ⟨fail, rfl⟩ := hw
    obtain ⟨m, u, hu, _, kept⟩ := execNvmWriteDone_kept fail s
    obtain rfl : u = t := Host.Outcome.next.inj (hu.symm.trans h)
    exact kept.held held
  · exact (kept_exec s c (fun fail e => hw ⟨fail, e⟩) hr t h).held held
end

section
/-!
Proofs/WriteCommands: the commands that write one register. Each is a bus write at its register, so each statement comes to `busWrite_taken`.
-/
namespace Sys2Proof.Machine

open Claims in
/-- A command whose meaning is a bus write takes effect when its write is taken (R45, R89). -/
theorem next_busWrite_taken {s : State} {m : Master} {be : BitVec 4} {a : Nat} {v : Word} {x : Reg} (h : taken s m be a v x = true) :
    (.next (busWrite s m be a v false) : Result) = .next (written s m a v x) := by
  obtain ⟨reach, rfl, hcls, hcode⟩ := taken_iff.mp h
  obtain ⟨hm, h4, hx⟩ := reaches_iff.mp reach
  rw [busWrite_taken hm h4 hx hcls hcode, written]

end Sys2Proof.Machine

/-! ### The obligations -/

open Sys2Proof Sys2Proof.Machine

/-- Settles O26: every command of the statement is a bus write at its register. -/
theorem headerAndModeCommandsWriteTheirRegister : Obligations.HeaderAndModeCommandsWriteTheirRegister :=
  fun _ _ _ _ _ =>
    ⟨fun _ h => next_busWrite_taken h,
      fun _ h => next_busWrite_taken h,
      fun _ _ h => next_busWrite_taken h,
      fun _ _ h => next_busWrite_taken h,
      fun _ _ h => next_busWrite_taken h,
      next_busWrite_taken,
      next_busWrite_taken⟩

/-- Settles O27: every command of the statement is a bus write at its register. -/
theorem clockAndTimeCommandsWriteTheirRegister : Obligations.ClockAndTimeCommandsWriteTheirRegister :=
  fun _ _ _ _ _ =>
    ⟨fun _ _ h => next_busWrite_taken h,
      fun _ h => next_busWrite_taken h,
      next_busWrite_taken,
      next_busWrite_taken,
      fun _ h => next_busWrite_taken h,
      next_busWrite_taken,
      fun _ h => next_busWrite_taken h,
      fun _ h => next_busWrite_taken h,
      fun _ h => next_busWrite_taken h,
      fun _ h => next_busWrite_taken h,
      fun _ h => next_busWrite_taken h,
      next_busWrite_taken,
      next_busWrite_taken,
      next_busWrite_taken,
      fun _ h => next_busWrite_taken h⟩

/-- Settles O28: every command of the statement is a bus write at its register. -/
theorem measurementAndGnssCommandsWriteTheirRegister : Obligations.MeasurementAndGnssCommandsWriteTheirRegister :=
  fun _ _ _ _ _ =>
    ⟨fun _ h => next_busWrite_taken h,
      fun _ h => next_busWrite_taken h,
      fun _ h => next_busWrite_taken h,
      fun _ h => next_busWrite_taken h,
      fun _ h => next_busWrite_taken h,
      fun _ h => next_busWrite_taken h,
      fun _ h => next_busWrite_taken h,
      fun _ h => next_busWrite_taken h,
      next_busWrite_taken,
      next_busWrite_taken,
      fun _ _ h => next_busWrite_taken h,
      fun _ h => next_busWrite_taken h,
      fun _ h => next_busWrite_taken h,
      next_busWrite_taken,
      next_busWrite_taken,
      fun _ h => next_busWrite_taken h,
      fun _ h => next_busWrite_taken h,
      next_busWrite_taken⟩

/-- Settles O29: every command of the statement is a bus write at its register. -/
theorem portTableAndCueCommandsWriteTheirRegister : Obligations.PortTableAndCueCommandsWriteTheirRegister :=
  fun _ _ _ _ _ =>
    ⟨fun _ h => next_busWrite_taken h,
      fun _ h => next_busWrite_taken h,
      fun _ h => next_busWrite_taken h,
      fun _ h => next_busWrite_taken h,
      fun _ h => next_busWrite_taken h,
      fun _ h => next_busWrite_taken h,
      next_busWrite_taken,
      next_busWrite_taken,
      next_busWrite_taken,
      fun _ h => next_busWrite_taken h,
      fun _ h => next_busWrite_taken h⟩

/-- Settles O30: every command of the statement is a bus write at its register. -/
theorem hostIrqAndPowerCommandsWriteTheirRegister : Obligations.HostIrqAndPowerCommandsWriteTheirRegister :=
  fun _ _ _ _ _ =>
    ⟨fun _ h => next_busWrite_taken h,
      fun _ h => next_busWrite_taken h,
      fun _ h => next_busWrite_taken h,
      fun _ h => next_busWrite_taken h,
      fun _ h => next_busWrite_taken h,
      fun _ h => next_busWrite_taken h,
      fun _ h => next_busWrite_taken h,
      fun _ h => next_busWrite_taken h,
      fun _ h => next_busWrite_taken h,
      fun _ h => next_busWrite_taken h,
      next_busWrite_taken,
      fun _ h => next_busWrite_taken h,
      fun _ h => next_busWrite_taken h,
      fun _ h => next_busWrite_taken h,
      fun _ h => next_busWrite_taken h,
      fun _ h => next_busWrite_taken h,
      fun _ h => next_busWrite_taken h,
      next_busWrite_taken,
      fun _ h => next_busWrite_taken h,
      fun _ _ h => next_busWrite_taken h,
      fun _ _ h => next_busWrite_taken h⟩
end

section
/-!
Proofs/Windows: where the address of an access lies, and that a register's own offset resolves to itself.
-/
namespace Sys2Proof.Machine

/-! ### Where an address lies -/

/-- The chip-level blocks in the order of their windows (R39). -/
def chipTys : List BlkTy := [.chp, .clk, .sun, .tdc, .gns, .cue, .plc, .hif, .irq, .pwr, .mon, .nvm, .tbl, .xbr, .org]

/-- The blocks of a Pavilion in the order of their windows (R40). -/
def pavTys : List BlkTy := [.pav, .lan, .mac, .trk, .que, .lrn, .bst, .pmon]

theorem locate_chip {a : Nat} (h : a < 0x01000000) : locate a = (chipTys[a / 0x10000]?).map fun t => (⟨t, 0, 0⟩, a % 0x10000) := by
  unfold locate
  rw [if_pos h]
  generalize a % 0x10000 = o
  match a / 0x10000 with
  | 0 | 1 | 2 | 3 | 4 | 5 | 6 | 7 | 8 | 9 | 10 | 11 | 12 | 13 | 14 => rfl
  | _ + 15 => rfl

theorem locate_pav {r p : Nat} (hr : r < 8) (hp : p < 0x200000) : locate (pavBase r + p) = (pavTys[p / 0x10000]?).map fun t =>
    if t.slotted then (⟨t, r, p % 0x10000 / 0x1000⟩, p % 0x10000 % 0x1000) else (⟨t, r, 0⟩, p % 0x10000) := by
  have h1 : ¬(pavBase r + p < 0x01000000) := by unfold pavBase; omega
  have h2 : pavBase r + p < 0x02000000 := by unfold pavBase; omega
  have h3 : (pavBase r + p - 0x01000000) / 0x00200000 = r := by unfold pavBase; omega
  have h4 : (pavBase r + p - 0x01000000) % 0x00200000 = p := by unfold pavBase; omega
  unfold locate
  rw [if_neg h1, if_pos h2, h3, h4]
  dsimp only
  generalize p % 0x10000 = o
  match p / 0x10000 with
  | 0 | 1 | 2 | 3 | 4 | 5 | 6 | 7 => rfl
  | _ + 8 => rfl

theorem base_chip {q : Nat} {t : BlkTy} (h : chipTys[q]? = some t) : Block.base ⟨t, 0, 0⟩ = 0x10000 * q ∧ t.slotted = false ∧ q < 15 := by
  have all : ∀ q : Fin 15, Block.base ⟨chipTys[q], 0, 0⟩ = 0x10000 * q ∧ chipTys[q].slotted = false := by decide
  obtain ⟨hq, rfl⟩ := List.getElem?_eq_some_iff.mp h
  exact ⟨(all ⟨q, hq⟩).1, (all ⟨q, hq⟩).2, hq⟩

theorem base_pav {q r k : Nat} {t : BlkTy} (h : pavTys[q]? = some t) :
    Block.base ⟨t, r, k⟩ = pavBase r + (0x10000 * q + if t.slotted then 0x1000 * k else 0) ∧ q < 8 := by
  obtain ⟨hq, rfl⟩ := List.getElem?_eq_some_iff.mp h
  refine ⟨?_, hq⟩
  match q, hq with
  | 0, _ | 3, _ | 4, _ | 5, _ | 7, _ => simp [pavTys, Block.base, BlkTy.slotted]
  | 1, _ | 2, _ | 6, _ => simp [pavTys, Block.base, BlkTy.slotted]; omega

/-- How far the window of a block reaches (R39 to R41). -/
def Block.span (b : Block) : Nat := if b.ty.slotted then 0x1000 else 0x10000

/-- An address lies in the window of the block it is located in, and so does every offset of that window. -/
theorem locate_window {a o : Nat} {b : Block} (h : locate a = some (b, o)) :
    a = b.base + o ∧ o < b.span ∧ ∀ o' < b.span, locate (b.base + o') = some (b, o') := by
  by_cases hc : a < 0x01000000
  · rw [locate_chip hc, Option.map_eq_some_iff] at h
    obtain ⟨t, ht, he⟩ := h
    obtain ⟨rfl, rfl⟩ := Prod.mk.inj he
    obtain ⟨hb, hs, hq⟩ := base_chip ht
    have span : Block.span ⟨t, 0, 0⟩ = 0x10000 := by simp [Block.span, hs]
    rw [hb, span]
    refine ⟨by omega, by omega, fun o' ho => ?_⟩
    have hd : (0x10000 * (a / 0x10000) + o') / 0x10000 = a / 0x10000 := by omega
    have hm : (0x10000 * (a / 0x10000) + o') % 0x10000 = o' := by omega
    rw [locate_chip (by omega), hd, hm, ht, Option.map_some]
  by_cases ha : a < 0x02000000
  · obtain ⟨r, p, hr, hp, rfl⟩ : ∃ r p, r < 8 ∧ p < 0x200000 ∧ a = pavBase r + p :=
      ⟨(a - 0x01000000) / 0x200000, (a - 0x01000000) % 0x200000, by omega, by omega, by unfold pavBase; omega⟩
    rw [locate_pav hr hp, Option.map_eq_some_iff] at h
    obtain ⟨t, ht, he⟩ := h
    cases hs : t.slotted with
    | true =>
      rw [hs, if_pos rfl] at he
      obtain ⟨rfl, rfl⟩ := Prod.mk.inj he
      obtain ⟨hb, hq⟩ := base_pav (r := r) (k := p % 0x10000 / 0x1000) ht
      rw [hs, if_pos rfl] at hb
      have span : Block.span ⟨t, r, p % 0x10000 / 0x1000⟩ = 0x1000 := by simp [Block.span, hs]
      rw [hb, span]
      refine ⟨by omega, by omega, fun o' ho => ?_⟩
      generalize hP : 0x10000 * (p / 0x10000) + 0x1000 * (p % 0x10000 / 0x1000) + o' = P
      have hd : P / 0x10000 = p / 0x10000 := by omega
      have hk : P % 0x10000 / 0x1000 = p % 0x10000 / 0x1000 := by omega
      have ho : P % 0x10000 % 0x1000 = o' := by omega
      rw [Nat.add_assoc, hP, locate_pav hr (by omega), hd, ht, Option.map_some, if_pos hs, hk, ho]
    | false =>
      rw [hs] at he
      obtain ⟨rfl, rfl⟩ := Prod.mk.inj he
      obtain ⟨hb, hq⟩ := base_pav (r := r) (k := 0) ht
      rw [hs, if_neg (by decide)] at hb
      have span : Block.span ⟨t, r, 0⟩ = 0x10000 := by simp [Block.span, hs]
      rw [hb, span]
      refine ⟨by omega, by omega, fun o' ho => ?_⟩
      generalize hP : 0x10000 * (p / 0x10000) + 0 + o' = P
      have hd : P / 0x10000 = p / 0x10000 := by omega
      have ho : P % 0x10000 = o' := by omega
      rw [Nat.add_assoc, hP, locate_pav hr (by omega), hd, ht, Option.map_some, if_neg (by simp [hs]), ho]
  · unfold locate at h
    rw [if_neg hc, if_neg ha] at h
    cases h

theorem base_mod_four (b : Block) : b.base % 4 = 0 := by
  unfold Block.base pavBase
  split <;> omega

theorem decodeMask_mod_four (t : BlkTy) : t.decodeMask % 4 = 0 := by cases t <;> rfl

theorem decodeOff_le (b : Block) (o : Nat) : decodeOff b o ≤ o := Nat.and_le_left

theorem decodeOff_decodeOff (b : Block) (o : Nat) : decodeOff b (decodeOff b o) = decodeOff b o := by
  simp only [decodeOff, Nat.and_assoc, Nat.and_self]

theorem decodeOff_mod_four (b : Block) (o : Nat) : decodeOff b o % 4 = 0 := by
  have := Nat.and_mod_two_pow (a := o) (b := b.ty.decodeMask) (n := 2)
  simp only [decodeOff]
  rw [show (4:Nat) = 2^2 from rfl, this, show b.ty.decodeMask % 2^2 = 0 from decodeMask_mod_four _, Nat.and_zero]

theorem resolve_eq_some {a o : Nat} {b : Block} (h : resolve a = some (b, o)) : ∃ o', locate a = some (b, o') ∧ decodeOff b o' = o := by
  obtain ⟨p, hp, he⟩ := Option.map_eq_some_iff.mp h
  obtain ⟨rfl, rfl⟩ := Prod.mk.inj he
  exact ⟨p.2, hp, rfl⟩

/-- A register's own offset resolves to itself (R74, R75). -/
theorem resolve_own {a o : Nat} {b : Block} (h : resolve a = some (b, o)) : resolve (b.base + o) = some (b, o) ∧ (b.base + o) % 4 = 0 := by
  obtain ⟨o', hl, rfl⟩ := resolve_eq_some h
  obtain ⟨-, ho, window⟩ := locate_window hl
  have hb := base_mod_four b
  have hm := decodeOff_mod_four b o'
  refine ⟨?_, by omega⟩
  rw [resolve, window _ (Nat.lt_of_le_of_lt (decodeOff_le b o') ho), Option.map_some, decodeOff_decodeOff]

end Sys2Proof.Machine
end

section
/-!
Proofs/OwnOffset: header registers, accesses through aliased offsets, and registers without an effect of their own.
-/
namespace Sys2Proof.Machine

/-! ### The header of a block -/

/-- The offsets of the common header lie below every decode mask (R49, R74). -/
theorem decodeOff_header (b : Block) {k : Nat} (hk : k < 0x18) (h4 : k % 4 = 0) : decodeOff b k = k := by
  have all : ∀ t : BlkTy, ∀ j : Fin 6, (4 * j.val) &&& t.decodeMask = 4 * j.val := by
    intro t
    cases t <;> decide
  have := all b.ty ⟨k / 4, by omega⟩
  rwa [show 4 * (k / 4) = k by omega] at this

/-- The header register at offset `k` of a block (R49). -/
theorem regOf_header {a o k : Nat} {b : Block} {f : Found} (h : locate a = some (b, o)) (hk : k < 0x18) (h4 : k % 4 = 0)
    (hf : findRow (headerRows b.ty) k = some f) : regOf (b.base + k) = some ⟨b, k, f.row, f.i, f.j⟩ := by
  have span : k < b.span := by unfold Block.span; split <;> omega
  have hr : resolve (b.base + k) = some (b, k) := by
    rw [resolve, (locate_window h).2.2 k span, Option.map_some, decodeOff_header b hk h4]
  rw [regOf, hr]
  simp only [regAt, hk, if_true, hf, Option.map_some]

theorem headerAddr_eq {a o : Nat} {b : Block} (h : locate a = some (b, o)) (k : Nat) : headerAddr a k = b.base + k := by
  rw [headerAddr, h]

/-! ### Aliased addresses -/

theorem ownAddr_eq {a o : Nat} {b : Block} (h : resolve a = some (b, o)) : ownAddr a = b.base + o := by rw [ownAddr, h]

/-- A write at an aliased offset is one at the register's own offset (R74, R75). -/
theorem busWrite_own {a a' o : Nat} {b : Block} (h : resolve a = some (b, o)) (h' : resolve a' = some (b, o)) (h4 : a % 4 = a' % 4) (s : State)
    (m : Master) (be : BitVec 4) (v : Word) (p : Bool) : busWrite s m be a v p = busWrite s m be a' v p := by
  simp only [busWrite, writeAt, counted, ownAddr_eq h, ownAddr_eq h', h, h', h4]

/-- A read at an aliased offset is one at the register's own offset (R74, R75). -/
theorem busRead_own {a a' o : Nat} {b : Block} (h : resolve a = some (b, o)) (h' : resolve a' = some (b, o)) (s : State) (m : Master)
    (be : BitVec 4) (p : Bool) : busRead s m be a p = busRead s m be a' p := by
  simp only [busRead, readAt, counted, ownAddr_eq h, ownAddr_eq h', h, h']

/-- Where a register is found, its own offset finds it. -/
theorem regOf_own {a : Nat} {x : Reg} (h : regOf a = some x) : regOf x.addr = some x := by
  obtain ⟨hr, hf⟩ := regOf_resolve h
  rw [regOf, Reg.addr, (resolve_own hr).1]
  simp only [hf, Option.map_some]

/-! ### Registers without an effect of their own -/

section
variable {x : Reg} (he : x.row.eff = .none)
include he

theorem newWord_of_none (old v : Word) : newWord x old v = match x.row.cls with
    | .w1c | .clr => clearOnes old v
    | .set => setOnes old v
    | .wm => mergeWM old v
    | _ => storeFields x.row.flds old v := by
  unfold newWord
  rw [he]
  cases x.row.cls <;> rfl

theorem chapterValue_of_none (s : State) (v : Word) : chapterValue s x v = 0 := by unfold chapterValue; rw [he]

theorem chapterOwn_of_none (s : State) (m : Master) (v : Word) : chapterOwn s m x v = 0 := by unfold chapterOwn; rw [he]

theorem storeWrite_of_none (s : State) (m : Master) (v : Word) : storeWrite s m x v = s.wr x.home (newWord x (s.rd x.home) v) := by
  unfold storeWrite chapterApply
  rw [he]

theorem useKey_of_none (s : State) (m : Master) : useKey s m x = s := by
  unfold useKey
  rw [he]
  rfl

/-- Such a register of class RC without a high half is cleared by a read, and nothing else is (R53, R84). -/
theorem readEffect_rc (hc : x.row.cls = .rc) (h64 : ∀ d, x.row.ctr ≠ .c64 d) (hh : hasHigh x.addr = false) (s : State) (m : Master) :
    readEffect s m x = s.wr x.addr 0 := by
  unfold readEffect
  simp only [he, hh, hc]
  cases hd : x.row.ctr with
  | c64 d => exact absurd hd (h64 d)
  | none | c32 => rfl

/-- The low half of a 64-bit counter is cleared with its high half, which is latched for the master that reads (R86). -/
theorem readEffect_low {d : Nat} (hc : x.row.cls = .rc) (h64 : x.row.ctr = .c64 d) (hh : hasHigh x.addr = true) (s : State) (m : Master) :
    readEffect s m x = (latch s m (x.addr + 4) (s.rd (x.addr + 4))).wr64 x.addr 0 := by
  unfold readEffect
  simp only [he, hh, hc, h64, if_true]

/-- A high half changes nothing when it is read, and gives the latched value (R86). -/
theorem readEffect_high (hc : x.row.cls = .rcHi) (hh : hasHigh x.addr = false) (s : State) (m : Master) : readEffect s m x = s := by
  unfold readEffect
  simp only [he, hh, hc]
  rfl

theorem readView_high (hc : x.row.cls = .rcHi) (s : State) (m : Master) : readView s m x = AMap.getD s.latched (8 * x.addr + m.num) 0 := by
  unfold readView
  simp only [he, hc]

end

/-- The registers whose read is reckoned from the buffers are not of class RC (R666). -/
theorem hifViews_not_rc : (regOf (hifB + 0x058)).all (fun x => x.row.cls != .rc) ∧ (regOf (hifB + 0x05C)).all (fun x => x.row.cls != .rc) ∧
    ∀ k : Fin 8, (regAt ⟨.hif, 0, 0⟩ (0x108 + 16 * k.val)).all fun f => f.row.cls != .rc := by decide +kernel

end Sys2Proof.Machine
end

section
/-!
Proofs/PortData: reading a register of class RC, and that the count of an access takes no part in the data it returns.
-/
namespace Sys2Proof.Machine

/-- A register of class RC without an effect of its own is read as stored (R53). -/
theorem readView_rc {a : Nat} {x : Reg} (hx : regOf a = some x) (he : x.row.eff = .none) (hc : x.row.cls = .rc) (s : State) (m : Master) :
    readView s m x = s.rd x.addr := by
  obtain ⟨hpool, hrsv, hstat⟩ := hifViews_not_rc
  have not_at {k : Nat} (hk : (regOf k).all (fun x => x.row.cls != .rc) = true) : x.addr ≠ k := by
    rintro rfl
    rw [regOf_own hx] at hk
    simp [hc] at hk
  have not_stat : ¬(x.b.ty = .hif ∧ 0x108 ≤ x.o ∧ x.o < 0x180 ∧ x.o % 16 = 8) := by
    rintro ⟨hty, hlo, hhi, h8⟩
    have hf := hstat ⟨(x.o - 0x108) / 16, by omega⟩
    have ho : 0x108 + 16 * ((x.o - 0x108) / 16) = x.o := by omega
    have hat : regAt ⟨.hif, 0, 0⟩ x.o = regAt x.b x.o := by simp only [regAt, hty]
    rw [ho, hat, (regOf_resolve hx).2] at hf
    simp [hc] at hf
  unfold readView
  simp only [he, hc, readView.hifView, not_at hpool, not_at hrsv, not_stat, if_false, Reg.home]

/-! ### The data port takes no part in counting an access -/

/-- The state with other data on the port. -/
def State.withOut (s : State) (v : Word) : State := { s with busOut := v }

/-- `f` neither reads nor changes the data of the last read. -/
def SkipsPort (f : State → State) : Prop := ∀ (s : State) (v : Word), f (s.withOut v) = (f s).withOut v

namespace SkipsPort

theorem id : SkipsPort fun s => s := fun _ _ => rfl

theorem comp {f g : State → State} (hf : SkipsPort f) (hg : SkipsPort g) : SkipsPort fun s => f (g s) := fun s v =>
  (congrArg f (hg s v)).trans (hf (g s) v)

theorem ite {c : State → Prop} [∀ s, Decidable (c s)] {f g : State → State} (hc : ∀ (s : State) (v : Word), c (s.withOut v) = c s)
    (hf : SkipsPort f) (hg : SkipsPort g) : SkipsPort fun s => if c s then f s else g s := fun s v => by
  have hd := hc s v
  dsimp only
  by_cases h : c s
  · rw [if_pos (hd.symm ▸ h), if_pos h, hf s v]
  · rw [if_neg (hd.symm ▸ h), if_neg h, hg s v]

theorem forEach {α : Type} {g : α → State → State} (hg : ∀ a, SkipsPort (g a)) (l : List α) : SkipsPort fun s => forEach l s g := by
  intro s v
  induction l generalizing s with
  | nil => rfl
  | cons a l ih =>
    have h := ih (g a s)
    rw [← hg a s v] at h
    exact h

/-- An operation on data that it takes from the state, where the port is no part of them. -/
theorem dep {α : Type} {d : State → α} {g : α → State → State} (hd : ∀ (s : State) (v : Word), d (s.withOut v) = d s)
    (hg : ∀ a, SkipsPort (g a)) : SkipsPort fun s => g (d s) s := fun s v =>
  (congrArg (g · _) (hd s v)).trans (hg (d s) s v)

end SkipsPort

theorem skipsPort_irqSignal (n : Nat) : SkipsPort fun s => irqSignal s n := by
  have emit : SkipsPort fun s => msixEmit s n := .ite (fun _ _ => rfl) (fun _ _ => rfl) (fun _ _ => rfl)
  have hold : SkipsPort fun s => holdVec s n := .ite (fun _ _ => rfl) .id (fun _ _ => rfl)
  have wake : SkipsPort wakeHost :=
    .ite (fun _ _ => rfl) (.ite (fun _ _ => rfl) (fun _ _ => rfl) .id) (.ite (fun _ _ => rfl) (fun _ _ => rfl) (fun _ _ => rfl))
  have held : SkipsPort fun s => if hostPortDown s then s else holdVec s n := .ite (fun _ _ => rfl) .id hold
  exact .ite (fun _ _ => rfl) emit (.ite (fun _ _ => rfl) (wake.comp held) held)

theorem skipsPort_notifyAll (ns : List Nat) : SkipsPort fun s => notifyAll s ns :=
  have claimed (l : List Nat) : SkipsPort fun s => forEach l s fun n t => lodgeClaim t n := .forEach (fun _ _ _ => rfl) l
  .dep (g := fun (l : List Nat × List Nat) s => forEach l.2 (forEach l.1 s fun n t => lodgeClaim t n) fun v t => irqSignal t v)
    (d := fun s => (claimOrder s (ns.filter fun n => srcTarget s n = 260),
      ((ns.map (srcTarget s)).filter fun v => decide (v < 256)).eraseDups)) (fun _ _ => rfl)
    fun l => (SkipsPort.forEach skipsPort_irqSignal l.2).comp (claimed l.1)

theorem skipsPort_latchPend (n : Nat) : SkipsPort fun s => latchPend s n := by
  have judged : SkipsPort fun s => rejudge s (setPend s n true) [n] :=
    .dep (g := fun l s => notifyAll (setPend s n true) l) (d := fun s => [n].filter fun k => deliverable (setPend s n true) k && !deliverable s k)
      (fun _ _ => rfl) fun l => (skipsPort_notifyAll l).comp fun _ _ => rfl
  exact .ite (fun _ _ => rfl) (.ite (fun _ _ => rfl) (.ite (fun _ _ => rfl) .id fun _ _ => rfl) judged) .id

theorem skipsPort_startWake (n : Nat) : SkipsPort fun s => startWake s n := .ite (fun _ _ => rfl) (fun _ _ => rfl) (fun _ _ => rfl)

theorem skipsPort_stateDone (b : Bool) : SkipsPort fun s => stateDone s b := by
  have done : SkipsPort fun s => latchPend (s.orReg (pwrB + 0x044) (bitW 8 true)) 456 := (skipsPort_latchPend 456).comp fun _ _ => rfl
  exact .comp (f := fun t => if b && decide (t.pstate = 2) && watched t 456 then startWake t 456 else t)
    (.ite (fun _ _ => rfl) (skipsPort_startWake 456) .id) done

/-- Source `n` is kept for the end of a change that cannot be left (R711). -/
def deferWake (n : Nat) (s : State) : State :=
  if s.pwr.deferred.isSome then s else { s with pwr := { s.pwr with deferred := some n } }

/-- What a watched source does while the change `c` is in progress, as `wakeJudge` has it. -/
def wakeUnder (n : Nat) : Change → State → State
  | .idle => fun s => if s.pstate = 2 ∨ s.pstate = 3 then startWake s n else s
  | .hold _ _ => fun s => abortEntry (setWakeLast s n) 4 n
  | .linkWait false => fun s => abortEntry (setWakeLast s n) 4 n
  | .gating _ | .linkWait true | .lastSecond | .railsOff => deferWake n
  | .trim | .untrim | .leave _ | .restart => fun s => s

theorem wakeJudge_eq (s : State) (n : Nat) : wakeJudge s n = if !(watched s n) then s else wakeUnder n s.pwr.change s := by
  unfold wakeJudge wakeUnder deferWake
  cases s.pwr.change with
  | linkWait committed => cases committed <;> rfl
  | _ => rfl

theorem skipsPort_wakeUnder (n : Nat) (c : Change) : SkipsPort (wakeUnder n c) := by
  have abort : SkipsPort fun s => abortEntry (setWakeLast s n) 4 n := (skipsPort_stateDone true).comp fun _ _ => rfl
  have defer : SkipsPort (deferWake n) := .ite (fun _ _ => rfl) .id fun _ _ => rfl
  cases c with
  | idle => exact .ite (fun _ _ => rfl) (skipsPort_startWake n) .id
  | hold => exact abort
  | linkWait committed =>
    cases committed with
    | false => exact abort
    | true => exact defer
  | gating | lastSecond | railsOff => exact defer
  | trim | untrim | leave | restart => exact .id

theorem skipsPort_wakeJudge (n : Nat) : SkipsPort fun s => wakeJudge s n := by
  simp only [wakeJudge_eq]
  exact .ite (fun _ _ => rfl) .id (.dep (d := fun s => s.pwr.change) (fun _ _ => rfl) (skipsPort_wakeUnder n))

theorem skipsPort_latchSource (n : Nat) : SkipsPort fun s => latchSource s n :=
  .ite (fun _ _ => rfl) ((skipsPort_wakeJudge n).comp (skipsPort_latchPend n)) .id

theorem skipsPort_perfAdd (a k : Nat) : SkipsPort fun s => perfAdd s none a k := by
  intro s v
  have hold : (s.withOut v).rd64 (a + 0x10) = s.rd64 (a + 0x10) := rfl
  have hwr (n : Nat) : (s.withOut v).wr64 (a + 0x10) n = (s.wr64 (a + 0x10) n).withOut v := rfl
  have hraised (t : State) : monEvent (t.withOut v) 10 = (monEvent t 10).withOut v := skipsPort_latchSource (464 + 10) (t.orReg _ _) v
  simp only [perfAdd, hold, hwr, hraised]
  split
  · rfl
  · rfl

theorem skipsPort_perfCount (e : PerfEv) (k : Nat) : SkipsPort fun s => perfCount s none e k :=
  .ite (fun _ _ => rfl) .id (.dep (fun _ _ => rfl) (.forEach fun a => .ite (fun _ _ => rfl) (skipsPort_perfAdd a k) .id))

/-- The count of an access is the same whatever data the access returns (R764). -/
theorem counted_withOut (s : State) (m : Master) (a : Nat) (v : Word) : counted (s.withOut v) m a = (counted s m a).withOut v :=
  skipsPort_perfCount _ 1 s v

end Sys2Proof.Machine
end

section
/-!
Proofs/PlainAccess: plain writes by class, and wide accesses dword by dword.
-/
namespace Sys2Proof.Machine

/-! ### The further data of a wide read -/

theorem SignalsOnly.busMore_eq {s t : State} (h : SignalsOnly s t) : t.busMore = s.busMore := by
  unfold SignalsOnly at h
  rw [h]

theorem latchErr_busMore (s : State) (b : Block) (code off : Nat) (m : Master) : (latchErr s b code off m).busMore = s.busMore := by
  rw [latchErr_eq]
  split
  · exact (signalsOnly_latchSource _ _).busMore_eq
  · rfl

theorem claim_busMore (s : State) (t : Nat) : (claim s t).2.busMore = s.busMore := by
  unfold claim
  split
  · rfl
  · rfl

theorem popResult_busMore (s : State) (n : Nat) : (popResult s n).1.busMore = s.busMore := by
  unfold popResult
  split
  · rfl
  · rfl

theorem readEffect_busMore (s : State) (m : Master) (x : Reg) : (readEffect s m x).busMore = s.busMore := by
  unfold readEffect
  split
  · split
    · exact (signalsOnly_perfCount _ _ _ _).busMore_eq.trans (claim_busMore s _)
    · rfl
  · split
    · exact (signalsOnly_perfCount _ _ _ _).busMore_eq.trans (claim_busMore s _)
    · rfl
  · rfl
  · exact popResult_busMore s _
  · have latched : (if hasHigh x.addr then latch s m (x.addr + 4) (s.rd (x.addr + 4)) else s).busMore = s.busMore := by split <;> rfl
    dsimp only
    split
    · exact latched
    · exact latched
    · exact latched

/-- A read of one dword leaves the further data of the last wide read (R48). -/
theorem busRead_busMore (s : State) (m : Master) (be : BitVec 4) (a : Nat) (p : Bool) : (busRead s m be a p).busMore = s.busMore := by
  have at_block : (readAt s m be a p).busMore = s.busMore := by
    unfold readAt
    split
    · exact latchErr_busMore _ _ _ _ _
    · split
      · rfl
      · dsimp only
        split
        · exact (latchErr_busMore _ _ _ _ _).trans (readEffect_busMore s m _)
        · exact readEffect_busMore s m _
  unfold busRead
  split
  · exact (signalsOnly_perfCount _ _ _ _).busMore_eq.trans at_block
  · rfl

theorem toNat_add_four {a : BitVec 25} (h : a.toNat + 4 < 2 ^ 25) : (a + 4).toNat = a.toNat + 4 := by
  rw [BitVec.toNat_add]
  exact Nat.mod_eq_of_lt h

end Sys2Proof.Machine

/-! ### The obligations -/

open Sys2Proof Sys2Proof.Machine

open Claims in
theorem newWord_quiet {x : Reg} (hc : x.row.cls = .rw ∨ x.row.cls = .w1c ∨ x.row.cls = .set ∨ x.row.cls = .clr) (he : x.row.eff = .none) (old v : Word) :
    newWord x old v = stored x old v := by
  rw [newWord_of_none he, stored]
  obtain hc | hc | hc | hc := hc <;> rw [hc] <;> rfl

open Claims in
/-- Settles O9: a taken write of a quiet register is a write of its new word, and a wide access runs through its dwords. -/
theorem plainWriteStoresByItsClass : Obligations.PlainWriteStoresByItsClass := by
  unfold Obligations.PlainWriteStoresByItsClass
  intro s m be a v x
  refine ⟨fun hcan ht hq => ?_, fun p e l t ha ht => ?_, fun be' t u ha ht hu => ?_⟩
  · have he : x.row.eff = .none := by
      simp only [quiet, Bool.and_eq_true, beq_iff_eq] at hq
      exact hq.2
    obtain ⟨-, -, hc, -⟩ := taken_iff.mp ht
    refine ⟨s.wr x.home (stored x (s.rd x.home) v), ?_, rd_wr_self hcan _ _, fun _ ha => rd_wr_ne hcan _ ha, rfl⟩
    rw [exec_registerWrite_single, next_busWrite_taken ht, written, useKey_of_none he, storeWrite_of_none he, newWord_quiet hc he]
  · obtain rfl := Host.Outcome.next.inj ht
    simp only [exec, execRegisterWrite, busWriteMore, toNat_add_four ha]
  · obtain rfl := Host.Outcome.next.inj ht
    have hmore : { busRead s m be a.toNat false with busMore := s.busMore } = busRead s m be a.toNat false := by
      rw [← busRead_busMore s m be a.toNat false]
    rw [exec_counterRead_single, toNat_add_four ha] at hu
    obtain rfl := Host.Outcome.next.inj hu
    exact congrArg (fun r : State => Host.Outcome.next { busRead r m be' (a.toNat + 4) false with
      busOut := (busRead s m be a.toNat false).busOut, busMore := [(busRead r m be' (a.toNat + 4) false).busOut] }) hmore.symm
end

section
/-!
Proofs/RegisterAccess: refusals in their order, merges, aliases, and counters that a read clears.
-/
namespace Sys2Proof.Machine

open Claims in
theorem plain_iff {x : Reg} : plain x = true ↔ x.row.cls = .rw ∨ x.row.cls = .w1c ∨ x.row.cls = .set ∨ x.row.cls = .clr := by
  simp [plain, or_assoc]

/-- A write that is not of an aligned dword is refused before any other check (R46, R47, R89). -/
theorem busWrite_narrow {s : State} {m : Master} {be : BitVec 4} {a : Nat} {v : Word} {x : Reg} {p : Bool} (hm : masterActs s m = true)
    (hx : regOf a = some x) (hb : be ≠ 0xF ∨ a % 4 ≠ 0) :
    busWrite s m be a v p = counted (refuse s m x.b 0x11 x.o (ownAddr a)) m a := by
  obtain ⟨h1, h2⟩ := regOf_resolve hx
  simp only [busWrite, writeAt, hm, h1, h2, hb, if_true]

theorem bit_mergeWM (old v : Word) (i : Nat) :
    bit (mergeWM old v) i = (decide (i < 16) && if bit v (16 + i) then bit v i else bit old i) := by
  have mask : (0x0000FFFF : Word).getLsbD i = decide (i < 16) := by
    rw [show (0x0000FFFF : Word) = BitVec.ofNat 32 (2 ^ 16 - 1) from rfl, BitVec.getLsbD_ofNat, Nat.testBit_two_pow_sub_one]
    by_cases h : i < 16
    · simp [h]; omega
    · simp [h]
  simp only [bit_eq_getLsbD, mergeWM, BitVec.getLsbD_and, BitVec.getLsbD_or, BitVec.getLsbD_not, BitVec.getLsbD_ushiftRight, mask]
  by_cases h : i < 16
  · have h32 : i < 32 := by omega
    cases v.getLsbD (16 + i) <;> simp [h, h32]
  · simp [h]

end Sys2Proof.Machine

/-! ### The obligations -/

open Sys2Proof Sys2Proof.Machine

open Claims in
/-- Settles O10: the code of a write is the first check's that fails, and a code other than 0 refuses it. -/
theorem firstFailingCheckGivesTheCode : Obligations.FirstFailingCheckGivesTheCode := by
  unfold Obligations.FirstFailingCheckGivesTheCode
  intro s m be a v p x hm hx hp out
  refine ⟨fun hb => congrArg Host.Outcome.next (busWrite_narrow hm hx hb), fun hbe h4 => ?_⟩
  subst hbe
  have out_of {c : Nat} (hc : writeCode s m x v p = c) (h0 : c ≠ 0) : out c :=
    congrArg Host.Outcome.next (busWrite_refused hm h4 hx (plain_iff.mp hp) hc h0)
  refine ⟨fun hmode => out_of ?_ (by decide), fun hmode => ⟨fun hlock => out_of ?_ (by decide), fun hlock =>
    ⟨fun hown => out_of ?_ (by decide), fun hown => ⟨fun hill => out_of ?_ (by decide), fun hill =>
      ⟨fun hrange => out_of ?_ (by decide), fun hrange hpar => out_of ?_ (by decide)⟩⟩⟩⟩⟩
  · simp [writeCode, hmode]
  · simp [writeCode, hmode, hlock]
  · simp [writeCode, hmode, hlock, hown]
  · simp [writeCode, lateCode, hmode, hlock, hown, hill]
  · simp [writeCode, lateCode, hmode, hlock, hown, hill, hrange]
  · simp [writeCode, lateCode, hmode, hlock, hown, hill, hrange, hpar]

/-- Settles O12: the merge bit by bit, and the checks take the merged word. -/
theorem maskedWriteMergesItsBits : Obligations.MaskedWriteMergesItsBits := by
  unfold Obligations.MaskedWriteMergesItsBits
  intro s m x old v hc he
  have merged (w : Word) : newWord x w v = mergeWM w v := by rw [newWord_of_none he, hc]
  simp only [merged]
  refine ⟨fun i hi => by simp [bit_mergeWM, hi], fun i hi => by simp [bit_mergeWM, Nat.not_lt.mpr hi], fun hv hold => ?_, ?_, ?_⟩
  · have hlt : old.toNat < 2 ^ 16 := by bv_omega
    unfold mergeWM
    rw [hv]
    change (old &&& ~~~0#32 ||| v &&& 0#32) &&& 0x0000FFFF = old
    rw [BitVec.not_zero, BitVec.and_allOnes, BitVec.and_zero, BitVec.or_zero]
    refine BitVec.eq_of_toNat_eq ?_
    rw [BitVec.toNat_and, show (0x0000FFFF : Word).toNat = 2 ^ 16 - 1 from rfl, Nat.and_two_pow_sub_one_eq_mod, Nat.mod_eq_of_lt hlt]
  · simp [valueIllegal, hc, chapterValue_of_none he, chapterOwn_of_none he]
  · simp [valueRange, hc, chapterValue_of_none he, chapterOwn_of_none he]

/-- Settles O16: page and offset of a BAR2 address. -/
theorem reservedBar2WriteIsIgnored : Obligations.ReservedBar2WriteIsIgnored := by
  unfold Obligations.ReservedBar2WriteIsIgnored
  intro s be a v
  refine ⟨fun ho => congrArg Host.Outcome.next (if_neg ho), fun ha => congrArg Host.Outcome.next (if_pos ha), fun n hn => ?_⟩
  have h0 : a.toNat % 0x1000 = 0 := by omega
  have hp : a.toNat / 0x1000 = n := by omega
  exact congrArg Host.Outcome.next ((if_pos h0).trans (by rw [hp]))

/-- Settles O17: what an address resolves to decides the access. -/
theorem aliasBehavesAsTheRegister : Obligations.AliasBehavesAsTheRegister := by
  unfold Obligations.AliasBehavesAsTheRegister
  intro s m be a a' v p b o h4 hr ha'
  obtain ⟨hown, hown4⟩ := resolve_own hr
  rw [← ha'] at hown hown4
  simp only [exec_registerWrite_single, exec_counterRead_single, busWrite_own hr hown (h4.trans hown4.symm), busRead_own hr hown, and_self]

open Claims in
/-- Settles O18: a register of class RC is read as stored and cleared by the read. -/
theorem readingACounterClearsIt : Obligations.ReadingACounterClearsIt := by
  unfold Obligations.ReadingACounterClearsIt
  intro s m be a x hr hc he h64 hh hcan
  obtain ⟨hm, -, hx⟩ := reaches_iff.mp hr
  have read := exec_counterRead_reg (be := be) hm hx
  rw [readEffect_rc he hc h64 hh, readView_rc hx he hc] at read
  exact ⟨{ s.wr x.addr 0 with busOut := s.rd x.addr }, _, read, read, rfl, rd_wr_self hcan _ _, fun _ ha => rd_wr_ne hcan _ ha, rfl⟩

open Claims in
/-- Settles O19: the read of the low half clears the pair and latches the high half; that of the high half gives the latch. -/
theorem lowHalfLatchesTheHighHalf : Obligations.LowHalfLatchesTheHighHalf := by
  unfold Obligations.LowHalfLatchesTheHighHalf
  intro s m be a x d hr hc he h64 hh hcan hlat
  obtain ⟨hm, -, hx⟩ := reaches_iff.mp hr
  have read := exec_counterRead_reg (be := be) hm hx
  rw [readEffect_low he hc h64 hh, readView_rc hx he hc] at read
  have rising := AMap.rising_of_wf _ hlat
  let l := latch s m (x.addr + 4) (s.rd (x.addr + 4))
  have lcan : l.regsCanonical := hcan
  refine ⟨{ l.wr64 x.addr 0 with busOut := s.rd x.addr }, read, rd64_wr64_self lcan _ 0 (by decide), AMap.getD_put_self _ _ _ _ rising,
    fun k hk => AMap.getD_put_ne _ _ _ _ _ _ rising hk, fun a' h0 h4 => rd_wr64_ne lcan 0 h0 h4, rfl, fun u a' y hu hy _ hcy hey hhy => ?_⟩
  have high := exec_counterRead_reg (be := be) hu hy
  rw [readEffect_high hey hcy hhy, readView_high hey hcy] at high
  let w := AMap.getD u.latched (8 * y.addr + m.num) 0
  exact high.trans (congrArg (fun t : State => Host.Outcome.next { t with busOut := w, busMore := [] }) (counted_withOut u m a'.toNat w))
end

section
/-!
Proofs/RegisterRules: BLK_ERR, dual writes, chip modes, reset values and power requests.
-/
namespace Sys2Proof.Machine

theorem base_mod_page (b : Block) : b.base % 0x1000 = 0 := by
  unfold Block.base pavBase
  split <;> omega

/-! ### BLK_ERR -/

theorem findRow_blkErr (t : BlkTy) : findRow (headerRows t) 0x008 = some ⟨{ off := 0x008, cls := .rc, eff := .blkErr }, 0, 0⟩ := by
  cases t <;> rfl

theorem findRow_blkLock (t : BlkTy) :
    findRow (headerRows t) 0x00C = some ⟨{ off := 0x00C, cls := .rw, flds := [wF 0 0], eff := .blkLock }, 0, 0⟩ := by
  cases t <;> rfl

theorem regOf_blkErr {a o : Nat} {b : Block} (h : locate a = some (b, o)) :
    regOf (b.base + 0x008) = some ⟨b, 0x008, { off := 0x008, cls := .rc, eff := .blkErr }, 0, 0⟩ :=
  regOf_header h (by decide) rfl (findRow_blkErr b.ty)

/-- The register behind BLK_ERR is BLK_LOCK, no high half. -/
theorem hasHigh_blkErr {a o : Nat} {b : Block} (h : locate a = some (b, o)) : hasHigh (b.base + 0x008) = false := by
  have lock : regOf (b.base + 0x00C) = some ⟨b, 0x00C, { off := 0x00C, cls := .rw, flds := [wF 0 0], eff := .blkLock }, 0, 0⟩ :=
    regOf_header h (by decide) rfl (findRow_blkLock b.ty)
  rw [hasHigh, lock]
  rfl

section
variable {s : State} {m : Master} {b : Block} {r : Row} (he : r.eff = .blkErr) (hc : r.cls = .rc)
include he hc

theorem readEffect_blkErr (h64 : r.ctr = .none) (hh : hasHigh (b.base + 0x008) = false) :
    readEffect s m ⟨b, 0x008, r, 0, 0⟩ = s.wr (b.base + 0x008) 0 := by
  unfold readEffect
  simp only [he, hc, h64, Reg.addr, hh]
  rfl

theorem readView_blkErr : readView s m ⟨b, 0x008, r, 0, 0⟩ = s.rd (b.base + 0x008) := by
  have hb := base_mod_page b
  have hpool : b.base + 0x008 ≠ hifB + 0x058 := by unfold hifB; omega
  have hrsv : b.base + 0x008 ≠ hifB + 0x05C := by unfold hifB; omega
  unfold readView
  simp only [he, hc, readView.hifView, Reg.addr, Reg.home, if_neg hpool, if_neg hrsv]
  exact if_neg (by omega)

end

/-! ### Dual writes -/

section
variable {s : State} {m : Master} {a : Nat} {v : Word} {x : Reg} (hm : masterActs s m = true) (h4 : a % 4 = 0) (hx : regOf a = some x)
include hm h4 hx

theorem busWrite_dw (hc : x.row.cls = .dw) : busWrite s m 0xF a v false = counted (dwFirst s m x v (ownAddr a)) m a := by
  rw [busWrite_full hm h4 hx, writeReg, hc]

theorem busWrite_comp {y : Reg} (hc : x.row.cls = .comp) (hy : regOf x.home = some y) :
    busWrite s m 0xF a v false = counted (dwSecond s m x y v false (ownAddr a)) m a := by
  rw [busWrite_full hm h4 hx, writeReg, hc]
  simp only [hy]

end

theorem alive_of_masterActs {s : State} {m : Master} (h : masterActs s m = true) : s.alive = true := by
  unfold masterActs at h
  exact (Bool.and_eq_true _ _ ▸ h).1

/-! ### Reset values -/

theorem resetOf_reg {a : Nat} {x : Reg} (h : regOf a = some x) : resetOf a = w32 x.row.rst := by
  obtain ⟨h1, h2⟩ := regOf_resolve h
  unfold resetOf
  simp only [h1, h2]

end Sys2Proof.Machine

/-! ### The obligations -/

open Sys2Proof Sys2Proof.Machine

/-- Settles O14: the read of BLK_ERR at the base of the block that an address lies in. -/
theorem readingBlkErrClearsIt : Obligations.ReadingBlkErrClearsIt := by
  unfold Obligations.ReadingBlkErrClearsIt
  intro s m be a b o hm hl
  have hx := regOf_blkErr hl
  change Host.Outcome.next (busRead s m be (headerAddr a.toNat 0x008) false) = _
  rw [headerAddr_eq hl, busRead_reg hm hx, readEffect_blkErr rfl rfl rfl (hasHigh_blkErr hl), readView_blkErr rfl rfl]

open Claims in
/-- Settles O22: the first write by the checks before the pair, the complement write by those and then by the pair. -/
theorem dualWriteNeedsBothWrites : Obligations.DualWriteNeedsBothWrites := by
  unfold Obligations.DualWriteNeedsBothWrites
  intro s m a v x hr own first second
  obtain ⟨hm, h4, hx⟩ := reaches_iff.mp hr
  have first_of {t : State} (hc : x.row.cls = .dw) (h : dwFirst s m x v own = t) : first t :=
    congrArg Host.Outcome.next ((busWrite_dw hm h4 hx hc).trans (congrArg (counted · m a.toNat) h))
  have second_of {y : Reg} {t : State} (hc : x.row.cls = .comp) (hy : regOf x.home = some y) (h : dwSecond s m x y v false own = t) : second t :=
    congrArg Host.Outcome.next ((busWrite_comp hm h4 hx hc hy).trans (congrArg (counted · m a.toNat) h))
  refine ⟨fun hc hmode => first_of hc ?_, fun hc hmode hlock => first_of hc ?_, fun hc hmode hlock => ⟨fun hq => first_of hc ?_,
    fun q hq => first_of hc ?_⟩, fun hc y hy => ⟨fun hmode => second_of hc hy ?_, fun hmode hlock => second_of hc hy ?_, fun hmode hlock =>
      ⟨fun hq => second_of hc hy ?_, fun q hq => ⟨fun hreg => second_of hc hy ?_, fun hreg hval => second_of hc hy ?_,
        fun hreg hval hlate => second_of hc hy ?_⟩⟩⟩, fun q hq => ?_⟩
  · simp [dwFirst, hmode]
  · simp [dwFirst, hmode, hlock]
  · simp [dwFirst, hmode, hlock, hq]
  · simp [dwFirst, hmode, hlock, hq]
  · simp [dwSecond, hmode]
  · simp [dwSecond, hmode, hlock]
  · simp [dwSecond, hmode, hlock, hq]
  · simp [dwSecond, hmode, hlock, hq, hreg]
  · simp [dwSecond, hmode, hlock, hq, hreg, hval]
  · simp [dwSecond, hmode, hlock, hq, hreg, ← hval, hlate]
  · obtain ⟨o', hl, -⟩ := resolve_eq_some (regOf_resolve hx).1
    have expire : dwExpire s m x.b = latchErr (closePair s x.b m) x.b 0x04 (q.reg - x.b.base) m := by simp only [dwExpire, hq]
    simp only [exec, execDwWindowExpiry, hl, alive_of_masterActs hm, expire, if_true]

/-- Settles O24: the table, mode by mode. -/
theorem modeMovesOnlyAsTheTableAllows : Obligations.ModeMovesOnlyAsTheTableAllows := by
  unfold Obligations.ModeMovesOnlyAsTheTableAllows
  intro s old new
  simp only [moveAllowed]
  generalize s.flag (monB + 0x048) 31 = fatal
  revert fatal old new
  decide

/-- Settles O25: no register is listed after reset, so each reads as its row's reset value. -/
theorem resetLeavesTheStatedValues : Obligations.ResetLeavesTheStatedValues := by
  unfold Obligations.ResetLeavesTheStatedValues
  exact ⟨fun a x hx => resetOf_reg hx, by decide +kernel, by decide +kernel, by decide +kernel, by decide +kernel, by decide +kernel, rfl, rfl⟩

/-! ### Power requests -/

namespace Sys2Proof.Machine

/-- PWR_CTRL (R748). -/
def pwrCtrlReg : Reg := ⟨⟨.pwr, 0, 0⟩, 0x048, { off := 0x048, cls := .rw, flds := [cmdF 15 8, wF 1 0], eff := .pwrCtrl }, 0, 0⟩

theorem regOf_pwrCtrl : regOf (pwrB + 0x048) = some pwrCtrlReg := by decide +kernel

/-- The word of a power request: TARGET `t` with KEY `key` (R701). -/
def requestWord (key : Byte) (t : Fin 4) : Word := w32 (key.toNat * 256 + t.val)

theorem bits_requestWord (key : Byte) (t : Fin 4) : bits (requestWord key t) 1 0 = t ∧ bits (requestWord key t) 15 8 = key.toNat := by
  have hk := key.isLt
  have hw : (requestWord key t).toNat = key.toNat * 256 + t.val := by
    rw [requestWord, w32, BitVec.toNat_ofNat]
    omega
  simp only [bits, hw, Nat.shiftRight_eq_div_pow]
  omega

section
variable {s : State} {m : Master} {key : Byte} {t : Fin 4}

theorem modeBad_request : modeBad s pwrCtrlReg (requestWord key t) = (0xF / 2 ^ s.mode % 2 == 0 || decide (2 ≤ t.val) && s.mode != 1) := by
  simp only [modeBad, pwrModeBad, (bits_requestWord key t).1]
  rfl

theorem modes_all {k : Nat} (h : k < 4) : (0xF / 2 ^ k % 2 == 0) = false := by
  have all : ∀ k : Fin 4, (0xF / 2 ^ k.val % 2 == 0) = false := by decide
  exact all ⟨k, h⟩

theorem pwrOwn_eq_busy : pwrOwn s .pwrCtrl (requestWord key t) = 0 ∨ pwrOwn s .pwrCtrl (requestWord key t) = 0x0B := by
  unfold pwrOwn
  dsimp only
  split
  · exact .inl rfl
  · exact .inr rfl

theorem lockBad_request : lockBad s m pwrCtrlReg (requestWord key t) = (key.toNat != 0x5C) := by
  have own : chapterOwn s m pwrCtrlReg (requestWord key t) = pwrOwn s .pwrCtrl (requestWord key t) := rfl
  have lk (w : Word) : w &&& w32 pwrCtrlReg.row.lk = 0 := BitVec.and_zero
  have eff : pwrCtrlReg.row.eff = .pwrCtrl := rfl
  have unlocked : irqLocked s .pwrCtrl pwrCtrlReg.i m (requestWord key t) = false := rfl
  unfold lockBad
  rw [own, lk, eff, unlocked, (bits_requestWord key t).2]
  obtain h | h := pwrOwn_eq_busy (s := s) (key := key) (t := t) <;> simp [h]

/-- A request of P0 or P1 with its key and with no change in progress passes every check (R701 to R703). -/
theorem writeCode_request (hk : key = 0x5C) (hmode : s.mode < 4) (hn : noChange s = true) (hiso : isolatedBad s pwrCtrlReg = false) (ht : t.val ≤ 1) :
    writeCode s m pwrCtrlReg (requestWord key t) false = 0 := by
  have mode : modeBad s pwrCtrlReg (requestWord key t) = false := by
    rw [modeBad_request, modes_all hmode]
    simp only [show ¬ 2 ≤ t.val by omega, decide_false, Bool.false_and, Bool.or_false]
  have lock : lockBad s m pwrCtrlReg (requestWord key t) = false := by rw [lockBad_request, hk]; rfl
  have free : ownerActive s pwrCtrlReg = false := rfl
  have own : chapterOwn s m pwrCtrlReg (requestWord key t) = 0 := by
    change pwrOwn s .pwrCtrl (requestWord key t) = 0
    simp [pwrOwn, hn]
  have value : chapterValue s pwrCtrlReg (requestWord key t) = 0 := by
    change pwrValue s .pwrCtrl (requestWord key t) = 0
    have : ¬ t.val = 3 := by omega
    simp [pwrValue, (bits_requestWord key t).1, this]
  have fields : ∀ t : Fin 4, illegalValue pwrCtrlReg.row.flds (requestWord key t) = false ∧ rangeValue pwrCtrlReg.row.flds (requestWord key t) = false := by
    subst hk
    decide
  have rw_class : ¬ pwrCtrlReg.row.cls = .wm := by decide
  have ill : valueIllegal s m pwrCtrlReg (requestWord key t) = false := by simp [valueIllegal, rw_class, (fields t).1, own, value]
  have range : valueRange s m pwrCtrlReg (requestWord key t) = false := by simp [valueRange, rw_class, (fields t).2, own, value]
  simp [writeCode, lateCode, mode, lock, free, ill, range, hiso, own]

/-- A request that names the present state changes nothing (R703). -/
theorem storeWrite_request (hn : noChange s = true) (ht : s.pstate = t.val) : storeWrite s m pwrCtrlReg (requestWord 0x5C t) = s := by
  change pwrCtrlApply s _ (requestWord 0x5C t) = s
  simp only [pwrCtrlApply, hn, (bits_requestWord 0x5C t).1, ht, if_true]

open Claims in
theorem request_refused {c : Nat} (hm : masterActs s m = true) (hc : writeCode s m pwrCtrlReg (requestWord key t) false = c) (h0 : c ≠ 0) :
    busWrite s m 0xF (pwrB + 0x048) (requestWord key t) false = refused s m (pwrB + 0x048) pwrCtrlReg c :=
  busWrite_refused hm (by decide) regOf_pwrCtrl (.inl rfl) hc h0

theorem request_same (hm : masterActs s m = true) (hmode : s.mode < 4) (hn : noChange s = true) (hiso : isolatedBad s pwrCtrlReg = false)
    (ht : t.val ≤ 1) (hs : s.pstate = t.val) :
    busWrite s m 0xF (pwrB + 0x048) (requestWord 0x5C t) false = counted s m (pwrB + 0x048) := by
  rw [busWrite_taken hm (by decide) regOf_pwrCtrl (.inl rfl) (writeCode_request rfl hmode hn hiso ht), storeWrite_request hn hs]
  rfl

theorem writeCode_request_mode (hmode : s.mode ≠ 1) (ht : 2 ≤ t.val) : writeCode s m pwrCtrlReg (requestWord key t) false = 0x10 := by
  simp [writeCode, modeBad_request, hmode, ht]

theorem writeCode_request_key (hmode : s.mode < 4) (ht : t.val < 2 ∨ s.mode = 1) (hk : key ≠ 0x5C) :
    writeCode s m pwrCtrlReg (requestWord key t) false = 0x02 := by
  have mode : modeBad s pwrCtrlReg (requestWord key t) = false := by
    rw [modeBad_request, modes_all hmode]
    obtain h | h := ht
    · simp [h]
    · simp [h]
  have locked : lockBad s m pwrCtrlReg (requestWord key t) = true := by
    rw [lockBad_request, bne_iff_ne]
    exact fun h => hk (BitVec.eq_of_toNat_eq h)
  simp [writeCode, mode, locked]

end
end Sys2Proof.Machine

open Claims in
/-- Settles O60: the four requests by the checks of PWR_CTRL. -/
theorem powerRequestsNeedTheirModeAndKey : Obligations.PowerRequestsNeedTheirModeAndKey := by
  unfold Obligations.PowerRequestsNeedTheirModeAndKey
  intro s m key x hm hx
  obtain rfl := Option.some.inj (regOf_pwrCtrl.symm.trans hx)
  have refused_by (key : Byte) (t : Fin 4) {c : Nat} (hc : writeCode s m pwrCtrlReg (requestWord key t) false = c) (h0 : c ≠ 0) :
      (.next (busWrite s m 0xF (pwrB + 0x048) (requestWord key t) false) : Result) = .next (refused s m (pwrB + 0x048) pwrCtrlReg c) :=
    congrArg Host.Outcome.next (request_refused hm hc h0)
  have unchanged (t : Fin 4) (ht : t.val ≤ 1) (hmode : s.mode < 4) (hn : noChange s = true) (hiso : isolatedBad s pwrCtrlReg = false)
      (hs : s.pstate = t.val) :
      (.next (busWrite s m 0xF (pwrB + 0x048) (requestWord 0x5C t) false) : Result) = .next (counted s m (pwrB + 0x048)) :=
    congrArg Host.Outcome.next (request_same hm hmode hn hiso ht hs)
  refine ⟨fun hmode => ⟨?_, ?_⟩, fun hmode hk => ⟨?_, ?_⟩, fun hmode hk => ⟨?_, ?_⟩, fun hmode hn hiso => ⟨fun hs => ?_, fun hs => ?_⟩⟩
  · exact refused_by key 2 (writeCode_request_mode hmode (by decide)) (by decide)
  · exact refused_by key 3 (writeCode_request_mode hmode (by decide)) (by decide)
  · exact refused_by key 0 (writeCode_request_key hmode (.inl (by decide)) hk) (by decide)
  · exact refused_by key 1 (writeCode_request_key hmode (.inl (by decide)) hk) (by decide)
  · exact refused_by key 2 (writeCode_request_key (by omega) (.inr hmode) hk) (by decide)
  · exact refused_by key 3 (writeCode_request_key (by omega) (.inr hmode) hk) (by decide)
  · exact unchanged 0 (by decide) hmode hn hiso hs
  · exact unchanged 1 (by decide) hmode hn hiso hs
end

section
/-!
Proofs/Slew: what a tick makes of a time counter.
-/
namespace Sys2Proof.Machine

/-! ### The slew of a time counter -/

theorem slewTerm_of_slewing {c : TimeCtr} (h : c.slewing = true) (smax inc : Nat) : c.slewTerm smax inc = slewPart c smax inc := if_pos h

theorem slewTerm_of_not_slewing {c : TimeCtr} (h : c.slewing = false) (smax inc : Nat) : c.slewTerm smax inc = (0, c.acc) :=
  if_neg (by simp [h])

/-- What is added to the counter beyond its increment leaves the residual (R162, R165). -/
theorem resid_advance (c : TimeCtr) (smax inc : Nat) : c.resid - (c.advance smax inc).resid = (c.slewTerm smax inc).1 := by
  cases h : c.slewing with
  | false => simp [TimeCtr.advance, TimeCtr.move, slewTerm_of_not_slewing h, h]
  | true => simp [TimeCtr.advance, TimeCtr.move, h]

/-- A slew part has the sign of the residual, does not pass zero, and is what SLEW_MAX allows; all that SLEW_MAX allows is given or kept while the
residual lasts (R184). -/
theorem slewPart_spec (c : TimeCtr) (smax inc : Nat) :
    ∃ amt : Nat, amt ≤ c.resid.natAbs ∧ (slewPart c smax inc).1 = (if 0 ≤ c.resid then (amt : Int) else -(amt : Int)) ∧
      amt * 1000000000 ≤ smax * inc + c.acc ∧
      (amt ≠ c.resid.natAbs → amt * 1000000000 + (slewPart c smax inc).2 = smax * inc + c.acc) := by
  refine ⟨min ((smax * inc + c.acc) / 1000000000) c.resid.natAbs, by omega, rfl, by omega, fun hne => ?_⟩
  simp only [slewPart, if_neg hne]
  omega

/-- The slew term of a counter, slewing or not. -/
theorem slewTerm_spec (c : TimeCtr) (smax inc : Nat) :
    ∃ amt : Nat, amt ≤ c.resid.natAbs ∧ (c.slewTerm smax inc).1 = (if 0 ≤ c.resid then (amt : Int) else -(amt : Int)) ∧
      amt * 1000000000 ≤ smax * inc + c.acc ∧
      (c.slewing = true → amt ≠ c.resid.natAbs → amt * 1000000000 + (c.slewTerm smax inc).2 = smax * inc + c.acc) := by
  cases h : c.slewing with
  | false => exact ⟨0, by omega, by simp [slewTerm_of_not_slewing h], by omega, nofun⟩
  | true =>
    obtain ⟨amt, hle, hsign, hmax, hkept⟩ := slewPart_spec c smax inc
    rw [slewTerm_of_slewing h]
    exact ⟨amt, hle, hsign, hmax, fun _ => hkept⟩

end Sys2Proof.Machine

/-! ### The obligations -/

open Sys2Proof Sys2Proof.Machine

/-- Settles O59: what a tick gives is the counter's slew term. -/
theorem aTickMovesACounterByItsIncrementAndSlew : Obligations.ATickMovesACounterByItsIncrementAndSlew := by
  unfold Obligations.ATickMovesACounterByItsIncrementAndSlew
  intro c smax inc d given
  have hgiven : given = (c.slewTerm smax inc).1 := resid_advance c smax inc
  have hresid : d.resid = c.resid - given := (Int.sub_sub_self _ _).symm
  obtain ⟨amt, hle, hsign, hmax, hkept⟩ := slewTerm_spec c smax inc
  have hamt : given = if 0 ≤ c.resid then (amt : Int) else -(amt : Int) := hgiven.trans hsign
  have habs : given.natAbs = amt := by rw [hamt]; split <;> omega
  refine ⟨?_, ?_, ?_, ?_, ?_, ?_, fun h => ?_, fun h h0 => ?_, rfl, rfl, rfl⟩
  · rw [hgiven]
    have wrap : (timeWrap : Int) ≠ 0 := by decide
    exact Int.toNat_of_nonneg (Int.emod_nonneg _ wrap)
  · rw [hgiven]
    rfl
  · rw [hresid, hamt]; split <;> omega
  · rw [hresid, hamt]; split <;> omega
  · rw [hresid, hamt]; split <;> omega
  · rw [habs]
    exact hmax
  · have hterm := slewTerm_of_not_slewing h smax inc
    exact ⟨by rw [hgiven, hterm], congrArg Prod.snd hterm⟩
  · rw [habs]
    refine hkept h fun heq => h0 ?_
    rw [hresid, hamt, heq]
    split <;> omega
end

section
/-!
Proofs/ClockEvents: the events of the reference slots and loops, of the APLL and bypass, and of the Sundial.
-/
namespace Sys2Proof.Machine

/-! ### Conditions of an event -/

theorem next_congr {t u : State} (h : t = u) : (.next t : Result) = .next u := congrArg _ h

theorem next_pos {c : Prop} [Decidable c] {t u : State} (h : c) : (.next (if c then t else u) : Result) = .next t := congrArg _ (if_pos h)

theorem next_neg {c : Prop} [Decidable c] {t u : State} (h : ¬c) : (.next (if c then t else u) : Result) = .next u := congrArg _ (if_neg h)

/-- A condition that is a value of `Bool` and does not hold. -/
theorem not_of_false {b : Bool} (h : b = false) : ¬(b = true) := Bool.eq_false_iff.mp h

theorem bnot_of_false {b : Bool} (h : b = false) : (!b) = true := by rw [h, Bool.not_false]

theorem not_bnot_of_true {b : Bool} (h : b = true) : ¬((!b) = true) := by rw [h, Bool.not_true]; exact Bool.false_ne_true

/-! ### Reference slots and loops -/

section
variable {s : State} {n : Nat} {x : Arrival}

theorem arrive_of_idle (h : (clkRuns s && refEnabled s n) = false) : arrive s n x = s := by
  refine if_pos ?_
  rw [Bool.and_eq_false_iff] at h
  obtain h | h := h
  · exact .inl (by simp [h])
  · exact .inr (by simp [h])

theorem arrive_of_runs (hc : clkRuns s = true) (he : refEnabled s n = true) :
    arrive s n x = match arrivalValid s n x with
      | some true => handIfPending (handIfPending (gainActivity (arrivalOffsets s n x) n) n 0) n 1
      | some false => loseActivity s n
      | none => s :=
  if_neg (by simp [hc, he])

theorem loseActivity_of_active (he : refEnabled s n = true) (ha : refActive s n = true) :
    loseActivity s n = dropPhase (judgeSlot ((s.setFlag (refStatus n) 3 false).orReg (refHist n) (bitW 3 true)) n) n :=
  if_pos (by rw [he, ha]; rfl)

end

theorem wrSigned_clk (s : State) (a : Nat) (x : Int) : (s.wrSigned a x).clk = s.clk := by
  unfold State.wrSigned
  split
  · rfl
  · rfl

theorem regsCanonical_wrSigned {s : State} (h : s.regsCanonical) (a : Nat) (x : Int) : (s.wrSigned a x).regsCanonical := by
  unfold State.wrSigned
  split
  · exact regsCanonical_wr h _ _
  · exact regsCanonical_wr h _ _

theorem loopRec_setLoopRec_self {s : State} (h : AMap.wf s.clk.dplls = true) (d : Nat) (r : DpllSt) : loopRec (setLoopRec s d r) d = r :=
  AMap.getD_put_self _ _ _ _ (AMap.rising_of_wf _ h)

/-- Registers hold no part of a loop's record. -/
theorem loopRec_of_clk {s t : State} (h : t.clk = s.clk) (d : Nat) : loopRec t d = loopRec s d := by rw [loopRec, loopRec, h]

/-- The registers that a held loop drives: its frequency, and for loop 0 the uncertainty and the age of the model (R142). -/
def driveHeld (s : State) (d : Nat) (y : Int) (unc age : Word) : State :=
  if d = 0 then ((s.wrSigned (dpllFreq d) y).wr (clkB + 0x414) unc).wr (clkB + 0x418) age else s.wrSigned (dpllFreq d) y

theorem loopRec_driveHeld (s : State) (d : Nat) (y : Int) (unc age : Word) (k : Nat) : loopRec (driveHeld s d y unc age) k = loopRec s k := by
  refine loopRec_of_clk ?_ k
  unfold driveHeld
  split
  · exact wrSigned_clk _ _ _
  · exact wrSigned_clk _ _ _

theorem rd_age_driveHeld {s : State} (h : s.regsCanonical) (y : Int) (unc age : Word) : (driveHeld s 0 y unc age).rd (clkB + 0x418) = age :=
  rd_wr_self (regsCanonical_wr (regsCanonical_wrSigned h _ _) _ _) _ _

end Sys2Proof.Machine

/-! ### The obligations -/

open Sys2Proof Sys2Proof.Machine

/-- Settles O31, event by event. -/
theorem referenceAndLoopEventsHaveTheirEffect : Obligations.ReferenceAndLoopEventsHaveTheirEffect := by
  intro s
  refine ⟨?refPulseArrival, ?refActivityLost, ?foffIdle, ?foffUpdate, ?foffMeasured, ?slotQualified, ?selectionTick, ?dpllLocked, ?holdoverBin,
    ?holdoverIdle, ?holdoverSecond⟩
  case refPulseArrival =>
    refine fun n x => ⟨fun h => next_congr (arrive_of_idle h), fun hc he hv => next_congr ?_, fun hc he hv => next_congr ?_,
      fun hc he hv => next_congr ?_⟩
    · rw [arrive_of_runs hc he, hv]
    · rw [arrive_of_runs hc he, hv]
    · rw [arrive_of_runs hc he, hv]
  case refActivityLost =>
    refine fun n => ⟨fun h => next_congr ?_, fun hc he ha => next_congr ((if_pos hc).trans (loseActivity_of_active he ha))⟩
    split
    next hc => exact if_neg (by simpa [hc] using h)
    next => rfl
  case foffIdle => exact fun n raw h => if_neg (not_of_false h)
  case foffUpdate => exact fun n hc he ha => if_pos (by simp [hc, he, ha])
  case foffMeasured => exact fun n y hc he ha => if_pos (by simp [hc, he, ha])
  case slotQualified => exact fun n => ⟨fun h => if_neg h, fun h => if_pos h⟩
  case selectionTick => exact fun meas => ⟨fun h => if_pos (by simp [h]), fun h => if_neg (by simp [h])⟩
  case dpllLocked => exact fun d => ⟨fun h => if_neg h, fun h => if_pos h⟩
  case holdoverBin => exact fun y0 y2 y3 => ⟨fun h => if_pos (by simp [h]), fun h => if_neg (by simp [h])⟩
  case holdoverIdle => exact fun d h => if_neg h
  case holdoverSecond =>
    intro d hc hd hm hwf
    have held {r : DpllSt} {y : Int} {unc age : Word} : loopRec (driveHeld (setLoopRec s d r) d y unc age) d = r :=
      (loopRec_driveHeld _ _ _ _ _ _).trans (loopRec_setLoopRec_self hwf _ _)
    refine ⟨driveHeld (setLoopRec s d _) d _ _ _, if_pos ⟨hc, hd, hm⟩, congrArg DpllSt.age held, congrArg DpllSt.d held, ?_, fun h0 hcan => ?_⟩
    · rw [held]
      exact (Nat.le_add_right _ _).trans (Nat.le_add_right _ _)
    · rw [h0]
      exact rd_age_driveHeld (s := setLoopRec s _ _) hcan _ _ _

/-- Settles O32, event by event. -/
theorem bypassEventsHaveTheirEffect : Obligations.BypassEventsHaveTheirEffect := by
  intro s
  refine ⟨?lossIdle, ?apllLossOfLock, ?apllLock, ?bypassReturn, ?bypassIncScale, ?delayWalkDone⟩
  case lossIdle => exact fun h => if_neg h
  case apllLossOfLock =>
    intro hc hl hb
    have acts : exec .apllLossOfLock s = .next (loseLock s) := if_pos ⟨hc, hl, hb⟩
    refine ⟨fun h => acts.trans (next_pos h), fun h => acts.trans (next_neg (not_of_false h))⟩
  case apllLock => exact fun hz => ⟨fun h => if_neg h, fun h => if_pos h⟩
  case bypassReturn => exact ⟨fun h => if_neg h, fun h => if_pos h⟩
  case bypassIncScale => exact ⟨fun h => if_neg h, fun h => if_pos h⟩
  case delayWalkDone => exact fun k => ⟨fun h => if_neg h, fun h => if_pos h⟩

/-- Settles O33, event by event. -/
theorem sundialEventsHaveTheirEffect : Obligations.SundialEventsHaveTheirEffect := by
  intro s
  refine ⟨?sundialTick, ?domainStep, ?slewDone, ?switchNone, ?autoDomainSwitch, ?leapNone, ?leapSecond, ?compareIdle, ?compareFire, ?setNone,
    ?timeSetDone⟩
  case sundialTick => exact fun x => ⟨fun h => next_pos h, fun h => next_neg (not_of_false h)⟩
  case domainStep =>
    refine fun d => ⟨fun h => if_neg (not_of_false h), fun h h2 ha => (if_pos h).trans (next_neg ?_), fun h ha => (if_pos h).trans (next_pos ha)⟩
    exact not_or.mpr ⟨h2, ha⟩
  case slewDone => exact fun d => ⟨fun h => if_neg h, fun hr h0 => if_pos ⟨hr, h0⟩⟩
  case switchNone =>
    intro h
    simp only [exec, execAutoDomainSwitch, h]
  case autoDomainSwitch =>
    intro e h
    simp only [exec, execAutoDomainSwitch, h]
    exact ⟨fun hd => if_neg hd, fun hd => if_pos hd⟩
  case leapNone =>
    intro h
    simp only [exec, execLeapSecond, h]
  case leapSecond =>
    intro l h
    simp only [exec, execLeapSecond, h]
    exact ⟨fun hl => if_neg (Nat.not_le.mpr hl), fun hl => if_pos hl⟩
  case compareIdle => exact fun c h => if_neg h
  case compareFire =>
    exact fun c ha ht => ⟨fun h => (if_pos ⟨ha, ht⟩).trans (next_pos h), fun h => (if_pos ⟨ha, ht⟩).trans (next_neg (not_of_false h))⟩
  case setNone =>
    intro h
    simp only [exec, execTimeSetDone, h]
  case timeSetDone =>
    intro d h
    simp only [exec, execTimeSetDone, h]
    exact ⟨fun hr => if_neg hr, fun hr => if_pos hr⟩
end

section
/-!
Proofs/TimeAndTdcEvents: time words, PTP ports and local time, and the TDC.
-/
namespace Sys2Proof.Machine

theorem or_not_of_and_false {a b : Bool} (h : (a && b) = false) : (!a) = true ∨ (!b) = true := by
  rw [Bool.and_eq_false_iff] at h
  simpa using h

theorem or_not_of_and_and_false {a b c : Bool} (h : (a && b && c) = false) : (!a) = true ∨ (!b) = true ∨ (!c) = true := by
  rw [Bool.and_eq_false_iff, Bool.and_eq_false_iff, or_assoc] at h
  simpa using h

/-! ### Time words -/

/-- The eight words of a time word (R204). -/
def timeWordWords (dws : List Word) : List Word := (List.range 8).map (dwAt dws)

/-- A time word's check, its class of port, its hops and its nanoseconds are in order (R207, R208). -/
def wordFormed (s : State) (p : Nat) (w : List Word) : Bool :=
  decide (bits (dwAt w 6) 15 0 = twCheck w ∧ bits (dwAt w 0) 27 24 = s.fld (trkState p) 6 4 ∧ bits (dwAt w 0) 23 16 < 31 ∧ (dwAt w 2).toNat ≤ 999999999)

/-- The T2 of a time word received `sub` before the tick (R209). -/
def arrivalTime (s : State) (p dom sub : Nat) : Nat :=
  shiftTime ((ctrOf s dom).t + placedSub s sub) (-((laneRxd s p : Int)) - portRxAdj s p)

/-- The delays of a port's exchanges with that of the word, if it answers one (R209). -/
def exchangeDelays (s : State) (p : Nat) (w : List Word) (sub : Nat) : List Int :=
  let x := trkTime s p (bits (dwAt w 1) 4 4)
  match exchangeDelay x w (arrivalTime s p (bits (dwAt w 1) 4 4) sub) (s.elapsed + sub) with
  | some d => (d :: x.delays).take (2 ^ s.fld (sunB + 0x0F0) 3 0)
  | none => x.delays

/-- The record of a port's time words after one, with the delays `ds` (R209). -/
def keepExchange (s : State) (p : Nat) (w : List Word) (sub : Nat) (ds : List Int) : State :=
  setTrkTime s p (bits (dwAt w 1) 4 4)
    { trkTime s p (bits (dwAt w 1) 4 4) with
      delays := ds, echo := bits (dwAt w 0) 15 8, t4 := arrivalTime s p (bits (dwAt w 1) 4 4) sub, hops := bits (dwAt w 0) 23 16,
      qc := bits (dwAt w 1) 7 5, lastAt := some s.elapsed }

/-- The offset of the peer that a time word gives (R210). -/
def wordOffset (s : State) (p : Nat) (w : List Word) (sub : Nat) (ds : List Int) : Int :=
  (twT1 w : Int) + meanOf ds + divRound (portAsym s p) 2 - arrivalTime s p (bits (dwAt w 1) 4 4) sub

/-- What a formed time word leaves, with the delays `ds` (R209, R210). -/
def takeExchange (s : State) (p : Nat) (w : List Word) (sub : Nat) (ds : List Int) : State :=
  let dom := bits (dwAt w 1) 4 4
  if ds ≠ [] ∧ ((200000 * tuPerNs : Nat) : Int) < meanOf ds then badTimeWord (setTrkTime s p dom { trkTime s p dom with delays := ds }) p
  else
    let ofs : Option Int := if ds = [] then none else some (wordOffset s p w sub ds)
    let s2 := match ofs with
      | some o => histSample (keepExchange s p w sub ds) (some (p / 16)) 2 (p % 16 + 128 * dom) 0 (divRound (o * 1000) (2 ^ 40))
      | none => keepExchange s p w sub ds
    feedSlot7 (if dom = 0 ∧ ds ≠ [] then seeDelay s2 p (meanOf ds) else s2) p dom w ofs

theorem takeTimeWord_eq (s : State) (p : Nat) (dws : List Word) (sub : Nat) :
    takeTimeWord s p dws sub =
      if !trunkRuns s p ∨ bits (dwAt (timeWordWords dws) 0) 31 28 ≠ 1 then s
      else if !wordFormed s p (timeWordWords dws) then badTimeWord s p
      else takeExchange s p (timeWordWords dws) sub (exchangeDelays s p (timeWordWords dws) sub) := rfl

theorem exchangeDelays_eq (s : State) (p : Nat) (w : List Word) (sub : Nat) :
    ((exchangeDelay (trkTime s p (bits (dwAt w 1) 4 4)) w (arrivalTime s p (bits (dwAt w 1) 4 4) sub) (s.elapsed + sub)).map fun d =>
      (d :: (trkTime s p (bits (dwAt w 1) 4 4)).delays).take (2 ^ s.fld (sunB + 0x0F0) 3 0)).getD (trkTime s p (bits (dwAt w 1) 4 4)).delays =
    exchangeDelays s p w sub := by
  unfold exchangeDelays
  dsimp only
  cases exchangeDelay (trkTime s p (bits (dwAt w 1) 4 4)) w (arrivalTime s p (bits (dwAt w 1) 4 4) sub) (s.elapsed + sub) with
  | none => rfl
  | some d => rfl

section
variable {s : State} {p : Nat} {w : List Word} {sub : Nat} {ds : List Int}

/-- Before an exchange there is no offset. -/
theorem takeExchange_nil : takeExchange s p w sub [] = feedSlot7 (keepExchange s p w sub []) p (bits (dwAt w 1) 4 4) w none := by
  simp [takeExchange]

theorem takeExchange_long (h0 : ds ≠ []) (h : ((200000 * tuPerNs : Nat) : Int) < meanOf ds) :
    takeExchange s p w sub ds =
      badTimeWord (setTrkTime s p (bits (dwAt w 1) 4 4) { trkTime s p (bits (dwAt w 1) 4 4) with delays := ds }) p := if_pos ⟨h0, h⟩

theorem takeExchange_short (h0 : ds ≠ []) (h : meanOf ds ≤ ((200000 * tuPerNs : Nat) : Int)) :
    takeExchange s p w sub ds =
      let dom := bits (dwAt w 1) 4 4
      let o := wordOffset s p w sub ds
      let u := histSample (keepExchange s p w sub ds) (some (p / 16)) 2 (p % 16 + 128 * dom) 0 (divRound (o * 1000) (2 ^ 40))
      feedSlot7 (if dom = 0 then seeDelay u p (meanOf ds) else u) p dom w (some o) := by
  refine (if_neg fun hl => absurd hl.2 (Int.not_lt.mpr h)).trans ?_
  simp only [ne_eq, h0, not_false_eq_true, and_true, if_false]

end
end Sys2Proof.Machine

/-! ### The obligations -/

open Sys2Proof Sys2Proof.Machine

/-- Settles O34, event by event. -/
theorem timeTransferEventsHaveTheirEffect : Obligations.TimeTransferEventsHaveTheirEffect := by
  intro s
  refine ⟨?timeWordSend, ?timeWordReceive, ?ptpPortStateChange, ?localTimeMessage, ?timeBusLatencyMeasured⟩
  case timeWordSend => exact fun p dom sub => ⟨fun h => if_pos (or_not_of_and_and_false h), fun hr hd hw => if_neg (by simp [hr, hd, hw])⟩
  case timeWordReceive =>
    intro p dws sub w
    have took : takeTimeWord s p dws sub =
        if !trunkRuns s p ∨ bits (dwAt w 0) 31 28 ≠ 1 then s
        else if !wordFormed s p w then badTimeWord s p else takeExchange s p w sub (exchangeDelays s p w sub) := takeTimeWord_eq s p dws sub
    refine ⟨fun h => next_congr (took.trans (if_pos (h.imp_left fun hr => by simp [hr]))), fun hr hk hbad => next_congr (took.trans ?_),
      fun hr hk h1 h2 h3 h4 => ?_⟩
    · have bad : wordFormed s p w = false := decide_eq_false fun ⟨h1, h2, h3, h4⟩ => by
        obtain h | h | h | h := hbad
        · exact h h1
        · exact h h2
        · exact Nat.not_lt.mpr h h3
        · exact Nat.not_le.mpr h h4
      rw [if_neg (by simp [hr, hk]), if_pos (by rw [bad]; rfl)]
    · have formed : wordFormed s p w = true := decide_eq_true ⟨h1, h2, h3, h4⟩
      rw [if_neg (by simp [hr, hk]), if_neg (by rw [formed]; decide)] at took
      intro dom x t2 ds s1 o
      have hds : ds = exchangeDelays s p w sub := exchangeDelays_eq s p w sub
      rw [← hds] at took
      refine ⟨fun h0 => next_congr (took.trans ?_), fun h0 hl => next_congr (took.trans (takeExchange_long h0 hl)),
        fun h0 hs => next_congr (took.trans (takeExchange_short h0 hs))⟩
      rw [h0, takeExchange_nil, ← h0]
      rfl
  case ptpPortStateChange =>
    refine fun p st mpd => ⟨?_, fun h2 hp => ?_, fun h1 hp h3 => ?_, fun h1 hp h3 => ?_⟩
    · rintro (⟨h1, h2⟩ | hp)
      · by_cases hp : portIs s p 0 = true
        · exact (if_neg (by simp [hp])).trans ((if_neg h2).trans (if_pos h1))
        · exact if_pos (by simpa using hp)
      · exact if_pos (by simp [hp])
    · exact (if_neg (by simp [hp])).trans (if_pos h2)
    · exact (if_neg (by simp [hp])).trans ((if_neg (by simp [h1])).trans ((if_neg (not_not.mpr h1)).trans (next_pos h3)))
    · exact (if_neg (by simp [hp])).trans ((if_neg (by simp [h1])).trans ((if_neg (not_not.mpr h1)).trans (next_neg h3)))
  case localTimeMessage =>
    intro p sec utc slot
    have acts : exec (.localTimeMessage p sec utc) s = match slot with
        | some n =>
          if portIs s p 2 ∧ trkSt s p = 7 then
            .next (loadUtc (if nodeTime s / tuPerSec = sec.toNat ∨ s.sun.setDom.isSome then s
              else judgeSlot ((takeSet (dropPhase (judgeSlot (s.setFlag (refCfg n) 0 false) n) n) 0
                (sec.toNat * tuPerSec + nodeTime s % tuPerSec) false).setFlag (refCfg n) 0 true) n) utc)
          else .next s
        | none => .next s := rfl
    rw [acts]
    refine ⟨?_, fun n hn hp ht => ?_⟩
    · rintro (h | h | h)
      · rw [h]
      · cases slot with
        | none => rfl
        | some n => exact if_neg fun hc => by simp [h] at hc
      · cases slot with
        | none => rfl
        | some n => exact if_neg fun hc => h hc.2
    · rw [hn]
      refine ⟨fun h => ?_, fun h hs => ?_⟩
      · exact (if_pos ⟨hp, ht⟩).trans (next_congr (congrArg (loadUtc · utc) (if_pos h)))
      · exact (if_pos ⟨hp, ht⟩).trans (next_congr (congrArg (loadUtc · utc) (if_neg (by simp [h, hs]))))
  case timeBusLatencyMeasured => rfl
end

section
/-!
Proofs/TdcEvents: the events of the TDC.
-/
namespace Sys2Proof.Machine

/-- RESULT_LO of channel `n` (R248). -/
theorem regOf_resLo : ∀ n : Fin 16, (regOf (tdcB + 0x408 + 0x40 * n.val)).map (fun x => (x.row.eff, x.i, x.addr)) =
    some (.tdcResLo, n.val, tdcB + 0x408 + 0x40 * n.val) := by decide +kernel

theorem readEffect_resLo {x : Reg} (h : x.row.eff = .tdcResLo) (s : State) (m : Master) :
    readEffect s m x = latch (popResult s x.i).1 m (x.addr + 4) (hiHalf (popResult s x.i).2) := by
  unfold readEffect
  rw [h]

theorem readView_resLo {x : Reg} (h : x.row.eff = .tdcResLo) (s : State) (m : Master) : readView s m x = w32 (popResult s x.i).2 := by
  unfold readView
  rw [h]

/-- When an edge happened whose coarse count is `c`, as the TDC's guards judge it (R235). -/
def edgeTime (s : State) (n c : Nat) : Nat :=
  if inBypass s then s.elapsed - s.sun.bypInc
  else s.elapsed - (((timeOf s (tdcDom s n) / 2 ^ 24 : Nat) : Int) - edgeOf s n (tdcDom s n) c (timeOf s (tdcDom s n))).toNat * 2 ^ 24

/-- An edge within 50 ns of the channel's last (R241). -/
def edgeEarly (s : State) (n : Nat) (e : Nat) : Bool :=
  match (tdcCh s n).lastEdge with
  | some l => decide (e < l + 50 * tuPerNs)
  | none => false

/-- What a measured edge leaves (R236 to R240). -/
def edgeTaken (s : State) (n : Nat) (fall : Bool) (c c1 c2 : Nat) : State :=
  let d := tdcDom s n
  let tstop := timeOf s d
  let carrier := n * 16 + (if fall then 8 else 0) + 4
  let s1 := setTdcCh s n { tdcCh s n with lastEdge := some (edgeTime s n c) }
  if inBypass s then
    giveResult (countEdge s1 n (edgeTime s n c)) n (stampTag s d true carrier * 2 ^ 48 + csBody (tstop - s.sun.bypInc))
  else
    let p := takePair s1 n c1 c2
    let s2 := countEdge (p.1.wr (tdcCfg n + 0x10) (fieldW 11 0 c)) n (edgeTime s n c)
    if !p.2 then s2.count (tdcCfg n + 0x30)
    else if 256 * c + 32 * 256 < s.fld (tdcCfg n + 0x18) 19 0 ∨ s.fld (tdcCfg n + 0x1C) 19 0 + 32 * 256 < 256 * c then
      s2.count (tdcCfg n + 0x30)
    else
      giveResult s2 n (stampTag s d false carrier * 2 ^ 48 + csBody (edgeOf s n d c tstop * 2 ^ 24 % (timeWrap : Int)).toNat)

theorem measureEdge_eq (s : State) (n : Nat) (fall : Bool) (c c1 c2 : Nat) :
    measureEdge s n fall c c1 c2 =
      if !armedThen s n (edgeTime s n c) ∨ (tdcCh s n).retired ∨ (s.fld (tdcCfg n) 1 0 = 0 ∧ fall) ∨ (s.fld (tdcCfg n) 1 0 = 1 ∧ !fall) then s
      else if s.tdc.hold.contains n then tdcMiss s n
      else if edgeEarly s n (edgeTime s n c) then tdcMiss (setTdcCh s n { tdcCh s n with quietAt := s.elapsed }) n
      else edgeTaken s n fall c c1 c2 := rfl

end Sys2Proof.Machine

/-! ### The obligations -/

open Sys2Proof Sys2Proof.Machine

/-- Settles O35, event by event. -/
theorem tdcEventsHaveTheirEffect : Obligations.TdcEventsHaveTheirEffect := by
  intro s
  refine ⟨?tdcEdge, ?pairNone, ?tdcPairTimeout, ?tdcIdleCalibration, ?tdcGateRise, ?tdcGateFall, ?tdcResultRead⟩
  case tdcEdge =>
    intro n fall c c1 c2 tstop at_ wrong
    have took : measureEdge s n fall c.toNat c1.toNat c2.toNat =
        if !armedThen s n at_ ∨ (tdcCh s n).retired ∨ (s.fld (tdcCfg n) 1 0 = 0 ∧ fall) ∨ (s.fld (tdcCfg n) 1 0 = 1 ∧ !fall) then s
        else if s.tdc.hold.contains n.val then tdcMiss s n
        else if edgeEarly s n at_ then tdcMiss (setTdcCh s n { tdcCh s n with quietAt := s.elapsed }) n
        else edgeTaken s n fall c.toNat c1.toNat c2.toNat := measureEdge_eq s n fall c.toNat c1.toNat c2.toNat
    refine ⟨fun h => next_congr (took.trans (if_pos ?_)), fun ha hr hw => ?_⟩
    · obtain h | h | ⟨h, hf⟩ | ⟨h, hf⟩ := h
      · exact .inl (by rw [h]; rfl)
      · exact .inr (.inl h)
      · exact .inr (.inr (.inl ⟨h, hf⟩))
      · exact .inr (.inr (.inr ⟨h, by rw [hf]; rfl⟩))
    rw [if_neg (by rw [ha, hr]; simpa [wrong] using hw)] at took
    refine ⟨fun hh => next_congr (took.trans (if_pos hh)), ?_, fun hh e he hlt => ?_⟩
    · intro hh he s1 carrier
      have late : edgeEarly s n at_ = false := by
        unfold edgeEarly
        split
        · next l hl => exact decide_eq_false (Nat.not_lt.mpr (he l hl))
        · rfl
      rw [if_neg (not_of_false hh), if_neg (not_of_false late)] at took
      refine ⟨fun hb => next_congr (took.trans (if_pos hb)), ?_⟩
      intro hb q s2 far
      have unbypassed := took.trans (if_neg (not_of_false hb))
      refine ⟨fun h => next_congr (unbypassed.trans ?_), fun hq hf => next_congr (unbypassed.trans ((if_neg (not_bnot_of_true hq)).trans (if_neg hf)))⟩
      by_cases hq : q.2 = true
      · exact (if_neg (not_bnot_of_true hq)).trans (if_pos (h.resolve_left (by simp [hq])))
      · exact if_pos (bnot_of_false (Bool.eq_false_iff.mpr hq))
    · have early : edgeEarly s n at_ = true := by
        unfold edgeEarly
        rw [he]
        exact decide_eq_true hlt
      exact next_congr (took.trans ((if_neg (not_of_false hh)).trans (if_pos early)))
  case pairNone =>
    intro u h
    simp only [exec, execTdcPairTimeout, h]
  case tdcPairTimeout =>
    intro u a h
    simp only [exec, execTdcPairTimeout, h]
    exact ⟨fun ho => if_neg ho, fun ho => if_pos ho⟩
  case tdcIdleCalibration => exact fun n c1 c2 => ⟨fun h => if_neg h, fun h => if_pos h⟩
  case tdcGateRise => exact fun g => rfl
  case tdcGateFall => exact fun g => rfl
  case tdcResultRead =>
    intro m be n hm
    obtain ⟨x, hx, hinfo⟩ := Option.map_eq_some_iff.mp (regOf_resLo n)
    obtain ⟨heff, hinfo⟩ := Prod.mk.inj hinfo
    obtain ⟨hi, haddr⟩ := Prod.mk.inj hinfo
    have haddr4 : x.addr + 4 = tdcB + 0x40C + 0x40 * n.val := by omega
    have read := busRead_reg (be := be) hm hx
    rw [readEffect_resLo heff, readView_resLo heff, hi, haddr4] at read
    exact next_congr read
end

section
/-!
Proofs/CalibrationEvents: the events of live calibration.
-/
namespace Sys2Proof.Machine

section
variable {s : State} {k i : Nat}

theorem askCal_of_run (h : (calItem s k i).run = true) : askCal s k i = s := if_pos h

theorem askCal_of_may (h : (calItem s k i).run = false) (hm : calMay s k i = true) : askCal s k i = startCal s k i :=
  (if_neg (not_of_false h)).trans (if_pos hm)

end

/-- What the end of an asymmetry run leaves, with the range that is compared, if one is (R262 to R265). -/
def asymJudged (s : State) (p : Nat) (n1 n2 : Int) (d1 d2 : Nat) (range : Option Int) : State :=
  let num := n1 * d2 + n2 * d1
  let den := 2 * d1 * d2
  match range with
  | some r =>
    let off := (r * (den * 2 ^ 40 : Nat) - num * 1000).natAbs
    if calTol s 2 * (den * 2 ^ 40) < off then
      forEach (lanesOf s p) (discardRun s 2 p (divRound (off : Nat) (den * 2 ^ 40)).toNat) fun l t => askCal t 1 l
    else (acceptAsym s p num den).setFlag (tdcB + 0x060) 9 false
  | none => (acceptAsym s p num den).setFlag (tdcB + 0x060) 9 (calItem s 2 p).noRange

theorem finishAsym_of_means {s : State} {p : Nat} {n1 n2 : Int} {d1 d2 : Nat} (h : asymMeans s p = some ((n1, d1), (n2, d2))) :
    finishAsym s p =
      if calTol s 2 * (d1 * d2 * 2 ^ 40) < (n1 * d2 - n2 * d1).natAbs * 1000 then
        discardRun s 2 p (divRound (((n1 * d2 - n2 * d1).natAbs * 1000 : Nat)) (d1 * d2 * 2 ^ 40)).toNat
      else
        asymJudged s p n1 n2 d1 d2
          (if s.flag (tdcB + 0x3000 + 0x10 * p) 1 && !(calItem s 2 p).noRange then (calItem s 2 p).ranged else none) := by
  unfold finishAsym
  rw [h]
  rfl

end Sys2Proof.Machine

/-! ### The obligations -/

open Sys2Proof Sys2Proof.Machine

/-- Settles O36, event by event. -/
theorem calibrationEventsHaveTheirEffect : Obligations.CalibrationEventsHaveTheirEffect := by
  intro s
  refine ⟨?calTrigger, ?calDeferredStart, ?noRun, ?calRunComplete, ?asymComplete, ?stepTdc, ?stepLane, ?stepAsym, ?calRangingTimeout⟩
  case calTrigger =>
    refine fun k i => ⟨?_, fun hd hm ha hr => (if_pos ⟨hd, hm, ha⟩).trans (next_congr (askCal_of_may hr hm))⟩
    rintro (h | h)
    · exact if_neg h
    · by_cases hc : calDue s k i = true ∧ calMay s k i = true ∧ (calItem s k i).retryAt ≤ s.elapsed
      · exact (if_pos hc).trans (next_congr (askCal_of_run h))
      · exact if_neg hc
  case calDeferredStart => exact fun l => ⟨fun h => if_neg h, fun h => if_pos h⟩
  case noRun => exact fun k i a0 a1 b0 b1 h => if_pos (bnot_of_false h)
  case calRunComplete =>
    intro k i a0 a1 b0 b1 hr hk d
    have done : exec (.calRunComplete k i a0 a1 b0 b1) s = .next (finishRun s k i a0 a1 b0 b1) :=
      (if_neg (not_bnot_of_true hr)).trans (if_pos hk)
    refine ⟨fun h => done.trans (next_pos h), fun h => ⟨fun h0 => ?_, fun h1 => ?_⟩⟩
    · exact done.trans ((next_neg (Nat.not_lt.mpr h)).trans (next_pos h0))
    · exact done.trans ((next_neg (Nat.not_lt.mpr h)).trans (next_neg (by omega)))
  case asymComplete =>
    intro i a0 a1 b0 b1 x ranges
    have ranging : ranges = true ∧ x.ranged = none ↔
        s.flag (tdcB + 0x3000 + 0x10 * i.val) 1 = true ∧ (!x.noRange) = true ∧ x.ranged.isNone = true := by
      rw [Bool.and_eq_true, Option.isNone_iff_eq_none, and_assoc]
    refine ⟨fun hr h => ?_, fun hr ht hx n1 n2 d1 d2 hm => ?_⟩
    · exact (if_neg (not_bnot_of_true hr)).trans ((if_neg (by decide)).trans (if_pos (h.imp_right ranging.mp)))
    have done : exec (.calRunComplete 2 i a0 a1 b0 b1) s = .next (finishAsym s i) :=
      (if_neg (not_bnot_of_true hr)).trans ((if_neg (by decide)).trans
        (if_neg (not_or.mpr ⟨Nat.not_lt.mpr ht, fun h => hx (ranging.mpr h)⟩)))
    rw [finishAsym_of_means hm] at done
    intro unit apart num den
    refine ⟨fun h => done.trans (next_pos h), fun h => ?_⟩
    have judged := done.trans (next_neg (Nat.not_lt.mpr h))
    refine ⟨fun hr => ?_, fun r hr hx => ?_⟩
    · rw [if_neg (not_of_false hr)] at judged
      exact judged
    · rw [if_pos hr, hx] at judged
      exact ⟨fun h => judged.trans (next_pos h), fun h => judged.trans (next_neg (Nat.not_lt.mpr h))⟩
  case stepTdc =>
    intro i x
    refine ⟨fun h => next_pos ?_, fun h1 h2 h3 => next_neg ?_, fun h => next_pos ?_, fun h1 h2 h3 => next_neg ?_, fun h => next_pos ?_,
      fun h1 h2 h3 => next_neg ?_⟩
    · exact h.imp_right (.imp_right bnot_of_false)
    · exact not_or.mpr ⟨h1, not_or.mpr ⟨h2, not_bnot_of_true h3⟩⟩
    · exact h.imp_right (.imp_right bnot_of_false)
    · exact not_or.mpr ⟨h1, not_or.mpr ⟨h2, not_bnot_of_true h3⟩⟩
    · exact h.imp_right (.imp_right bnot_of_false)
    · exact not_or.mpr ⟨Nat.not_le.mpr h1, not_or.mpr ⟨h2, not_bnot_of_true h3⟩⟩
  case stepLane =>
    intro i x
    refine ⟨fun h => next_pos ?_, fun h1 h2 => next_neg ?_⟩
    · exact h.imp bnot_of_false bnot_of_false
    · exact not_or.mpr ⟨not_bnot_of_true h1, not_bnot_of_true h2⟩
  case stepAsym =>
    intro i v s1
    refine ⟨fun h => next_pos (h.imp bnot_of_false bnot_of_false), fun h1 h2 => ?_⟩
    have moves : ¬((!asymMoves s i) = true ∨ (!stepFree s 2 i tuPerSec) = true) := not_or.mpr ⟨not_bnot_of_true h1, not_bnot_of_true h2⟩
    exact ⟨fun h => (next_neg moves).trans (next_neg h), fun h => (next_neg moves).trans (next_pos h)⟩
  case calRangingTimeout => exact fun p => ⟨fun h => if_neg h, fun h => if_pos h⟩
end

section
/-!
Proofs/GnssSignalEvents: the events of the Belvedere's inputs, notches and correlators.
-/
namespace Sys2Proof.Machine

/-- What the result words of an epoch leave: an event record of them if one is asked for, counted where the ring has no room (R301, R302). -/
def epochRecord (s t : State) (c : Nat) (ws : List (List Word)) : State :=
  if s.flag (chanCfg c) 23 then
    let e := eventWrite t (s.fld (chanCfg c) 31 24) 0x03 c ws
    if e.2 then e.1 else e.1.count (chanCfg c + 0x64)
  else t

/-- The words of an epoch's record, descriptor by descriptor (R302). -/
def epochWords (ph : Word × Word) (st : Nat) (cn0 : Word) (w : Nat → Word) : List (List Word) :=
  [[ph.1] ++ dwPair st ++ [ph.2, cn0, w 0, w 1], (List.range 6).map fun i => w (2 + i), (List.range 6).map fun i => w (8 + i)]

theorem flatten_epochWords (ph : Word × Word) (st : Nat) (cn0 : Word) (w : Nat → Word) :
    (epochWords ph st cn0 w).flatten = ph.1 :: dwPair st ++ ph.2 :: cn0 :: (List.range 14).map w := by
  simp [epochWords, List.range_succ]

theorem epochRecord_or {s t : State} {c : Nat} (h : s.flag (chanCfg c) 23 = true) (ws : List (List Word)) :
    epochRecord s t c ws = (eventWrite t (s.fld (chanCfg c) 31 24) 0x03 c ws).1 ∨
      epochRecord s t c ws = (eventWrite t (s.fld (chanCfg c) 31 24) 0x03 c ws).1.count (chanCfg c + 0x64) := by
  unfold epochRecord
  rw [if_pos h]
  dsimp only
  split
  · exact .inl rfl
  · exact .inr rfl

end Sys2Proof.Machine

/-! ### The obligations -/

open Sys2Proof Sys2Proof.Machine

/-- Settles O37, event by event. -/
theorem gnssSignalEventsHaveTheirEffect : Obligations.GnssSignalEventsHaveTheirEffect := by
  intro s
  refine ⟨?notchSearch, ?notchRelease, ?acqDone, ?epochEnd, ?antennaSame, ?antennaFault, ?antennaClear⟩
  case notchSearch =>
    intro n k lines depth pwr fl follow a key old sa b run at_ here
    have searches : ¬((!gnsRuns s) = true ∨ (!s.flag (feCfg n) 8) = true ∨ s.elapsed < old.next) ↔ here := by
      simp [here]
    refine ⟨fun h => if_pos (not_not.mp (mt searches.mp h)), fun h => ?_⟩
    have goes {r q : Result} (hr : q = r) : (if (!gnsRuns s) = true ∨ (!s.flag (feCfg n) 8) = true ∨ s.elapsed < old.next then .next s else q) = r :=
      (if_neg (searches.mpr h)).trans hr
    have searched (h1 : b.fld a 1 0 = 1) (h2 : b.fld (a + 0x0C) 1 0 ≠ 2) : run = match bestLine b n k lines fl with
        | some x => .next (judgeJam (gnsEvent (at_ b x) 7) n)
        | none => .next b :=
      goes ((if_neg (not_not.mpr h1)).trans (if_neg h2))
    refine ⟨fun h1 => goes (if_pos h1), fun h1 h2 => ⟨fun hf => goes ?_, fun x hf => goes ?_⟩,
      fun h1 h2 => ⟨fun hb => (searched h1 h2).trans ?_, fun x hb => (searched h1 h2).trans ?_⟩⟩
    · rw [hf]
      exact (if_neg (not_not.mpr h1)).trans (if_pos h2)
    · rw [hf]
      exact (if_neg (not_not.mpr h1)).trans (if_pos h2)
    · rw [hb]
    · rw [hb]
  case notchRelease => exact fun n k => ⟨fun h => if_neg h, fun h => if_pos h⟩
  case acqDone => exact fun pnr code dop i => ⟨fun h => if_neg h, fun h => if_pos h⟩
  case epochEnd =>
    intro c data pilot half cn0 a runs ph sums base s2
    have ends : exec (.epochEnd c data pilot half cn0 ()) s = match (gnsCh s c).ended with
        | none => .next s
        | some st => if !gnsRuns s ∨ !s.flag a 0 ∨ chanState s c ≠ 1 then .next s
          else .next (applyEpoch (epochRecord s (s2 st) c (epochWords ph st cn0 fun i => sums.getD i 0)) c) := rfl
    have idle : runs = false ↔ (!gnsRuns s) = true ∨ (!s.flag a 0) = true ∨ chanState s c ≠ 1 := by
      simp only [runs, Bool.and_eq_false_iff, Bool.not_eq_true', or_assoc, beq_eq_false_iff_ne]
    rw [ends]
    refine ⟨?_, fun st he hr => ?_⟩
    · cases he : (gnsCh s c).ended with
      | none => exact fun _ => rfl
      | some st => exact fun h => if_pos (idle.mp (h.resolve_left nofun))
    · rw [he]
      have applied {u : State} : (if (!gnsRuns s) = true ∨ (!s.flag a 0) = true ∨ chanState s c ≠ 1 then (.next s : Result) else .next u) = .next u :=
        if_neg fun h => by simp [idle.mpr h] at hr
      refine ⟨fun h => applied.trans (next_congr (congrArg (applyEpoch · c) (if_neg (not_of_false h)))),
        fun h => ⟨_, applied, epochWords ph st cn0 fun i => sums.getD i 0, ?_, ?_⟩⟩
      · exact epochRecord_or h _
      · exact flatten_epochWords ph st cn0 fun i => sums.getD i 0
  case antennaSame => exact fun low h => if_pos h
  case antennaFault => exact fun h => if_neg (by simp [h])
  case antennaClear => exact fun h => if_neg (by simp [h])
end

section
/-!
Proofs/GnssTimeEvents: the time solution, the Belvedere's pulse, the snapshots and the Grotto's jobs.
-/
namespace Sys2Proof.Machine

/-- Of two delays the one nearer to `goal`, the first of them if they are as near. -/
def nearer (goal b x : Int) : Int := if (x - goal).natAbs < (b - goal).natAbs then x else b

theorem nearer_or (goal b x : Int) : nearer goal b x = b ∨ nearer goal b x = x := by
  unfold nearer
  split
  · exact .inr rfl
  · exact .inl rfl

theorem nearer_le (goal b x : Int) : (nearer goal b x - goal).natAbs ≤ (b - goal).natAbs ∧ (nearer goal b x - goal).natAbs ≤ (x - goal).natAbs := by
  unfold nearer
  split <;> omega

/-- The delay that an exchange takes is one of all, and none is nearer to `goal` (R327). -/
theorem foldl_nearer (goal : Int) (t : List Int) (d : Int) :
    t.foldl (nearer goal) d ∈ d :: t ∧ ∀ y ∈ d :: t, (t.foldl (nearer goal) d - goal).natAbs ≤ (y - goal).natAbs := by
  induction t generalizing d with
  | nil => simp
  | cons x t ih =>
    obtain ⟨hmem, hle⟩ := ih (nearer goal d x)
    obtain ⟨hd, hx⟩ := nearer_le goal d x
    have hfirst := hle _ (List.mem_cons_self ..)
    refine ⟨?_, fun y hy => ?_⟩
    · rw [List.foldl_cons]
      obtain h | h := List.mem_cons.mp hmem
      · rw [h]
        obtain h | h := nearer_or goal d x <;> simp [h]
      · exact List.mem_cons_of_mem _ (List.mem_cons_of_mem _ h)
    · obtain rfl | hy := List.mem_cons.mp hy
      · exact hfirst.trans hd
      obtain rfl | hy := List.mem_cons.mp hy
      · exact hfirst.trans hx
      · exact hle y (List.mem_cons_of_mem _ hy)

/-- A job that a correlator channel takes; ranging takes a marker channel with it (R320). -/
theorem claimChannel_of_some {s : State} {j c : Nat} (h : freeChan s = some c) :
    claimChannel s j =
      if s.fld (grtCfg j) 1 0 == 2 && (freeMarker s).isNone then s.setFld (grtCfg j + 0x14) 2 0 1
      else
        let s1 := (s.setFld (chanCfg c + 0x14) 1 0 2).setFld (grtCfg j + 0x14) 2 0 2
        setJobRec s1 j { jobRec s1 j with
          chan := some c, marker := if s.fld (grtCfg j) 1 0 == 2 then freeMarker s else none, start := max (jobRec s1 j).start (nodeTime s1) } := by
  simp only [claimChannel, h]

end Sys2Proof.Machine

/-! ### The obligations -/

open Sys2Proof Sys2Proof.Machine

/-- Settles O38, event by event. -/
theorem gnssTimeEventsHaveTheirEffect : Obligations.GnssTimeEventsHaveTheirEffect := by
  intro s
  refine ⟨?timeSolutionUpdate, ?timeMessage, ?belvederePps, ?gnssUtcLoad, ?snapshotCaptureStart, ?snapshotCaptureEnd⟩
  case timeSolutionUpdate =>
    intro x px py pz s1 n v sum s2 mean surveys
    refine ⟨fun h => if_pos (bnot_of_false h), fun h hn => ?_, fun h hy hl => ?_, fun h hy hl => ?_⟩
    · exact (if_neg (not_bnot_of_true h)).trans (if_neg hn)
    · exact (if_neg (not_bnot_of_true h)).trans ((if_pos hy).trans (if_neg (Nat.not_le.mpr hl)))
    · exact (if_neg (not_bnot_of_true h)).trans ((if_pos hy).trans (if_pos hl))
  case timeMessage =>
    intro x sec utc pend sign lead s1 e ws s2 s3 early
    have late : ¬((!gnsRuns s) = true ∨ lead < 50000000 * tuPerNs) ↔ early := by simp [early]
    refine ⟨fun h => if_pos (not_not.mp (mt late.mp h)), fun h hf => ?_, fun h hf => ?_⟩
    · exact (if_neg (late.mpr h)).trans (next_neg (not_of_false hf))
    · exact (if_neg (late.mpr h)).trans (next_pos hf)
  case belvederePps =>
    intro interval due sub s0 s1 src run
    have comes : ¬((!gnsRuns s) = true ∨ (!pulseKept s) = true ∨ s.gns.emitted = true ∨
        s.gns.msgAt < s.gns.vco ∨ s.gns.vco + vcoPerTick ≤ s.gns.msgAt) ↔
        due := by
      simp [due]
    refine ⟨fun h => if_pos (not_not.mp (mt comes.mp h)), fun h hk => ?_, fun h hk => ?_⟩
    · exact (if_neg (comes.mpr h)).trans (next_congr (congrArg (arrive · 4 (.pps interval sub)) (if_neg (not_of_false hk))))
    · exact (if_neg (comes.mpr h)).trans (next_congr (congrArg (arrive · 4 (.pps interval sub)) (if_pos hk)))
  case gnssUtcLoad => exact ⟨fun h => if_neg h, fun h => if_pos h⟩
  case snapshotCaptureStart => exact fun k => ⟨fun h => if_neg h, fun h => if_pos h⟩
  case snapshotCaptureEnd => exact fun k => ⟨fun h => if_neg h, fun h => if_pos h⟩

/-- Settles O39, event by event. -/
theorem grottoEventsHaveTheirEffect : Obligations.GrottoEventsHaveTheirEffect := by
  intro s j
  refine ⟨?claimNone, ?grottoChannelClaim, ?grottoWaitTimeout, ?rangingExchange, ?grottoPeerTimeout, ?grottoDone⟩
  case claimNone =>
    intro h
    refine if_neg fun ⟨h1, hc⟩ => ?_
    obtain h | h := h
    · exact h h1
    · rw [h] at hc
      cases hc
  case grottoChannelClaim =>
    intro c h1 hc s1 x
    have claims : exec (.grottoChannelClaim j) s = .next (claimChannel s j) := if_pos ⟨h1, Option.isSome_of_eq_some hc⟩
    rw [claimChannel_of_some hc] at claims
    refine ⟨fun h2 => claims.trans (next_congr ?_), fun h2 hm => claims.trans (next_congr ?_), fun m h2 hm => claims.trans (next_congr ?_)⟩
    · have kind : (s.fld (grtCfg j) 1 0 == 2) = false := beq_false_of_ne h2
      rw [kind]
      rfl
    · rw [h2, hm]
      rfl
    · rw [h2, hm]
      rfl
  case grottoWaitTimeout => exact ⟨fun h => if_neg h, fun h => if_pos h⟩
  case rangingExchange =>
    intro p good aFar sFar mine x run
    let goal := (meanDelay s (grtPort s j)).getD 0
    let taken (d : Int) : State := setJobRec s j { x with exchanged := true, delay := divRound (d * 1000) (2 ^ 40), apart := markersApart x }
    have exchange (h : mine) : run = match x.came with
        | none => .next (setJobRec s j x)
        | some a =>
          match sFar.flatMap fun f => x.left.map fun n => (timeDiff a f + timeDiff aFar n) / 2 with
          | [] => .next (setJobRec s j x)
          | d0 :: t => .next (taken (t.foldl (nearer goal) d0)) := if_pos h
    refine ⟨fun h => if_neg h, fun h hx => ?_, fun a h hx => ?_⟩
    · rw [exchange h, hx]
    intro all
    have answered := exchange h
    rw [hx] at answered
    change run = match all with
      | [] => .next (setJobRec s j x)
      | d0 :: t => .next (taken (t.foldl (nearer goal) d0)) at answered
    cases hall : all with
    | nil =>
      rw [hall] at answered
      exact ⟨fun _ => answered, fun h => absurd rfl h⟩
    | cons d0 t =>
      rw [hall] at answered
      obtain ⟨hmem, hle⟩ := foldl_nearer goal t d0
      exact ⟨nofun, fun _ => ⟨_, hmem, hle, answered⟩⟩
  case grottoPeerTimeout => exact ⟨fun h => if_neg h, fun h => if_pos h⟩
  case grottoDone =>
    intro ready r s1 s2 conf
    have done (h : ready) : exec (.grottoDone j () () ()) s = .next (endGrotto (match (jobRec s j).forPort with
        | some p => if (calItem s2 2 p).run then setCalItem s2 2 p { calItem s2 2 p with ranged := some r.2.2.1 } else s2
        | none => s2) j 0 conf) := if_pos h
    refine ⟨fun h => if_neg h, fun h hp => ?_, fun p h hp => ⟨fun hr => ?_, fun hr => ?_⟩⟩
    · rw [done h, hp]
    · rw [done h, hp]
      exact next_congr (congrArg (endGrotto · j 0 conf) (if_neg (not_of_false hr)))
    · rw [done h, hp]
      exact next_congr (congrArg (endGrotto · j 0 conf) (if_pos hr))
end


section
/-!
Proofs/LineEvents: Ethernet links, frames and superblocks, bring-up of trunk and local ports, and the choice of the upstream port.
-/
namespace Sys2Proof.Machine

/-- What an open frame check says of a received frame: a checked row of R347 that names it counts it. -/
theorem receiveFrame_of_up {s : State} {p : Nat} {bs : List Byte} {code abort : Bool} {sof sub : Nat} (h : (s.alive && portUp s p) = true) :
    receiveFrame s p bs code abort sof sub = match rxRow s p bs code abort with
      | some o => if o = 0x12C ∨ o = 0x134 then s.count (macB p + o) else badFrame (s.count (macB p + o)) p sof bs sub
      | none => goodFrame s p sof bs sub := by
  rw [Bool.and_eq_true] at h
  refine if_neg ?_
  rw [h.1, h.2]
  decide

end Sys2Proof.Machine

/-! ### The obligations -/

open Sys2Proof Sys2Proof.Machine

/-- Settles O40, event by event. -/
theorem lineEventsHaveTheirEffect : Obligations.LineEventsHaveTheirEffect := by
  intro s
  refine ⟨?frameReceive, ?ethLinkUp, ?ethLinkDown, ?superblockTransmit, ?superblockReceive, ?eyeScanDone⟩
  case frameReceive =>
    intro p bs code abort sof sub run
    refine ⟨fun h => next_pos (or_not_of_and_false h), fun h => ?_⟩
    have received : run = .next (receiveFrame s p bs code abort sof sub) := rfl
    rw [receiveFrame_of_up h] at received
    refine ⟨fun ho => ?_, fun o ho => ⟨fun h => ?_, fun h1 h2 => ?_⟩⟩
    · rw [received, ho]
    · rw [received, ho]
      exact next_pos h
    · rw [received, ho]
      exact next_neg (not_or.mpr ⟨h1, h2⟩)
  case ethLinkUp =>
    intro p ok s1
    have starts : ¬((!portIs s p 0) = true ∨ s.fld (macB p + 0x040) 31 24 = 0 ∨ (!mayStart s p) = true ∨ (!allLanes s p 1) = true ∨
        (!allLanes s p 2) = true ∨ (!faultFree s p) = true) ↔ ok := by
      simp [ok]
    refine ⟨fun h => if_pos (not_not.mp (mt starts.mp h)), fun h hf => ?_, fun h hf => ?_⟩
    · exact (if_neg (starts.mpr h)).trans (next_pos hf)
    · exact (if_neg (starts.mpr h)).trans (next_neg (not_of_false hf))
  case ethLinkDown =>
    intro p lf rf s1 s2
    refine ⟨fun h => if_pos (bnot_of_false h), fun h hl hr => ?_, fun h hl hr => ?_, fun h hl => ?_⟩
    · subst hl hr
      exact if_neg (not_bnot_of_true h)
    · subst hl hr
      exact if_neg (not_bnot_of_true h)
    · subst hl
      exact if_neg (not_bnot_of_true h)
  case superblockTransmit => exact fun p sub => ⟨fun h => next_neg (not_of_false h), fun h => next_pos h⟩
  case superblockReceive =>
    intro l line fix ppt sub run
    refine ⟨fun h => ?_, fun p hp => ?_⟩
    · simp only [run, exec, execSuperblockReceive, h]
    · have comes : run = if !receivesLine s p l then .next s
          else
            let x := readLine (if l.val = p then movePhase s p (s.elapsed + sub) else s) p l (lineBits s l line) fix
            let s0 := if l.val = p then chipCame x.1 p (s.sun.d0.t + sub) x.2.chip (x.2.good && x.2.ron) else x.1
            let s2 := judgeLock (if x.2.good then s0 else s0.count (macB p + 0x14C)) l x.2
            let q := if x.2.head then x.2.sbseq else ((laneRec s2 l).seq + 1) % 65536
            let s3 := setLaneRec s2 l { laneRec s2 l with seq := q }
            if allLanes s3 p 3 then .next (joinLanes (setLaneRec s3 l { laneRec s3 l with
              got := (laneRec s3 l).got ++ [(q, s.elapsed + sub, if x.2.good then some x.2.words else none)] }) p q (freqNear ppt) sub)
            else .next (if x.2.good then s3 else dropOpen s3 p) := by
        simp only [run, exec, execSuperblockReceive, hp]
      refine ⟨fun h => comes.trans (if_pos (bnot_of_false h)), fun h => ?_⟩
      have read := comes.trans (if_neg (not_bnot_of_true h))
      exact ⟨fun ha => read.trans (if_neg (not_of_false ha)), fun ha => read.trans (if_pos ha)⟩
  case eyeScanDone => exact fun l err => ⟨fun h => if_neg h, fun h => if_pos h⟩

/-- Settles O41, event by event. -/
theorem bringUpEventsHaveTheirEffect : Obligations.BringUpEventsHaveTheirEffect := by
  intro s
  refine ⟨?lanes, ?negWordReceive, ?rateStep, ?txpllLock, ?trainComplete, ?verifyComplete, ?bringupTimeout, ?rateFallback, ?phaseSlip,
    ?upstreamSelect⟩
  case lanes =>
    refine fun l => ⟨fun h => ?_, fun p hp hm => ?_, fun p hp hm => ?_, fun h => next_pos (bnot_of_false h), fun h => next_neg (not_bnot_of_true h),
      fun h => next_pos (bnot_of_false h), fun h => ?_⟩
    · simp only [exec, execCdrLock, h]
    · simp only [exec, execCdrLock, hp]
      exact if_pos (bnot_of_false hm)
    · simp only [exec, execCdrLock, hp]
      exact ⟨fun h => (if_neg (not_bnot_of_true hm)).trans (next_neg h), fun h => (if_neg (not_bnot_of_true hm)).trans (next_pos h)⟩
    · intro s2 x
      exact ⟨fun hr => (next_neg (not_bnot_of_true h)).trans (next_neg (not_of_false hr)),
        fun hr => (next_neg (not_bnot_of_true h)).trans (next_pos hr)⟩
  case negWordReceive => exact fun p w ppt => ⟨fun h => if_neg h, fun h => if_pos h⟩
  case rateStep => exact fun p => ⟨fun h => if_neg h, fun h => (if_pos h).trans (next_congr (if_congr decide_eq_true_iff.symm rfl rfl))⟩
  case txpllLock =>
    intro p s1 inTime
    refine ⟨fun h => if_pos (or_not_of_and_false h), fun hc hm => ?_⟩
    have locks : ¬((!configured s p) = true ∨ (!mayStart s p) = true) := not_or.mpr ⟨not_bnot_of_true hc, not_bnot_of_true hm⟩
    exact ⟨fun h => (if_neg locks).trans (next_pos h), fun h => (if_neg locks).trans (next_neg h)⟩
  case trainComplete => exact fun p => ⟨fun h => if_neg h, fun h => if_pos h⟩
  case verifyComplete => exact fun p => ⟨fun h => if_neg h, fun h => if_pos h⟩
  case bringupTimeout => exact fun p => ⟨fun h => if_neg h, fun h => if_pos h⟩
  case rateFallback => exact fun p => ⟨fun h => if_neg h, fun h => if_pos h⟩
  case phaseSlip => exact fun p => ⟨fun h => if_neg h, fun h => if_pos h⟩
  case upstreamSelect =>
    intro cur keeps m new
    refine ⟨fun q hk hq => ?_, fun hk hq hr => ?_, fun hq hr => ?_, fun q hk hq => ⟨fun hne hl => ?_, fun h => ?_⟩⟩
    · simp only [exec, execUpstreamSelect, hq]
      exact if_neg hk
    · simp only [exec, execUpstreamSelect, hq]
      exact (if_neg hk).trans (if_pos hr)
    · simp only [exec, execUpstreamSelect, hq]
      exact (if_neg fun h => by simp [hr] at h).trans (if_neg (not_of_false hr))
    · simp only [exec, execUpstreamSelect, hq]
      exact (if_pos hk).trans (if_pos ⟨hne, hl⟩)
    · simp only [exec, execUpstreamSelect, hq]
      refine (if_pos hk).trans (if_neg fun hc => ?_)
      obtain h | h := h
      · exact hc.1 h
      · exact Nat.not_le.mpr h hc.2
end

section
/-!
Proofs/SwitchEvents: the crossbar, the queues and their schedules, and learning, ageing, flushes and locks of the tables.
-/
namespace Sys2Proof.Machine

/-- The frame at the head of FIFO `k` crosses toward egress `e`: the level was served from ingress `r` (R401). -/
def grantFrame (s : State) (e l r k : Nat) (x : XFrame) : State :=
  let s1 := popFifo s k
  let s2 : State := { s1 with sw := { s1.sw with
    served := AMap.set s1.sw.served (3 * e + l) r, across := AMap.set s1.sw.across e (acrossAt s e x.f.bytes.length) } }
  admitAll (perfCount s2 none { ev := 0x06, cls := some x.f.cls } 1) x

end Sys2Proof.Machine

/-! ### The obligations -/

open Sys2Proof Sys2Proof.Machine

/-- Settles O42, event by event. -/
theorem switchEventsHaveTheirEffect : Obligations.SwitchEventsHaveTheirEffect := by
  intro s
  refine ⟨?crossbarGrant, ?crossbarTimeoutDrop, ?frameTransmit, ?gateEntryChange, ?schedulerStopped, ?flushComplete, ?tierMoveStart, ?tierMoveDone⟩
  case crossbarGrant =>
    intro e pick free
    have grants : ¬((!switchRuns s) = true ∨ (!attachOk s e) = true ∨ s.elapsed + baseInc s (activeDom s) ≤ AMap.getD s.sw.across e.val 0) ↔ free := by
      simp [free]
    have granted (h : free) : exec (.crossbarGrant e) s = match pick with
        | none => .next s
        | some (l, r, k) =>
          match fifoOf s k with
          | [] => .next s
          | x :: _ => .next (grantFrame s e l r k x) := if_neg (grants.mpr h)
    refine ⟨fun h => ?_, fun l r k x f h hp hf => ?_⟩
    · by_cases hfree : free
      · rw [granted hfree, h.resolve_left (not_not.mpr hfree)]
      · exact if_pos (not_not.mp (mt grants.mp hfree))
    · rw [granted h, hp]
      dsimp only
      rw [hf]
      rfl
  case crossbarTimeoutDrop =>
    intro i e l k
    have front : exec (.crossbarTimeoutDrop i e l) s = match if switchRuns s then fifoOf s k else [] with
        | [] => .next s
        | x :: _ =>
          if AMap.getD s.sw.heads k 0 + 2000 * tuPerNs ≤ s.elapsed then
            .next (abortStamped (perfCount (if i.val = 128 then popFifo s k else (popFifo s k).count (quePortCtr i + 0x10)) none
              { ev := 0x07, cls := some x.f.cls } 1) x.done)
          else .next s := rfl
    refine ⟨fun h => ?_, fun x f hr hf => ?_⟩
    · have none_waits : (if switchRuns s then fifoOf s k else []) = [] := by
        split
        next hr => exact h.resolve_left (by simp [hr])
        next => rfl
      rw [front, none_waits]
    · rw [if_pos hr, hf] at front
      exact ⟨fun h => front.trans (if_neg (Nat.not_le.mpr h)), fun h => front.trans (if_pos h)⟩
  case frameTransmit =>
    intro p s1
    refine ⟨fun h => if_pos (h.imp_left bnot_of_false), fun hr hp hi => ?_, fun hr hp hi => ?_, fun hr hp => ?_⟩
    · exact (if_neg (not_or.mpr ⟨not_bnot_of_true hr, by omega⟩)).trans ((if_pos hp).trans (next_pos hi))
    · exact (if_neg (not_or.mpr ⟨not_bnot_of_true hr, by omega⟩)).trans ((if_pos hp).trans (next_neg (not_of_false hi)))
    have runs : ¬((!switchRuns s) = true ∨ p.val = 128) := not_or.mpr ⟨not_bnot_of_true hr, by omega⟩
    have not_cell : ¬129 ≤ p.val := by omega
    refine ⟨fun h => (if_neg runs).trans ((if_neg not_cell).trans (if_pos (h.imp bnot_of_false Option.isSome_iff_ne_none.mpr))), fun hu ht => ?_⟩
    have sends : ¬((!portUp s p) = true ∨ (portSw s p).tx.isSome = true) := not_or.mpr ⟨not_bnot_of_true hu, by simp [ht]⟩
    have acts : exec (.frameTransmit p) s = execFrameTransmit p s := rfl
    rw [acts, execFrameTransmit, if_neg runs, if_neg not_cell, if_neg sends]
    dsimp only
    refine ⟨fun h => ?_, fun t x h => ?_⟩
    · rw [h]
    · rw [h]
  case gateEntryChange => exact fun p => rfl
  case schedulerStopped => exact fun p => ⟨fun h => if_neg h, fun h => if_pos h⟩
  case flushComplete => exact fun p => rfl
  case tierMoveStart => exact fun p t => ⟨fun h => if_neg h, fun h => if_pos h⟩
  case tierMoveDone => exact fun p t => ⟨fun h => if_neg h, fun h => if_pos h⟩
end

section
/-!
Proofs/TableEvents: learning, ageing, flushes and locks of the tables.
-/
namespace Sys2Proof.Machine

theorem not_both_of_false {a b : Bool} (h : a = false ∨ b = false) : ¬(a = true ∧ b = true) := by
  rw [← Bool.and_eq_true, Bool.not_eq_true, Bool.and_eq_false_iff]
  exact h

/-- Has the freeze of a watched address ended (R477)? -/
def freezeOver (s : State) (vid mac : Nat) (x : Track) : Bool :=
  x.vid == vid && x.mac == mac && match x.frozen with
    | some e => decide (e ≤ s.elapsed)
    | none => false

theorem any_freezeOver {s : State} {vid mac : Nat} : s.tbl.track.any (freezeOver s vid mac) = true ↔
    ∃ x ∈ s.tbl.track, x.vid = vid ∧ x.mac = mac ∧ ∃ e, x.frozen = some e ∧ e ≤ s.elapsed := by
  rw [List.any_eq_true]
  refine exists_congr fun x => and_congr_right fun _ => ?_
  unfold freezeOver
  cases x.frozen <;> simp [and_assoc]

theorem execLearnCommit_idle {s : State} (h : switchRuns s = false ∨ nextLearner s = none) : execLearnCommit s = .next s := by
  have no_learner : (if switchRuns s then nextLearner s else none) = none := by
    split
    next hr => exact h.resolve_left (by simp [hr])
    next => rfl
  rw [execLearnCommit, no_learner]

theorem execLearnCommit_of_queue {s : State} {r : Nat} {x : Learn} {q : List Learn} (hr : switchRuns s = true) (hn : nextLearner s = some r)
    (hq : learnQ s r = x :: q) : execLearnCommit s = .next
      (engineCommits (commitLearn { setLearnQ s r q with tbl := { (setLearnQ s r q).tbl with lastLearn := r } } r x) 7 1) := by
  rw [execLearnCommit, if_pos hr, hn]
  dsimp only
  rw [hq]

end Sys2Proof.Machine

/-! ### The obligations -/

open Sys2Proof Sys2Proof.Machine

/-- Settles O43, event by event. -/
theorem tableEngineEventsHaveTheirEffect : Obligations.TableEngineEventsHaveTheirEffect := by
  intro s
  refine ⟨?learnIdle, ?learnCommit, ?moveWindowExpiry, ?flapHoldEnd, ?refreshCommit, ?ageTick, ?agerVisit, ?ageNone, ?ageDeleteCommit,
    ?portDownTableFlush, ?flushNone, ?flushOne, ?tableFlushDone, ?lockNone, ?lockExpired⟩
  case learnIdle => exact execLearnCommit_idle
  case learnCommit => exact fun r x q => execLearnCommit_of_queue
  case moveWindowExpiry => exact fun vid mac => ⟨fun h => if_neg (not_of_false h), fun h => if_pos h⟩
  case flapHoldEnd =>
    intro vid mac due
    have due_iff : s.tbl.track.any (freezeOver s vid.toNat mac.toNat) = true ↔ due := any_freezeOver
    have ends (h : due) : exec (.flapHoldEnd vid mac) s = .next (dropTrack (match findKey s false (l2Key vid.toNat mac.toNat) with
        | some q => refreshAt (alterEntry s q fun e => setDw e 3 (putBits (dwAt e 3) 15 15 0)) q
        | none => s) vid.toNat mac.toNat) := if_pos (due_iff.mpr h)
    refine ⟨fun h => if_neg (mt due_iff.mp h), fun h hk => ?_, fun q h hk => ?_⟩
    · rw [ends h, hk]
    · rw [ends h, hk]
  case refreshCommit =>
    exact fun r => ⟨fun h => if_pos (h.imp_right bnot_of_false), fun hq hr => if_neg (not_or.mpr ⟨hq, not_bnot_of_true hr⟩)⟩
  case ageTick =>
    intro ends t
    refine ⟨fun h => if_neg fun ⟨ha, he⟩ => ?_, fun ha he => if_pos ⟨ha, he⟩⟩
    obtain h | h := h
    · simp [ha] at h
    · exact Nat.not_le.mpr h he
  case agerVisit => exact fun stream i => ⟨fun h => next_neg (not_of_false h), fun h => next_pos h⟩
  case ageNone =>
    intro h
    simp only [exec, execAgeDeleteCommit, h]
  case ageDeleteCommit =>
    intro d t h
    simp only [exec, execAgeDeleteCommit, h]
    exact ⟨fun hn => if_neg (not_both_of_false ((Bool.and_eq_false_iff ..).mp hn)), fun hd hr => if_pos ⟨hd, hr⟩⟩
  case portDownTableFlush =>
    intro p x s1
    exact ⟨fun h => if_neg (not_both_of_false h),
      fun hd hr => ⟨fun hp => (if_pos ⟨hd, hr⟩).trans (next_neg hp), fun hp => (if_pos ⟨hd, hr⟩).trans (next_pos hp)⟩⟩
  case flushNone =>
    intro h
    have acts : exec .tableFlushDone s =
        if switchRuns s then .next (forEach s.tbl.flushes { s with tbl := { s.tbl with flushes := [] } } fun x t => visitFlush t x) else .next s := rfl
    rw [acts]
    split
    next hr =>
      have hf := h.resolve_left (by simp [hr])
      have same : { s with tbl := { s.tbl with flushes := [] } } = s := by rw [← hf]
      rw [hf, same]
      rfl
    next => rfl
  case flushOne =>
    intro x hr hf y s1 c
    have visits : exec .tableFlushDone s = .next (visitFlush { s with tbl := { s.tbl with flushes := [] } } x) := by
      refine (if_pos hr).trans ?_
      rw [hf]
      rfl
    exact ⟨fun h => visits.trans (next_pos h), fun h => visits.trans (next_neg h)⟩
  case tableFlushDone => exact fun h => if_pos h
  case lockNone =>
    intro b h
    simp only [exec, execLockExpired, h]
  case lockExpired =>
    intro b t h
    simp only [exec, execLockExpired, h]
    exact ⟨fun hl => if_neg hl, fun hl => if_pos hl⟩
end

section
/-!
Proofs/TableDma: Table-DMA descriptors.
-/
namespace Sys2Proof.Machine

section
variable {s : State} {n : Nat} {d : List Word} {mine : Bool} {serve : State → Nat → State}

/-- A ring that is not served, and a sound descriptor of another kind, take nothing. -/
theorem tdTake_idle (h : ¬(canTake s n 3 = true ∧ switchRuns s = true) ∨ (tdCheck d = 0 ∧ mine = false)) : tdTake s n d mine serve = s := by
  refine if_pos ?_
  by_cases hc : canTake s n 3 = true
  · by_cases hr : switchRuns s = true
    · exact .inr (.inr ((h.resolve_left (not_not.mpr ⟨hc, hr⟩)).imp_right bnot_of_false))
    · exact .inr (.inl (bnot_of_false (Bool.eq_false_iff.mpr hr)))
  · exact .inl (bnot_of_false (Bool.eq_false_iff.mpr hc))

variable (hr : canTake s n 3 = true ∧ switchRuns s = true)
include hr

theorem tdTake_bad (hc : tdCheck d ≠ 0) : tdTake s n d mine serve = tdDone (takeDesc s n).1 n (takeDesc s n).2 (tdCheck d) 0 := by
  refine (if_neg ?_).trans (if_pos hc)
  exact not_or.mpr ⟨not_bnot_of_true hr.1, not_or.mpr ⟨not_bnot_of_true hr.2, fun h => hc h.1⟩⟩

theorem tdTake_served (hc : tdCheck d = 0) (hm : mine = true) : tdTake s n d mine serve = serve (takeDesc s n).1 (takeDesc s n).2 := by
  refine (if_neg ?_).trans (if_neg (not_not.mpr hc))
  exact not_or.mpr ⟨not_bnot_of_true hr.1, not_or.mpr ⟨not_bnot_of_true hr.2, fun h => not_bnot_of_true hm h.2⟩⟩

end

theorem tdMine_iff {d : List Word} {o : Nat} : (!tdSnap d && tdOp d == o) = true ↔ tdSnap d = false ∧ tdOp d = o := by simp

end Sys2Proof.Machine

/-! ### The obligations -/

open Sys2Proof Sys2Proof.Machine

/-- Settles O44: what a table descriptor's ring takes, and then the checks of each operation. -/
theorem tableDmaDescriptorsHaveTheirEffect : Obligations.TableDmaDescriptorsHaveTheirEffect := by
  intro s n d data u i st e runs ops out
  have ops_of {o : Nat} {c : Instr} {P : Prop} {serve : State → Nat → State}
      (hc : exec c s = .next (tdTake s n d (!tdSnap d && tdOp d == o) serve)) (hp : exec c s = .next (serve u i) → P) : ops o c P := by
    refine ⟨fun h => hc.trans (next_congr (tdTake_idle (h.imp_right (.imp_right fun hm => ?_)))),
      fun hr h => hc.trans (next_congr (tdTake_bad hr h)), fun hr h hs ho => hp (hc.trans (next_congr (tdTake_served hr h (tdMine_iff.mpr ⟨hs, ho⟩))))⟩
    exact Bool.eq_false_iff.mpr (mt tdMine_iff.mp hm)
  refine ⟨ops_of rfl fun served => ?tableRead, ops_of rfl fun served => ?tableWrite, ops_of rfl fun served => ?tableInsert, ops_of rfl fun served => served,
    ops_of rfl fun served => ?tableSearch, ops_of rfl fun served => served, ?snapshotRead⟩
  case tableRead =>
    refine ⟨fun h0 => served.trans (next_pos h0), fun h0 hr => served.trans ((next_neg h0).trans (next_pos hr)), fun h0 hr hl => ?_,
      fun h0 hr hl => ?_⟩
    · exact served.trans ((next_neg h0).trans ((next_neg (not_not.mpr hr)).trans (next_pos hl)))
    · exact served.trans ((next_neg h0).trans ((next_neg (not_not.mpr hr)).trans (next_neg (not_not.mpr hl))))
  case tableWrite =>
    intro es
    refine ⟨fun h0 => served.trans (next_pos h0), fun h0 hr => served.trans ((next_neg h0).trans (next_pos hr)), fun h0 hr hc => ?_,
      fun h0 hr hc hl => ?_, fun h0 hr hc hl => ?_⟩
    · exact served.trans ((next_neg h0).trans ((next_neg (not_not.mpr hr)).trans (next_pos hc)))
    · exact served.trans ((next_neg h0).trans ((next_neg (not_not.mpr hr)).trans ((next_neg (not_not.mpr hc)).trans (next_pos hl))))
    · exact served.trans ((next_neg h0).trans ((next_neg (not_not.mpr hr)).trans ((next_neg (not_not.mpr hc)).trans (next_neg (not_not.mpr hl)))))
  case tableInsert =>
    refine ⟨fun hv => served.trans (next_pos (bnot_of_false hv)), fun hv hc => ?_, fun hv hc => ?_⟩
    · exact served.trans ((next_neg (not_bnot_of_true hv)).trans (next_pos hc))
    · exact served.trans ((next_neg (not_bnot_of_true hv)).trans (next_neg (not_not.mpr hc)))
  case tableSearch =>
    have found : exec (.tableSearch n d data) s = .next (match findKey u st (keyOf st e) with
        | some p => tdDone (u.emit (.dma (tdAddr d) ((entryAt u p).getD []))) n i 0 (keyInfo true (if st then p - stBase else p))
        | none => tdDone u n i 0 (keyInfo false 0)) := served
    refine ⟨fun h => ?_, fun p h => ?_⟩
    · rw [h] at found
      exact found
    · rw [h] at found
      exact found
  case snapshotRead =>
    intro k reg
    refine ⟨fun h => next_congr (tdTake_idle h), fun hr h => next_congr (tdTake_bad hr h), fun hr h hs => ?_⟩
    have served {t : State} (ht : _ = t) : out (.snapshotRead n d) t := next_congr ((tdTake_served hr h hs).trans ht)
    have in_use (hk : 1 ≤ snapState u k) : ¬snapState u k = 0 := Nat.one_le_iff_ne_zero.mp hk
    have captured (hk : 3 ≤ snapState u k) : ¬(snapState u k = 1 ∨ snapState u k = 2) := by omega
    refine ⟨fun h0 => served (if_pos h0), fun h0 hk => served ((if_neg h0).trans (if_pos hk)), fun h0 hk => served ((if_neg h0).trans ?_),
      fun h0 hk hl => served ((if_neg h0).trans ?_), fun h0 hk hl => served ((if_neg h0).trans ?_)⟩
    · exact (if_neg (in_use (by omega))).trans (if_pos hk)
    · exact (if_neg (in_use (by omega))).trans ((if_neg (captured hk)).trans (if_pos hl))
    · exact (if_neg (in_use (by omega))).trans ((if_neg (captured hk)).trans (if_neg (Nat.not_lt.mpr hl)))
end


section
/-!
Proofs/CueEvents: the cues of this node and of the fabric.
-/
namespace Sys2Proof.Machine

theorem commitCue_of_sound {s : State} {k : Nat} {c : Cue} (h : commitCode s c = 0) :
    commitCue s k c = endPart (forEach (c.acts.filter fun a => !actSafe a.dws) s fun a t => applyAct t k a) k c 0 0 true := if_pos h

theorem commitCue_of_failed {s : State} {k : Nat} {c : Cue} (h : commitCode s c ≠ 0) :
    commitCue s k c = endPart (applySafe s k c) k c 0x0F (commitCode s c) true := if_neg h

end Sys2Proof.Machine

/-! ### The obligations -/

open Sys2Proof Sys2Proof.Machine

/-- Settles O45, event by event. -/
theorem cueEventsHaveTheirEffect : Obligations.CueEventsHaveTheirEffect := by
  intro s
  refine ⟨?cueSubmit, ?cueValidated, rfl, ?cueCommit, ?scheduleChangeAtB, rfl, rfl⟩
  case cueSubmit =>
    intro n d img u r queued
    let slot := if r.2 = 0 then freeSlot s else none
    have submits (h : canTake s n 4 = true) : exec (.cueSubmit n d img) s = .next (queued (match slot with
        | some k => setSlotState u k 1
        | none => u) slot) := if_neg (not_bnot_of_true h)
    refine ⟨fun h => if_pos (bnot_of_false h), fun h hn => ?_, fun k h hr hk => ?_⟩
    · have hslot : slot = none := by
        obtain hr | hf := hn
        · exact if_neg hr
        · simp only [slot, hf, ite_self]
      rw [submits h, hslot]
    · have hslot : slot = some k := (if_pos hr).trans hk
      rw [submits h, hslot]
  case cueValidated =>
    refine fun n => ⟨fun h => ?_, fun x h => ?_⟩
    · simp only [exec, execCueValidated, h]
    · simp only [exec, execCueValidated, h]
  case cueCommit =>
    refine ⟨fun h => ?_, fun k c l h => ⟨fun hc => ?_, fun hc => ?_⟩⟩
    · simp only [exec, execCueCommit, h]
    · simp only [exec, execCueCommit, h, commitCue_of_sound hc]
    · simp only [exec, execCueCommit, h, commitCue_of_failed hc]
  case scheduleChangeAtB =>
    refine fun p => ⟨fun h => ?_, fun x l h => ?_⟩
    · simp only [exec, execScheduleChangeAtB, h]
    · simp only [exec, execScheduleChangeAtB, h]

/-- Settles O46, event by event. -/
theorem fabricCueEventsHaveTheirEffect : Obligations.FabricCueEventsHaveTheirEffect := by
  intro s
  refine ⟨?messages, ?presenceNone, ?presenceSend, ?armDeadline, ?fabricCueTimeout, ?resultWindowExpiry⟩
  case messages =>
    intro p hdr payload m takes
    have takes_of {c : Instr} {ty : Nat} (h : exec c s = .next (messageOn s p ty m)) : takes c ty := by
      refine ⟨fun hn => h.trans (next_neg fun hc => ?_), fun hu hty => h.trans (next_pos ⟨hu, hty⟩)⟩
      obtain hu | hty := hn
      · exact not_of_false hu hc.1
      · exact hty hc.2
    exact ⟨takes_of rfl, takes_of rfl, takes_of rfl, takes_of rfl, takes_of rfl, takes_of rfl⟩
  case presenceNone =>
    intro h
    simp only [exec, execPresenceSend, h]
  case presenceSend =>
    intro p h
    simp only [exec, execPresenceSend, h]
    refine ⟨fun hn => if_pos (hn.imp_right (.imp_left bnot_of_false)), fun hr hu hd => if_neg ?_⟩
    exact not_or.mpr ⟨not_of_false hr, not_or.mpr ⟨not_bnot_of_true hu, Nat.not_lt.mpr hd⟩⟩
  case armDeadline =>
    refine ⟨fun h => ?_, fun k c h => ?_⟩
    · simp only [exec, execArmDeadline, h]
    · simp only [exec, execArmDeadline, h]
  case fabricCueTimeout =>
    refine ⟨fun h => ?_, fun k c l h => ?_⟩
    · simp only [exec, execFabricCueTimeout, h]
    · simp only [exec, execFabricCueTimeout, h]
  case resultWindowExpiry =>
    refine ⟨fun h => ?_, fun k c h => ?_⟩
    · simp only [exec, execResultWindowExpiry, h]
    · simp only [exec, execResultWindowExpiry, h]
end

section
/-!
Proofs/BandstandEvents: the Bandstand's blocks, moves, packets and cells.
-/
namespace Sys2Proof.Machine

section
variable {s : State} {r : Nat} {mine : Frame → Bool}

/-- Where no frame of use waits, a Pavilion's queue is left as it is. -/
theorem takeHead_nil (h : cellsRun s = false ∨ (inboxOf s r).dropWhile (fun f => !usesFrame s r f) = []) : takeHead s r mine = s := by
  have none_waits : (if cellsRun s then (inboxOf s r).dropWhile (fun f => !usesFrame s r f) else []) = [] := by
    split
    next hr => exact h.resolve_left (by simp [hr])
    next => rfl
  rw [takeHead, none_waits]

theorem takeHead_cons {f : Frame} {l : List Frame} (hr : cellsRun s = true) (h : (inboxOf s r).dropWhile (fun f => !usesFrame s r f) = f :: l) :
    takeHead s r mine = if mine f then setInbox (takeFrame s r f) r l else s := by
  rw [takeHead, if_pos hr, h]

end

theorem takeFrame_none {s : State} {r : Nat} {f : Frame} (h : udpPayload f.bytes = none) : takeFrame s r f = s := by rw [takeFrame, h]

end Sys2Proof.Machine

/-! ### The obligations -/

open Sys2Proof Sys2Proof.Machine

/-- Settles O47, event by event. -/
theorem bandstandEventsHaveTheirEffect : Obligations.BandstandEventsHaveTheirEffect := by
  intro s
  refine ⟨?blockBoundary, ?jobMoveStart, ?jobStateCopy, ?packets, ?e131, ?cellReady⟩
  case blockBoundary =>
    intro rate blog runs bad work r run s1
    refine ⟨fun h => if_pos (or_not_of_and_false h), fun h => if_neg (not_or.mpr ?_)⟩
    rw [Bool.and_eq_true] at h
    exact ⟨not_bnot_of_true h.1, not_bnot_of_true h.2⟩
  case jobMoveStart =>
    refine fun h => ⟨fun hj => ?_, fun j hj => ?_⟩
    · simp only [exec, execJobMoveStart, hj]
    intro stays
    have stays_iff : ((!cellsRun s) = true ∨ j.homeless = true ∨ j.move.isSome = true ∨ j.stopping = true ∨ 8 ≤ (movesNow s).length ∨
        ((movesNow s).any fun e => e.2.cell == j.cell) = true) ↔ stays := by
      simp only [stays, Bool.not_eq_true', Option.isSome_iff_ne_none, List.any_eq_true, beq_iff_eq]
    refine ⟨fun hs => ?_, fun hs ht => ?_, fun x hs ht => ?_⟩
    · simp only [exec, execJobMoveStart, hj]
      exact if_pos (stays_iff.mpr hs)
    · simp only [exec, execJobMoveStart, hj, ht]
      exact if_neg (mt stays_iff.mp hs)
    · simp only [exec, execJobMoveStart, hj, ht]
      exact ⟨fun hp => (if_neg (mt stays_iff.mp hs)).trans (if_pos (by rw [hp]; rfl)),
        fun hp => (if_neg (mt stays_iff.mp hs)).trans (if_neg (by simpa using hp))⟩
  case jobStateCopy =>
    refine fun h => ⟨fun hj => ?_, fun j hj => ⟨fun hm => ?_, fun m hm => ⟨fun h0 hr hc => ?_, fun hn => ?_⟩⟩⟩
    · simp only [exec, execJobStateCopy, hj]
    · simp only [exec, execJobStateCopy, hj, hm]
    · simp only [exec, execJobStateCopy, hj, hm]
      exact if_pos ⟨h0, hr, hc⟩
    · simp only [exec, execJobStateCopy, hj, hm]
      exact if_neg fun hc => hn.elim (fun h => h hc.1) fun h => not_both_of_false h hc.2
  case packets =>
    intro r waiting
    refine ⟨fun h => ⟨next_congr (takeHead_nil h), next_congr (takeHead_nil h), next_congr (takeHead_nil h)⟩, fun f l hr hw => ?_⟩
    intro takes
    have takes_of {c : Instr} {mine : Frame → Bool} {P : Prop} (h : exec c s = .next (takeHead s r mine)) (hm : mine f = true ↔ P) : takes c P := by
      rw [takeHead_cons hr hw] at h
      exact ⟨fun hp => h.trans (next_pos (hm.mpr hp)), fun hp => h.trans (next_neg (mt hm.mp hp))⟩
    refine ⟨takes_of rfl bne_iff_ne, takes_of rfl bne_iff_ne, takes_of rfl bne_iff_ne, takeFrame_none, fun y hy => ?_⟩
    rw [takeFrame, hy]
  case e131 =>
    refine fun h => ⟨fun hj => ⟨?_, ?_⟩, fun j hj => ?_⟩
    · simp only [exec, execE131SourceTimeout, hj]
    · simp only [exec, execE131Keepalive, hj]
    · simp only [exec, execE131SourceTimeout, execE131Keepalive, hj]
      exact ⟨fun hk => if_pos hk, fun hk => if_neg hk, fun hs => if_pos hs, fun hs => if_neg hs⟩
  case cellReady =>
    intro c opens
    have opens_iff : (cellsRun s = true ∧ cellServes s c = true ∧ (!(cellOf s c).ready) = true ∧
        (s.pstate = 0 ∨ jobsOn s c ≠ [] ∨ jobsTo s c ≠ [])) ↔ opens := by
      simp only [opens, Bool.not_eq_true']
    exact ⟨fun h => if_pos (opens_iff.mpr h), fun h => if_neg (mt opens_iff.mp h)⟩
end

section
/-!
Proofs/ComputeDescriptors: compute descriptors.
-/
namespace Sys2Proof.Machine

section
variable {s : State} {n : Nat} {d rec : List Word} {op : Nat} {serve : State → Nat → State}

/-- A ring that is not served, and a sound descriptor of another kind, take nothing. -/
theorem cdTake_idle (h : canTake s n 5 = false ∨ (cdCheck s d rec = 0 ∧ cdOp d ≠ op)) : cdTake s n d rec op serve = s :=
  if_pos (h.imp_left bnot_of_false)

variable (hr : canTake s n 5 = true)
include hr

theorem cdTake_bad (hc : cdCheck s d rec ≠ 0) : cdTake s n d rec op serve = cdDone (takeDesc s n).1 n (takeDesc s n).2 (cdCheck s d rec) 0 :=
  (if_neg (not_or.mpr ⟨not_bnot_of_true hr, fun h => hc h.1⟩)).trans (if_pos hc)

theorem cdTake_served (hc : cdCheck s d rec = 0) (ho : cdOp d = op) : cdTake s n d rec op serve = serve (takeDesc s n).1 (takeDesc s n).2 :=
  (if_neg (not_or.mpr ⟨not_bnot_of_true hr, fun h => h.2 ho⟩)).trans (if_neg (not_not.mpr hc))

end

end Sys2Proof.Machine

/-! ### The obligations -/

open Sys2Proof Sys2Proof.Machine

/-- Settles O48: what a compute descriptor's ring takes, and then the checks of each operation. -/
theorem computeDescriptorsHaveTheirEffect : Obligations.ComputeDescriptorsHaveTheirEffect := by
  intro s n d rec gains img u i ops out h
  have ops_of {o : Nat} {r : List Word} {c : Instr} {P : Prop} {serve : State → Nat → State}
      (hc : exec c s = .next (cdTake s n d r o serve)) (hp : exec c s = .next (serve u i) → P) : ops o r c P :=
    ⟨fun h => hc.trans (next_congr (cdTake_idle h)), fun hr h => hc.trans (next_congr (cdTake_bad hr h)),
      fun hr h ho => hp (hc.trans (next_congr (cdTake_served hr h ho)))⟩
  refine ⟨ops_of rfl fun served => ?createJob, ops_of rfl fun served => ?deleteJob, ops_of rfl fun served => ?setParam,
    ops_of rfl fun served => ?loadSet, ops_of rfl fun served => ?createStream, ops_of rfl fun served => ?deleteStream,
    ops_of rfl fun served => ?readJob⟩
  case createJob =>
    intro j c full
    have full_iff : (8192 ≤ u.plc.jobs.length ∨ ((!j.packet) = true ∧ 32768 < tapCount u + j.nout)) ↔ full := by
      simp only [full, Bool.not_eq_true']
    have placed : exec c s = .next (if jobCheck u rec img j ≠ 0 then cdDone u n i (jobCheck u rec img j) 0
        else if 8192 ≤ u.plc.jobs.length ∨ ((!j.packet) = true ∧ 32768 < tapCount u + j.nout) then cdDone u n i 0x07 0
        else match bestCell u j allCells with
        | none => cdDone u n i 0x07 0
        | some x =>
          let t1 := judgeLoads (refreshGroups (setJob u (bits (dwAt rec 0) 15 0) x))
          cdDone t1 n i 0 (fieldW 14 8 x.cell ||| fieldW 7 0 (halfPercent (jobCycles t1 x)))) := served
    refine ⟨fun hc => placed.trans (next_pos hc), fun hc hf => ?_, fun x hc hf hx => ?_⟩
    · by_cases hfull : full
      · exact placed.trans ((next_neg (not_not.mpr hc)).trans (next_pos (full_iff.mpr hfull)))
      · rw [if_neg (not_not.mpr hc), if_neg (mt full_iff.mp hfull), hf.resolve_left hfull] at placed
        exact placed
    · rw [if_neg (not_not.mpr hc), if_neg (mt full_iff.mp hf), hx] at placed
      exact placed
  case deleteJob =>
    intro j hj taps t1
    rw [hj] at served
    exact ⟨fun ht => served.trans (next_pos ht), fun ht => served.trans (next_neg (not_of_false ht))⟩
  case setParam =>
    intro j hj p
    rw [hj] at served
    exact ⟨fun hc => served.trans (next_pos hc), fun hc => served.trans (next_neg (not_not.mpr hc))⟩
  case loadSet =>
    intro j hj c set row rows gs outside base k
    rw [hj] at served
    have outside_iff : (j.kind ≠ 1 ∨ rows = 0 ∨ 128 < rows ∨ j.nout < row + rows ∨ j.arg0 ≤ set ∨
        (gs.any fun g => decide (16 * f32One < (f32Val g).natAbs)) = true) ↔ outside := by
      simp only [outside, List.any_eq_true, decide_eq_true_eq]
    refine ⟨fun hg => served.trans (next_pos (bnot_of_false hg)), fun hg ho => ?_, ?_⟩
    · exact served.trans ((next_neg (not_bnot_of_true hg)).trans (next_pos (outside_iff.mpr ho)))
    · intro isOver
      refine ⟨fun hg ho hv => ?_, fun hg ho hv => ?_⟩
      · exact served.trans ((next_neg (not_bnot_of_true hg)).trans ((next_neg (mt outside_iff.mp ho)).trans (next_pos hv)))
      · exact served.trans ((next_neg (not_bnot_of_true hg)).trans ((next_neg (mt outside_iff.mp ho)).trans (next_neg hv)))
  case createStream =>
    intro x
    exact ⟨fun hc => served.trans (next_pos hc), fun hc => served.trans (next_neg (not_not.mpr hc))⟩
  case deleteStream =>
    intro x hx
    rw [hx] at served
    dsimp only at served ⊢
    exact ⟨fun ht => served.trans (next_pos ht), fun ht => served.trans (next_neg (not_of_false ht))⟩
  case readJob =>
    intro j hj
    rw [hj] at served
    exact served
end


section
/-!
Proofs/RingEvents: rings, doorbells and completions.
-/
namespace Sys2Proof.Machine

/-- An offset of a BAR2 page other than its doorbell (R43). -/
theorem bar2Write_reserved {s : State} {be : BitVec 4} {a : Nat} {v : Word} (h : a % 0x1000 ≠ 0) : bar2Write s be a v = s := if_neg h

/-- Offset 0 of page `n` (R42). -/
theorem bar2Write_doorbell (s : State) (be : BitVec 4) (n : Fin 256) (v : Word) :
    bar2Write s be (BitVec.ofNat 20 (0x1000 * n.val)).toNat v = doorbell s be n v := by
  have hn := n.isLt
  have ha : (BitVec.ofNat 20 (0x1000 * n.val)).toNat = 0x1000 * n.val := by
    rw [BitVec.toNat_ofNat]
    omega
  have hm : 0x1000 * n.val % 0x1000 = 0 := by omega
  have hd : 0x1000 * n.val / 0x1000 = n.val := by omega
  rw [ha, bar2Write, if_pos hm, hd]

section
variable {s : State} {be : BitVec 4} {n : Nat} {v : Word}

theorem doorbell_still (h : s.alive = false) : doorbell s be n v = s := if_pos (bnot_of_false h)

variable (h : s.alive = true)
include h

theorem doorbell_refused (hc : doorbellCode s be n v ≠ 0) : doorbell s be n v = refuseDoorbell s n (doorbellCode s be n v) v :=
  (if_neg (not_bnot_of_true h)).trans (if_pos hc)

theorem doorbell_taken (hc : doorbellCode s be n v = 0) :
    doorbell s be n v =
      if bit v 31 then
        let s1 := s.setFld (cqCfg n + 0x0C) 15 0 (bits v 15 0)
        if bit v 30 then setCqRec (setArmed s1 n true) n { cqRec s1 n with armedAt := s1.elapsed } else s1
      else if ringType s n = 6 then s.setFld (ringCfg n + 0x0C) 15 0 (bits v 15 0)
      else s.setFld (ringCfg n + 0x0C) 31 16 (bits v 15 0) :=
  (if_neg (not_bnot_of_true h)).trans (if_neg (not_not.mpr hc))

end

/-- What a TX descriptor without a launch of its own does with its frame, by its DEST_TYPE (R630). -/
def sendHostFrame (s : State) (d : List Word) (f : Frame) : State :=
  match bits (dwAt d 3) 31 30 with
  | 0 =>
    let r := resolveFrame s 0 (bits (dwAt d 2) 15 4) (parse f.bytes) true (.port dropPort)
    forward r.1 { f with vact := r.2.vact, newVid := r.2.newVid } r.2.toward false none
  | 1 => forward s f (.port (bits (dwAt d 3) 15 0)) false none
  | _ => forward s f (.group (bits (dwAt d 3) 15 0)) false none

theorem sendHostFrame_group {s : State} {d : List Word} {f : Frame} (h : 2 ≤ bits (dwAt d 3) 31 30) :
    sendHostFrame s d f = forward s f (.group (bits (dwAt d 3) 15 0)) false none := by
  unfold sendHostFrame
  split
  next h0 => omega
  next h1 => omega
  next => rfl

end Sys2Proof.Machine

/-! ### The obligations -/

open Sys2Proof Sys2Proof.Machine

/-- Settles O49, event by event. -/
theorem ringEventsHaveTheirEffect : Obligations.RingEventsHaveTheirEffect := by
  intro s
  refine ⟨?ringStopped, ?reserved, ?doorbells, ?txDescriptor, ?rxFrameDelivery, ?completionResume, ?cqFire, ?dmaReadError⟩
  case ringStopped =>
    intro n stops
    have stops_iff : (ringActive s n = true ∧ (!ringEn s n) = true ∧ (!ringDraining s n) = true) ↔ stops := by
      simp only [stops, Bool.not_eq_true']
    exact ⟨fun h => if_pos (stops_iff.mpr h), fun h => if_neg (mt stops_iff.mp h)⟩
  case reserved =>
    exact fun be a v h => ⟨next_congr (bar2Write_reserved h), next_congr (bar2Write_reserved h), next_congr (bar2Write_reserved h)⟩
  case doorbells =>
    intro be n v a bell s1
    have bell_of {t : State} (h : doorbell s be n v = t) : bell (.next t) := by
      have rung := (bar2Write_doorbell s be n v).trans h
      exact ⟨next_congr rung, next_congr rung, next_congr rung⟩
    refine ⟨fun h => bell_of (doorbell_still h), fun h hc => bell_of (doorbell_refused h hc), fun h hc => ?_⟩
    have taken := doorbell_taken h hc
    refine ⟨fun h1 h0 => bell_of (taken.trans ((if_pos h1).trans (if_pos h0))),
      fun h1 h0 => bell_of (taken.trans ((if_pos h1).trans (if_neg (not_of_false h0)))),
      fun h1 h6 => bell_of (taken.trans ((if_neg (not_of_false h1)).trans (if_pos h6))),
      fun h1 h6 => bell_of (taken.trans ((if_neg (not_of_false h1)).trans (if_neg h6)))⟩
  case txDescriptor =>
    intro n d data u i f s2 dest run done
    refine ⟨fun h => if_pos (h.imp_right bnot_of_false), fun hn hr hc => ?_, fun hn hr hc => ?_⟩
    · exact (if_neg (not_or.mpr ⟨not_not.mpr hn, not_bnot_of_true hr⟩)).trans (if_pos hc)
    have sent : run = if bit (dwAt d 3) 26 then .next (forward s2 f (.port dest) false (some (n.val, i))) else .next (done (sendHostFrame s2 d f)) :=
      (if_neg (not_or.mpr ⟨not_not.mpr hn, not_bnot_of_true hr⟩)).trans (if_neg (not_not.mpr hc))
    refine ⟨fun hl => sent.trans (if_pos hl), fun hl => ?_⟩
    rw [if_neg (not_of_false hl)] at sent
    refine ⟨fun h0 => ?_, fun h1 => ?_, fun h2 => ?_⟩
    · rw [sendHostFrame, h0] at sent
      exact sent
    · rw [sendHostFrame, h1] at sent
      exact sent
    · rw [sendHostFrame_group h2] at sent
      exact sent
  case rxFrameDelivery =>
    intro descs run
    refine ⟨fun h => ?_, fun t hd ha ht => ?_⟩
    · by_cases hs : hostPortDown s = true ∨ (!s.alive) = true
      · exact if_pos hs
      · have none_due : nextDelivery s = none := by
          obtain hd | ha | hn := h
          · exact absurd (.inl hd) hs
          · exact absurd (.inr (bnot_of_false ha)) hs
          · exact hn
        simp only [run, exec, execRxFrameDelivery, if_neg hs, none_due]
    · have runs : ¬(hostPortDown s = true ∨ (!s.alive) = true) := not_or.mpr ⟨not_of_false hd, not_bnot_of_true ha⟩
      refine ⟨fun h8 => ?_, fun h8 => ?_⟩
      · simp only [run, exec, execRxFrameDelivery, if_neg runs, ht, h8]
      · simp only [run, exec, execRxFrameDelivery, if_neg runs, ht]
  case completionResume =>
    refine fun n => ⟨fun h => ?_, fun x t h => ?_⟩
    · simp only [exec, execCompletionResume, h]
    · simp only [exec, execCompletionResume, h]
      exact ⟨fun hc => if_pos hc, fun hc hd => if_neg (not_or.mpr ⟨not_of_false hc, not_of_false hd⟩)⟩
  case cqFire => exact fun c => ⟨fun hc ha => if_pos ⟨hc, ha⟩, fun h => if_neg (not_both_of_false h)⟩
  case dmaReadError =>
    intro n fetch ty none_
    have none_iff : ((!canTake s n ty) = true ∨ ty = 6 ∨ ((!fetch) = true ∧ ty = 2)) ↔ none_ := by
      simp only [none_, Bool.not_eq_true']
    exact ⟨fun h => if_pos (none_iff.mpr h), fun h => if_neg (mt none_iff.mp h)⟩
end

section
/-!
Proofs/HostLinkEvents: the host link and the function's configuration, power states and gating.
-/
namespace Sys2Proof.Machine

/-- Two conditions of which one fails, the second a negation. -/
theorem not_both_of_false_or_true {a b : Bool} (h : a = false ∨ b = true) : ¬(a = true ∧ (!b) = true) :=
  not_both_of_false (h.imp_right fun hb => by rw [hb]; rfl)

end Sys2Proof.Machine

/-! ### The obligations -/

open Sys2Proof Sys2Proof.Machine

/-- Settles O50, event by event. -/
theorem hostLinkEventsHaveTheirEffect : Obligations.HostLinkEventsHaveTheirEffect := by
  intro s
  refine ⟨fun hl ha => if_pos ⟨hl, ha⟩, fun h => if_neg (not_both_of_false h), ?hostPortDown, fun ha hf => if_neg ?hostPortUp,
    fun h => if_pos (h.imp_left bnot_of_false), fun h => if_pos h, fun h => if_neg (not_of_false h), ⟨fun h => if_pos h, fun h => if_neg (not_of_false h)⟩,
    ?perstDeassert, ?pcieLinkChange, ?pcieConfigRequest⟩
  case hostPortDown => exact fun d3 bme0 msix0 => ⟨fun h => if_neg (not_bnot_of_true h), fun h => if_pos (bnot_of_false h)⟩
  case hostPortUp => exact not_or.mpr ⟨not_bnot_of_true ha, not_of_false hf⟩
  case perstDeassert =>
    refine ⟨fun h => if_pos (bnot_of_false h), fun h hp => ?_, fun h h2 h3 => ?_⟩
    · exact (if_neg (not_bnot_of_true h)).trans (if_pos hp)
    · exact (if_neg (not_bnot_of_true h)).trans (if_neg (not_or.mpr ⟨h2, h3⟩))
  case pcieLinkChange =>
    intro link width speed run may
    have may_not : may = false ↔ (!linkTrains width.toNat speed.toNat) = true ∨ (!s.pwr.ready) = true ∨ s.pwr.perstLow = true := by
      simp only [may, Bool.and_eq_false_iff, Bool.not_eq_true', Bool.not_eq_false', or_assoc]
    refine ⟨fun h => if_pos (h.imp bnot_of_false (.imp_right may_not.mp)), fun ha => ⟨fun h4 => ?_, fun hm => ?_⟩⟩
    · refine (if_neg (not_or.mpr ⟨not_bnot_of_true ha, fun h => h.1 h4⟩)).trans ((if_neg ?_).trans (if_pos h4))
      omega
    · have changes : ¬((!s.alive) = true ∨
          (link.val ≠ 4 ∧ ((!linkTrains width.toNat speed.toNat) = true ∨ (!s.pwr.ready) = true ∨ s.pwr.perstLow = true))) :=
        not_or.mpr ⟨not_bnot_of_true ha, fun h => not_of_false (may_not.mpr h.2) hm⟩
      exact ⟨fun h0 => (if_neg changes).trans (if_pos h0), fun h0 h4 => (if_neg changes).trans ((if_neg h0).trans (if_neg h4))⟩
  case pcieConfigRequest =>
    intro answers
    have silent : answers = false ↔ (!s.alive) = true ∨ (!s.pwr.ready) = true ∨ s.pwr.perstLow = true ∨ linkState s = 4 := by
      simp only [answers, Bool.and_eq_false_iff, Bool.not_eq_true', Bool.not_eq_false', or_assoc, bne_eq_false_iff_eq]
    refine ⟨fun x => ⟨fun h => if_pos (silent.mp h), fun h hi => ?_⟩, fun h hi => ?_⟩
    · exact (if_neg fun hs => not_of_false (silent.mpr hs) h).trans (if_pos (bnot_of_false hi))
    · have served {q r : Result} (hq : q = r) : (if (!s.alive) = true ∨ (!s.pwr.ready) = true ∨ s.pwr.perstLow = true ∨ linkState s = 4 then .next s
          else if (!s.pwr.imaged) = true then .next (s.emit (.cfg true 0)) else q) = r :=
        (if_neg fun hs => not_of_false (silent.mpr hs) h).trans ((if_neg (not_bnot_of_true hi)).trans hq)
      exact ⟨fun off => served rfl, fun bme => served rfl, fun d0 clr => served rfl, fun en mask => served rfl, served rfl⟩

/-- Settles O51, event by event. -/
theorem powerStateEventsHaveTheirEffect : Obligations.PowerStateEventsHaveTheirEffect := by
  intro s
  refine ⟨fun h => if_pos h, fun h => if_neg h, ⟨fun h => if_pos h, fun h => if_neg h⟩, ?pavilionGate, ?pavilionUngateDone, ?commitOther, ?p2Commit,
    ?entryOther, ?p2EntryDone, ?departureOther, ?p2DepartureDone, ?linkOther, ?p3LinkReady, fun hc hl => if_pos ⟨hc, hl⟩, ?lastOther,
    fun h => if_pos h, fun h => if_neg h, fun hc hp hr => if_pos ⟨hc, hp, bnot_of_false hr⟩, ?p3Restart⟩
  case pavilionGate =>
    intro r may
    have may_iff : (s.alive = true ∧ s.pstate = 1 ∧ s.pwr.change = .idle ∧ pavIdle s r = true ∧ (!s.pwr.gated.contains r.val) = true) ↔ may := by
      simp only [may, Bool.not_eq_true']
    exact ⟨fun h => if_pos (may_iff.mpr h), fun h => if_neg (mt may_iff.mp h)⟩
  case pavilionUngateDone =>
    intro r u may
    have may_iff : (s.pwr.gated.contains r.val = true ∧ (!pavIdle s r) = true) ↔ may := by
      simp only [may, Bool.not_eq_true']
    exact ⟨fun h => if_pos (may_iff.mpr h), fun h => if_neg (mt may_iff.mp h)⟩
  case commitOther =>
    intro h
    simp only [exec, execP2Commit]
  case p2Commit =>
    intro x toP3 hc
    simp only [exec, execP2Commit, hc]
    exact ⟨fun h => if_pos h, fun h => if_neg (not_of_false h)⟩
  case entryOther =>
    intro h
    simp only [exec, execP2EntryDone]
  case p2EntryDone =>
    intro toP3 hc
    simp only [exec, execP2EntryDone, hc]
  case departureOther =>
    intro h
    simp only [exec, execP2DepartureDone]
  case p2DepartureDone =>
    intro toP1 hc
    simp only [exec, execP2DepartureDone, hc]
  case linkOther =>
    intro h ready
    simp only [exec, execP3LinkReady]
  case p3LinkReady =>
    intro c hc
    have waits (ready : Bool) : exec (.p3LinkReady ready) s =
        if ready = true ∨ waited s s.pwr.stepAt (s.fld (pwrB + 0x050) 31 16 * 1000000 * tuPerNs) = true then .next (alignLodge s c) else .next s := by
      simp only [exec, execP3LinkReady, hc]
    refine ⟨(waits true).trans (if_pos (.inl rfl)), fun h => (waits false).trans (if_pos (.inr h)), fun h => (waits false).trans (if_neg ?_)⟩
    exact not_or.mpr ⟨Bool.false_ne_true, not_of_false h⟩
  case lastOther => exact fun h => if_neg fun hc => h.elim (fun h => h hc.1) fun h => not_of_false h hc.2
  case p3Restart =>
    refine fun h => if_neg fun hc => ?_
    obtain h | h | h := h
    · exact h hc.1
    · exact h hc.2.1
    · exact not_bnot_of_true h hc.2.2
end

section
/-!
Proofs/LodgeEvents: the Lodge with its clock and wake, the feeds, the hold-up bank and the field outputs.
-/
namespace Sys2Proof.Machine

/-- What the restart leaves when the handed-back second has come (R723). -/
theorem handBack_cases (s : State) :
    let u : State := { s with sun := { s.sun with ppsLodge := false }, pwr := { s.pwr with lodgePps := none, loaded := none, handedBack := true } }
    (s.pwr.change ≠ .restart → handBack s = u) ∧
    (s.pwr.change = .restart → wakeToP1 u = true → handBack s = beginChange u .trim 1) ∧
    (s.pwr.change = .restart → wakeToP1 u = false → handBack s = stateDone (endIn u 0) false) :=
  ⟨fun h => if_neg h, fun h hw => (if_pos h).trans (if_pos hw), fun h hw => (if_pos h).trans (if_neg (not_of_false hw))⟩

/-- No pulse leaves the Lodge without a train, without power and in a lapse of its clock. -/
theorem emitPps_idle {s : State} (h : s.pwr.lodgePps = none ∨ s.pwr.lodgeOn = false ∨ s.pwr.lapse = true) : emitPps s = s := by
  unfold emitPps
  split
  · rfl
  next width adj k0 train =>
    refine if_pos ?_
    obtain h | h | h := h
    · exact absurd (h.symm.trans train) nofun
    · exact .inr (.inl (bnot_of_false h))
    · exact .inl h

/-- The second that the Sundial has loaded lies before `k`, as a condition on the load. -/
theorem loaded_before_iff (l : Option Nat) (k : Nat) :
    (match l with | some w => decide (w < k) | none => false) = true ↔ ∃ w, l = some w ∧ w < k := by
  cases l with
  | none => exact ⟨nofun, nofun⟩
  | some w => simp

/-- Every TRUNK port among the 128 has no wake waiting: the test of TRUNK_WAKE_SEND_DONE. -/
theorem all_wakes_sent_iff (s : State) :
    (List.range 128).all (fun p => !portIs s p 1 || !s.flag (lanB p + 0x040) 2 || (portRec s p).wakes == []) = true ↔
      ∀ p : Nat, p < 128 → portIs s p 1 = true → s.flag (lanB p + 0x040) 2 = true → (portRec s p).wakes = [] := by
  simp only [List.all_eq_true, List.mem_range, Bool.or_eq_true, Bool.not_eq_true', beq_iff_eq, Bool.eq_false_iff, ne_eq, or_assoc,
    imp_iff_not_or]

end Sys2Proof.Machine

/-! ### The obligations -/

open Sys2Proof Sys2Proof.Machine

/-- Settles O52, event by event. -/
theorem lodgeEventsHaveTheirEffect : Obligations.LodgeEventsHaveTheirEffect := by
  intro s
  refine ⟨?sundialLodgeLoad, ?restartIdle, ?p3RestartDone, ?lodgeSync, fun h => next_congr (emitPps_idle h), ?lodgePps,
    ?oscinLapse, ⟨fun h => if_pos h, fun h => if_neg (not_of_false h)⟩, ⟨fun h => if_pos h, fun h => if_neg h⟩,
    fun pin => ⟨fun h => if_pos h, fun h => if_neg (not_of_false h)⟩, ?trunkWakeSendDone, fun p w => ⟨fun h => if_pos h, fun h => if_neg h⟩⟩
  case sundialLodgeLoad =>
    intro u may
    have may_iff : (s.pwr.imaged = true ∧ (!s.held) = true ∧ s.pwr.loaded = none ∧ (!s.pwr.handedBack) = true ∧
        lodgeNow u % tuPerSec < lodgeInc u) ↔ may := by
      simp only [may, Bool.not_eq_true']
    exact ⟨fun h => if_pos (may_iff.mpr h), fun h => if_neg (mt may_iff.mp h)⟩
  case restartIdle =>
    intro h
    simp only [exec, execP3RestartDone, h]
  case p3RestartDone =>
    intro w hw u
    have waits : exec .p3RestartDone s = if (w + 1) * tuPerSec ≤ nodeTime s then .next (handBack s) else .next s := by
      simp only [exec, execP3RestartDone, hw]
    obtain ⟨plain, toP1, toP0⟩ := handBack_cases s
    refine ⟨fun h => waits.trans (if_neg (Nat.not_le.mpr h)), fun h => ?_⟩
    have back : exec .p3RestartDone s = .next (handBack s) := waits.trans (if_pos h)
    exact ⟨fun hc => back.trans (congrArg _ (plain hc)), fun hc hp => back.trans (congrArg _ (toP1 hc hp)),
      fun hc hp => back.trans (congrArg _ (toP0 hc hp))⟩
  case lodgeSync =>
    intro may
    have may_iff : (s.alive = true ∧ (!s.sun.stopped) = true ∧ s.sun.hand.carried = true ∧ (!s.pwr.lapse) = true ∧
        (!decide (s.pwr.change = .restart ∧ s.pwr.loaded = none)) = true ∧ s.pwr.change ≠ .lastSecond ∧ s.pwr.change ≠ .railsOff) ↔ may := by
      simp only [may, Bool.not_eq_true', decide_eq_false_iff_not]
    exact ⟨fun h => if_pos (may_iff.mpr h), fun h => if_neg (mt may_iff.mp h)⟩
  case lodgePps =>
    intro width adj k0 train lodgeOn lapse k n gap at_ u never
    have never_iff : (s.pwr.lapse = true ∨ (!s.pwr.lodgeOn) = true ∨ lodgeInc s = 0 ∨ n < 0 ∨
        (match s.pwr.loaded with | some w => decide (w < k) | none => false) = true ∨ (n ≠ 0 ∧ (!s.sun.stopped) = true)) ↔ never := by
      simp only [never, loaded_before_iff, lapse, lodgeOn, Bool.not_eq_true', Bool.false_eq_true, Bool.true_eq_false, false_or]
    have pulse : exec .lodgePps s = .next (if never then s else if fieldOff s 0 = true then u
        else (u.emit (.edge (.pps 0) true (lodgeNow u))).emit (.edge (.pps 0) false (lodgeNow u + width))) := by
      refine next_congr ?_
      simp only [emitPps, train]
      exact if_congr never_iff rfl rfl
    exact ⟨fun h => pulse.trans (congrArg _ (if_pos h)), fun h hf => pulse.trans (congrArg _ ((if_neg h).trans (if_pos hf))),
      fun h hf => pulse.trans (congrArg _ ((if_neg h).trans (if_neg (not_of_false hf))))⟩
  case oscinLapse =>
    intro u dead
    exact ⟨fun h => if_pos h, fun h ha => (if_neg (not_of_false h)).trans (congrArg _ (if_pos ha)),
      fun h ha => (if_neg (not_of_false h)).trans (congrArg _ (if_neg (not_of_false ha)))⟩
  case trunkWakeSendDone =>
    intro sent
    exact ⟨fun hb h => if_pos ⟨hb, (all_wakes_sent_iff s).mpr h⟩,
      fun h => if_neg fun hs => h.elim (fun hb => not_of_false hb hs.1) fun hn => hn ((all_wakes_sent_iff s).mp hs.2)⟩

/-- Settles O53, event by event. -/
theorem feedEventsHaveTheirEffect : Obligations.FeedEventsHaveTheirEffect := by
  intro s
  refine ⟨?feeds, ?revertIdle, ?feedRevert, ⟨fun h => if_pos h, fun h => if_neg h⟩, fun c => ⟨fun h => if_pos h, fun h => if_neg (not_of_false h)⟩,
    ?timeoutIdle, ?chargeTimeout, ?fieldShort, fun b => ⟨fun h => if_pos h, fun h => if_neg h⟩⟩
  case feeds =>
    intro x va vb u0 u lost back
    have lost_iff : (s.pwr.lodgeOn = true ∧ feedOk s x = true ∧ (!inRange u0 x) = true ∧ (!inRange u x) = true) ↔ lost := by
      simp only [lost, Bool.not_eq_true']
    have back_iff : (s.pwr.lodgeOn = true ∧ (!feedOk s x) = true ∧ inRange u0 x = true ∧ inRange u x = true) ↔ back := by
      simp only [back, Bool.not_eq_true']
    exact ⟨fun h => if_pos (lost_iff.mpr h), fun h => if_neg (mt lost_iff.mp h), fun h => if_pos (back_iff.mpr h), fun h => if_neg (mt back_iff.mp h)⟩
  case revertIdle =>
    intro h
    simp only [exec, execFeedRevert, h]
  case feedRevert =>
    intro t ht f due
    simp only [exec, execFeedRevert, ht]
    exact ⟨fun h => if_pos h, fun h => if_neg h⟩
  case timeoutIdle =>
    intro v h
    simp only [exec, execChargeTimeout, h]
  case chargeTimeout =>
    intro v t ht u due
    simp only [exec, execChargeTimeout, ht]
    exact ⟨fun h => if_pos h, fun h => if_neg h⟩
  case fieldShort =>
    intro b u may
    have may_iff : (s.pwr.lodgeOn = true ∧ (!fieldOff s b) = true) ↔ may := by
      simp only [may, Bool.not_eq_true']
    exact ⟨fun h => if_pos (may_iff.mpr h), fun h => if_neg (mt may_iff.mp h)⟩
end

section
/-!
Proofs/MonitorEvents: the NVM's writes, the monitors' readings and uncorrectable errors.
-/
namespace Sys2Proof.Machine

/-- With no write running none is finished. -/
theorem finishNvm_nil {s : State} (fail : Bool) (h : s.nvm.jobs = []) : finishNvm s fail = s := by
  simp only [finishNvm, h]

/-- A write that succeeds stores its own bytes (R743). -/
theorem finishNvm_stored {s : State} {j : NvmJob} {l : List NvmJob} (h : s.nvm.jobs = j :: l) :
    finishNvm s false = (nvmStore { s with nvm := { s.nvm with jobs := l } } j.addr j.data).setFlag (nvmB + 0x044) 0 (decide (l ≠ [])) := by
  simp only [finishNvm, h]
  rfl

/-- What a failed write leaves before its failure is reported: the write off the list and its bytes free values (R743, R801). -/
def afterFailedWrite (s : State) (j : NvmJob) (l : List NvmJob) : State :=
  (nvmStore { s with nvm := { s.nvm with jobs := l }, fresh := s.fresh + j.data.length } j.addr
    ((List.range j.data.length).map fun i => Config.freeByte (s.fresh + i))).setFlag (nvmB + 0x044) 0 (decide (l ≠ []))

/-- The failure of a write that no window register made is an event. -/
theorem finishNvm_failed_own {s : State} {j : NvmJob} {l : List NvmJob} (h : s.nvm.jobs = j :: l) (hw : j.win = none) :
    finishNvm s true = tdcEvent (afterFailedWrite s j l) 3 := by
  simp only [finishNvm, h, hw]
  rfl

/-- The failure of a window's write latches at the window's register. -/
theorem finishNvm_failed_window {s : State} {j : NvmJob} {l : List NvmJob} {o : Nat} {m : Master} (h : s.nvm.jobs = j :: l) (hw : j.win = some (o, m)) :
    finishNvm s true = latchErr (afterFailedWrite s j l) ⟨.nvm, 0, 0⟩ 0x0A o m := by
  simp only [finishNvm, h, hw]
  rfl

/-- A chip-level fault while one is latched sets the lost flag alone. -/
theorem chipFatal_again {s : State} (cause detail : Nat) (h : fatalNow s = true) : chipFatal s cause detail = s.setFlag (monB + 0x048) 30 true :=
  if_pos h

/-- The first chip-level fault of a chip in RECOVERY: source 18 is not latched. -/
theorem chipFatal_recovery {s : State} (cause detail : Nat) (h : fatalNow s = false) (hm : s.mode = 3) :
    chipFatal s cause detail =
      (latchSource ((safeStates ((s.wr (monB + 0x048) (bitW 31 true ||| fieldW 15 8 detail ||| fieldW 7 0 cause)).orReg (monB + 0x040)
        (bitW 31 true))).setFld (chpB + 0x040) 3 0 3) 480).emit (.edge .fatalN false (nodeTime s)) :=
  (if_neg (not_of_false h)).trans (congrArg (fun t => (latchSource t 480).emit (.edge .fatalN false (nodeTime s))) (if_pos hm))

/-- The first chip-level fault in any other mode latches source 18 too. -/
theorem chipFatal_other {s : State} (cause detail : Nat) (h : fatalNow s = false) (hm : s.mode ≠ 3) :
    chipFatal s cause detail =
      (latchSource (latchSource ((safeStates ((s.wr (monB + 0x048) (bitW 31 true ||| fieldW 15 8 detail ||| fieldW 7 0 cause)).orReg (monB + 0x040)
        (bitW 31 true))).setFld (chpB + 0x040) 3 0 3) 18) 480).emit (.edge .fatalN false (nodeTime s)) :=
  (if_neg (not_of_false h)).trans (congrArg (fun t => (latchSource t 480).emit (.edge .fatalN false (nodeTime s))) (if_neg hm))

/-- An error in the pointers of a queue of attachment 8 drops the queue alone. -/
theorem eccError_queuePtr_own {s : State} {p : Fin 137} (t : Fin 8) (bank : Fin 16) (others : List (Fin 137 × Fin 8)) (h : attachOf p = 8) :
    eccError s (.queuePtr p t bank others) = dropQueue s p t :=
  if_pos h

/-- An error in the pointers of any other queue counts in its bank's window. -/
theorem eccError_queuePtr_bank {s : State} {p : Fin 137} (t : Fin 8) (bank : Fin 16) (others : List (Fin 137 × Fin 8)) (h : attachOf p ≠ 8) :
    let y := windowHit (dropQueue s p t) (0x2000 + 16 * attachOf p + bank.val)
    eccError s (.queuePtr p t bank others) =
      if retireLim s ≤ y.2 then
        retireBank (forEach (others.filter fun q => attachOf q.1 = attachOf p) y.1 fun q z => dropQueue z q.1 q.2) true (attachOf p) bank
      else y.1 :=
  if_neg h

end Sys2Proof.Machine

/-! ### The obligations -/

open Sys2Proof Sys2Proof.Machine

/-- Settles O54, event by event. -/
theorem monitorEventsHaveTheirEffect : Obligations.MonitorEventsHaveTheirEffect := by
  intro s
  refine ⟨fun fail h => next_congr (finishNvm_nil fail h), ?nvmWriteDone,
    fun temps mv => ⟨fun h => ⟨if_pos h, if_pos h⟩, fun h => ⟨if_neg (not_of_false h), if_neg (not_of_false h)⟩⟩,
    ?supplyFault, fun x h => if_neg (not_of_false h), ?eccUncorrectable⟩
  case nvmWriteDone =>
    intro j l hj kept bad u
    exact ⟨next_congr (finishNvm_stored hj), fun h => next_congr (finishNvm_failed_own hj h), fun o m h => next_congr (finishNvm_failed_window hj h)⟩
  case supplyFault =>
    intro m stands u low
    refine ⟨fun h => ?_, fun o ha ho => ?_⟩
    · simp only [exec, execSupplyFault]
      split
      · next t ht => exact if_neg fun hc => h.elim (fun h => not_of_false h hc.1) fun h => h t ⟨ht, hc.2⟩
      · rfl
    · have fatal : exec (.supplyFault m) s = .next (chipFatal s 0x03 m) := by
        simp only [exec, execSupplyFault, ho.1]
        exact if_pos ⟨ha, ho.2⟩
      exact ⟨fun h => fatal.trans (next_congr (chipFatal_again _ _ h)), fun h hm => fatal.trans (next_congr (chipFatal_recovery _ _ h hm)),
        fun h hm => fatal.trans (next_congr (chipFatal_other _ _ h hm))⟩
  case eccUncorrectable =>
    intro ha b
    have found {x : EccWhere} {t : State} (h : eccError b x = t) : exec (.eccUncorrectable x) s = .next t :=
      (if_pos ha).trans (next_congr h)
    refine ⟨fun i e l k => found rfl, fun p t k => found rfl, fun n => ⟨fun h => found (if_pos h), fun h => found (if_neg (not_of_false h))⟩,
      fun r i => ⟨found rfl, found rfl, found rfl⟩, fun k i => found rfl, fun d => found rfl, fun c => found rfl, fun r => found rfl,
      fun k r => found rfl, found rfl, fun p t bank others h => found (eccError_queuePtr_own t bank others h), fun p t bank others h => ?_⟩
    intro y
    have counted := eccError_queuePtr_bank (s := b) t bank others h
    exact ⟨fun hy => found (counted.trans (if_neg (Nat.not_le.mpr hy))), fun hy => found (counted.trans (if_pos hy))⟩
end

section
/-!
Proofs/ResetEvents: power on, the rails, chip reset and release, and the test port.
-/
namespace Sys2Proof.Machine

/-- Applying a configuration image without a valid slot records that there is none. -/
theorem configImageApply_none {s : State} (ha : s.alive = true) (hf : s.pwr.firmware = true) (hi : s.pwr.imaged = false) (hm : s.mode = 0)
    (hk : imageSlot s = none) :
    exec .configImageApply s = .next (({ s with pwr := { s.pwr with imaged := true } } : State).setFld (nvmB + 0x040) 1 0 3) := by
  refine (if_pos ⟨ha, hf, bnot_of_false hi, hm⟩).trans ?_
  simp only [hk]

/-- Applying the image of a valid slot records the slot and the image's identity and applies its entries. -/
theorem configImageApply_some {s : State} {k : Nat} (ha : s.alive = true) (hf : s.pwr.firmware = true) (hi : s.pwr.imaged = false) (hm : s.mode = 0)
    (hk : imageSlot s = some k) :
    let u : State := { s with pwr := { s.pwr with imaged := true } }
    let w : State := { u.setFld (nvmB + 0x040) 1 0 k with pwr := { u.pwr with subsys := nvmWord s (imageAt k + 8) } }
    exec .configImageApply s = .next
      (forEach (List.range (imageEntries s k)) w fun i t => applyEntry t (nvmWord s (imageAt k + 16 + 12 * i)).toNat
        (nvmWord s (imageAt k + 16 + 12 * i + 4)) (nvmWord s (imageAt k + 16 + 12 * i + 8))) := by
  intro u w
  refine (if_pos ⟨ha, hf, bnot_of_false hi, hm⟩).trans ?_
  simp only [hk]
  rfl

end Sys2Proof.Machine

/-! ### The obligations -/

open Sys2Proof Sys2Proof.Machine

/-- Settles O55, event by event. -/
theorem resetEventsHaveTheirEffect : Obligations.ResetEventsHaveTheirEffect := by
  intro s
  refine ⟨?lodgePowerOn, ?lodgeStart, ?railEnable, fun he hg => if_pos ⟨he, bnot_of_false hg⟩, ?railGoodIdle, fun h => if_pos h,
    fun h => if_neg (not_of_false h), fun he hg => if_pos ⟨he, hg⟩, fun h => if_neg (not_both_of_false h), ?railOffHoldEnd, rfl, ?chipResetPin,
    fun fails => ⟨fun h => if_neg (not_of_false h), fun h => if_pos h⟩, ?chipResetRelease, fun x => ⟨fun h => if_pos h, fun h => if_neg h⟩,
    fun h => if_pos h, fun h => if_neg (not_of_false h), ?configImageApply, rfl, rfl⟩
  case lodgePowerOn =>
    exact ⟨_, rfl, rfl, rfl, rfl, if_pos (.inr rfl), rfl, rfl, rfl, rfl, rfl, rfl, rfl, rfl, rfl, rfl, rfl, rfl, rfl⟩
  case lodgeStart =>
    intro va vb u w f
    refine ⟨fun h => if_pos h, fun hl hp => ?_⟩
    have starts : exec (.lodgeStart va vb) s =
        .next (if feedOk w f = true then takeFeed w f else if feedOk w (1 - f) = true then takeFeed w (1 - f) else feedFault w) :=
      if_neg (not_or.mpr ⟨not_of_false hl, not_of_false hp⟩)
    exact ⟨fun h => starts.trans (next_congr (if_pos h)),
      fun h h' => starts.trans (next_congr ((if_neg (not_of_false h)).trans (if_pos h'))),
      fun h h' => starts.trans (next_congr ((if_neg (not_of_false h)).trans (if_neg (not_of_false h'))))⟩
  case railEnable =>
    intro may
    have may_iff : (s.pwr.lodgeOn = true ∧ s.pwr.fet.isSome = true ∧ s.held = true ∧ s.pstate ≠ 3) ↔ may := by
      simp only [may, Option.isSome_iff_ne_none]
    exact ⟨fun h => if_pos (may_iff.mpr h), fun h => if_neg (mt may_iff.mp h)⟩
  case railGoodIdle => exact fun h => if_neg (not_both_of_false_or_true h)
  case railOffHoldEnd =>
    intro u
    exact ⟨fun h => if_neg (not_of_false h), fun h hw => (if_pos h).trans (next_congr (if_pos hw)),
      fun h hw => (if_pos h).trans (next_congr (if_neg (not_of_false hw)))⟩
  case chipResetPin =>
    intro u
    have held : exec (.chipResetPin true) s = .next (endChange (if s.pstate = 3 then raiseRails u else u)) := rfl
    exact ⟨fun h => held.trans (next_congr (congrArg endChange (if_pos h))), fun h => held.trans (next_congr (congrArg endChange (if_neg h)))⟩
  case chipResetRelease =>
    intro may
    have may_iff : (s.held = true ∧ s.pwr.lodgeOn = true ∧ s.pwr.railEn = true ∧ s.pwr.railGood = true ∧ (!s.pwr.pinLow) = true ∧
        (!s.pwr.testen) = true) ↔ may := by
      simp only [may, Bool.not_eq_true']
    exact ⟨fun h => if_pos (may_iff.mpr h), fun h => if_neg (mt may_iff.mp h)⟩
  case configImageApply =>
    intro u may
    have may_iff : may = true ↔ s.alive = true ∧ s.pwr.firmware = true ∧ s.pwr.imaged = false ∧ s.mode = 0 := by
      simp only [may, Bool.and_eq_true, Bool.not_eq_true', beq_iff_eq, and_assoc]
    refine ⟨fun h => if_neg fun hc => ?_, fun h hk => ?_, fun k h hk => ?_⟩
    · obtain ⟨ha, hf, hi, hm⟩ := hc
      exact not_of_false h (may_iff.mpr ⟨ha, hf, Bool.not_eq_true' _ ▸ hi, hm⟩)
    · obtain ⟨ha, hf, hi, hm⟩ := may_iff.mp h
      exact configImageApply_none ha hf hi hm hk
    · obtain ⟨ha, hf, hi, hm⟩ := may_iff.mp h
      exact configImageApply_some ha hf hi hm hk

/-- Settles O56, instruction by instruction. -/
theorem testPortInstructionsHaveTheirEffect : Obligations.TestPortInstructionsHaveTheirEffect := by
  intro s bypass
  refine ⟨fun off => ?idle, fun works => ?working⟩
  case idle =>
    exact ⟨if_neg (not_of_false off), if_neg (not_of_false off), fun pins data => if_neg (not_of_false off), if_pos (bnot_of_false off),
      if_pos (bnot_of_false off)⟩
  case working =>
    have extest : exec .jtagExtest s = if s.held = true then .next ((setTap s 3).emit (.drive s.pwr.boundary)) else .next bypass :=
      if_neg (not_bnot_of_true works)
    have highz : exec .jtagHighz s = if s.held = true then .next ((setTap s 4).emit .highz) else .next bypass :=
      if_neg (not_bnot_of_true works)
    exact ⟨if_pos works, if_pos works, fun pins data => if_pos works, fun h => ⟨extest.trans (if_pos h), highz.trans (if_pos h)⟩,
      fun h => ⟨extest.trans (if_neg (not_of_false h)), highz.trans (if_neg (not_of_false h))⟩⟩
end
